-- ==== Sys2Proof/Word.lean ====
section
/-! DEFINITION. Word.lean: the word types of the S9 (00_scope R4, 12 R238). -/

namespace Sys2Proof

/-- A register word, an op word or an extended word (11 R224). -/
abbrev Word := BitVec 32

/-- One byte of a memory or of an instruction stream (00 R4). -/
abbrev Byte := BitVec 8

/-- A register pair, a 64-bit address or a device register (12 R238). -/
abbrev Dword := BitVec 64

/-- A 16-bit parcel of the VLIW stream (11 R221). -/
abbrev Parcel := BitVec 16

end Sys2Proof
end

