-- ==== Sys2Proof/Machine/Numbers.lean ====
section
/-! DEFINITION. Numbers.lean: number formats, exact values, rounding and the helper functions (12 R238 to R256). -/

namespace Sys2Proof.Machine

/-! ### Integers (12 R238, R239) -/

/-- An integer type: its width and whether it is signed. -/
structure IntType where
  bits : Nat
  signed : Bool
  deriving DecidableEq, Repr

/-- The integer type of a TYPE code 0x0 to 0x7 (11 R228). -/
def intType (code : Nat) : IntType :=
  { bits := 8 * 2 ^ (code / 2 % 4), signed := code % 2 == 0 }

/-- Does a TYPE code name an integer type? -/
def isIntCode (code : Nat) : Bool := code < 8

/-- Does a TYPE code name a float type? -/
def isFloatCode (code : Nat) : Bool := code == 8 || code == 9 || code == 10

/-- The two's-complement value of the low `n` bits (12 R256 `sext`). -/
def sextInt (n x : Nat) : Int :=
  let v := x % 2 ^ n
  if v < 2 ^ (n - 1) then (v : Int) else (v : Int) - (2 ^ n : Nat)

/-- The value of a register's bits read as a type (12 R238). -/
def IntType.read (t : IntType) (x : Nat) : Int :=
  if t.signed then sextInt t.bits x else ((x % 2 ^ t.bits : Nat) : Int)

/-- The least value of a type. -/
def IntType.least (t : IntType) : Int := if t.signed then -((2 ^ (t.bits - 1) : Nat) : Int) else 0

/-- The greatest value of a type. -/
def IntType.greatest (t : IntType) : Int :=
  if t.signed then ((2 ^ (t.bits - 1) : Nat) : Int) - 1 else ((2 ^ t.bits : Nat) : Int) - 1

/-- The low `n` bits of an integer. -/
def lowBits (n : Nat) (x : Int) : Nat := (x % ((2 ^ n : Nat) : Int)).toNat

/-- `wrap` of 12 R256, as a value of the type. -/
def IntType.wrap (t : IntType) (x : Int) : Int := t.read (lowBits t.bits x)

/-- `sat` of 12 R256. -/
def IntType.sat (t : IntType) (x : Int) : Int := min (max x t.least) t.greatest

/-- The bits a value of the type has in its register, sign- or zero-extended to 32 bits, or in its pair (12 R238). -/
def IntType.bitsOf (t : IntType) (x : Int) : Nat := lowBits (max t.bits 32) x

/-- An exact result wrapped or saturated and written (12 R239). -/
def IntType.write (t : IntType) (sat : Bool) (x : Int) : Nat :=
  t.bitsOf (if sat then t.sat x else t.wrap x)

/-- Quotient truncated towards zero and its remainder (14 R268). -/
def divTrunc (a b : Int) : Int := Int.tdiv a b
def remTrunc (a b : Int) : Int := Int.tmod a b

/-! ### Floats (12 R240) -/

/-- A float format: exponent bits and fraction bits. -/
structure FloatFmt where
  ebits : Nat
  fbits : Nat
  deriving DecidableEq, Repr

def f32 : FloatFmt := ⟨8, 23⟩
def f16 : FloatFmt := ⟨5, 10⟩
def bf16 : FloatFmt := ⟨8, 7⟩

/-- The format of a TYPE code 0x8 to 0xA (11 R228). -/
def floatFmt (code : Nat) : FloatFmt := if code = 9 then f16 else if code = 10 then bf16 else f32

namespace FloatFmt

def bias (t : FloatFmt) : Nat := 2 ^ (t.ebits - 1) - 1
def emin (t : FloatFmt) : Int := 1 - (t.bias : Int)
def emax (t : FloatFmt) : Int := t.bias
def width (t : FloatFmt) : Nat := 1 + t.ebits + t.fbits
/-- The canonical NaN (12 R240). -/
def nan (t : FloatFmt) : Nat := (2 ^ t.ebits - 1) * 2 ^ t.fbits + 2 ^ (t.fbits - 1)
def signBit (t : FloatFmt) (neg : Bool) : Nat := if neg then 2 ^ (t.ebits + t.fbits) else 0
def inf (t : FloatFmt) (neg : Bool) : Nat := t.signBit neg + (2 ^ t.ebits - 1) * 2 ^ t.fbits
def maxFinite (t : FloatFmt) (neg : Bool) : Nat := t.inf neg - 1
def zero (t : FloatFmt) (neg : Bool) : Nat := t.signBit neg

end FloatFmt

/-- The value an encoding denotes: NaN, an infinity, or a signed magnitude `m * 2 ^ e` (12 R256 `val`). -/
inductive FVal where
  | nan
  | inf (neg : Bool)
  | fin (neg : Bool) (m : Nat) (e : Int)
  deriving DecidableEq, Repr

/-- `val` of 12 R256. -/
def FloatFmt.val (t : FloatFmt) (b : Nat) : FVal :=
  let neg := b / 2 ^ (t.ebits + t.fbits) % 2 == 1
  let ex := b / 2 ^ t.fbits % 2 ^ t.ebits
  let fr := b % 2 ^ t.fbits
  if ex = 2 ^ t.ebits - 1 then
    if fr = 0 then .inf neg else .nan
  else if ex = 0 then .fin neg fr (1 - (t.bias : Int) - t.fbits)
  else .fin neg (2 ^ t.fbits + fr) ((ex : Int) - t.bias - t.fbits)

def FVal.isNaN (v : FVal) : Bool := v == .nan

def FVal.neg : FVal → FVal
  | .nan => .nan
  | .inf s => .inf (!s)
  | .fin s m e => .fin (!s) m e

/-! ### Rounding (12 R243 to R245) -/

/-- Does a magnitude whose discarded part stands to one half as `c` round away from zero? `odd` is the last bit
kept, `exact` says that nothing is discarded (12 R243). -/
def roundsUp (mode : Nat) (neg odd exact : Bool) (c : Ordering) : Bool :=
  match mode with
  | 0 => c == .gt || (c == .eq && odd)
  | 1 => false
  | 2 => !exact && !neg
  | _ => !exact && neg

/-- The result of an overflow (12 R243). -/
def overflowBits (t : FloatFmt) (mode : Nat) (neg : Bool) : Nat :=
  match mode with
  | 0 => t.inf neg
  | 1 => t.maxFinite neg
  | 2 => if neg then t.maxFinite true else t.inf false
  | _ => if neg then t.inf true else t.maxFinite false

/-- The encoding of `n * 2 ^ q`, where `n < 2 ^ (Fbits + 1)` and `q` is the step of its binade (12 R240). -/
def packFloat (t : FloatFmt) (neg : Bool) (n : Nat) (q : Int) : Nat :=
  if n < 2 ^ t.fbits then t.signBit neg + n
  else t.signBit neg + (q + t.fbits + t.bias).toNat * 2 ^ t.fbits + (n - 2 ^ t.fbits)

/-- `rnd` of 12 R256 for a positive magnitude `m * 2 ^ e` with a sign; `sticky` says that the exact magnitude lies
strictly between `m` and `m + 1` steps of `2 ^ e`, where `m` then has more than `Fbits + 2` bits. -/
def roundMag (t : FloatFmt) (mode : Nat) (neg : Bool) (m : Nat) (e : Int) (sticky : Bool) : Nat :=
  if m = 0 ∧ !sticky then t.zero neg
  else
    let top : Int := (Nat.log2 m : Int) + e
    let q : Int := max top t.emin - t.fbits
    let sh := q - e
    let parts : Nat × Bool × Ordering :=
      if sh ≤ 0 then (m * 2 ^ (-sh).toNat, !sticky, if sticky then .lt else .lt)
      else
        let k := sh.toNat
        let r := m % 2 ^ k
        let h := 2 ^ (k - 1)
        (m / 2 ^ k, r == 0 && !sticky, if r < h then .lt else if r = h ∧ !sticky then .eq else .gt)
    let n0 := parts.1
    let n1 := if roundsUp mode neg (n0 % 2 == 1) parts.2.1 parts.2.2 then n0 + 1 else n0
    let n := if n1 = 2 ^ (t.fbits + 1) then 2 ^ t.fbits else n1
    let q' := if n1 = 2 ^ (t.fbits + 1) then q + 1 else q
    if n = 0 then t.zero neg
    else if 2 ^ t.fbits ≤ n ∧ t.emax < q' + t.fbits then overflowBits t mode neg
    else packFloat t neg n q'

/-- `rnd` of an exact value, with an exact zero's sign as the value gives it (12 R256). -/
def FloatFmt.rnd (t : FloatFmt) (mode : Nat) (v : FVal) : Nat :=
  match v with
  | .nan => t.nan
  | .inf s => t.inf s
  | .fin s m e => roundMag t mode s m e false

/-- SAT on a float result (12 R245). -/
def satFloat (t : FloatFmt) (sat : Bool) (b : Nat) : Nat :=
  if sat then (if b = t.inf false then t.maxFinite false else if b = t.inf true then t.maxFinite true else b) else b

/-! ### Exact arithmetic -/

/-- The signed integer of a magnitude at the exponent `e0`, at most its own. -/
def scaled (e0 : Int) : FVal → Int
  | .fin s m e =>
    let n : Int := ((m * 2 ^ (e - e0).toNat : Nat) : Int)
    if s then -n else n
  | _ => 0

def FVal.exp : FVal → Int
  | .fin _ _ e => e
  | _ => 0

/-- The exact product (12 R241, R244). -/
def mulExact (a b : FVal) : FVal :=
  match a, b with
  | .nan, _ => .nan
  | _, .nan => .nan
  | .inf s, .inf r => .inf (s != r)
  | .inf s, .fin r m _ => if m = 0 then .nan else .inf (s != r)
  | .fin r m _, .inf s => if m = 0 then .nan else .inf (s != r)
  | .fin s m e, .fin r n f => .fin (s != r) (m * n) (e + f)

def FVal.isPosInf (v : FVal) : Bool := v == .inf false
def FVal.isNegInf (v : FVal) : Bool := v == .inf true
def FVal.isNegSign : FVal → Bool
  | .fin s _ _ => s
  | .inf s => s
  | .nan => false
def FVal.isZero : FVal → Bool
  | .fin _ m _ => m == 0
  | _ => false

/-- `exact_sum` of 12 R256 with the special values of R250 and the zero sign of R244 under the mode that consumes
it; the sum of no terms is +0. -/
def exactSum (mode : Nat) (xs : List FVal) : FVal :=
  if xs.any FVal.isNaN || (xs.any FVal.isPosInf && xs.any FVal.isNegInf) then .nan
  else if xs.any FVal.isPosInf then .inf false
  else if xs.any FVal.isNegInf then .inf true
  else
    let e0 := xs.foldl (fun e v => min e v.exp) 0
    let total := xs.foldl (fun n v => n + scaled e0 v) 0
    if total = 0 then
      if xs.all FVal.isZero && xs.all FVal.isNegSign && !xs.isEmpty then .fin true 0 0
      else if xs.all FVal.isZero && xs.all (fun v => !v.isNegSign) then .fin false 0 0
      else .fin (mode == 3) 0 0
    else .fin (decide (total < 0)) total.natAbs e0

/-- Ordered comparison of two values that are no NaN (12 R241: -0 equals +0). -/
def cmpVal (a b : FVal) : Ordering :=
  match a, b with
  | .inf s, .inf r => if s = r then .eq else if s then .lt else .gt
  | .inf s, _ => if s then .lt else .gt
  | _, .inf s => if s then .gt else .lt
  | a, b =>
    let e0 := min a.exp b.exp
    compare (scaled e0 a) (scaled e0 b)

/-- `fmin` and `fmax` on encodings of one format (12 R241): -0 stands below +0. -/
def fminmax (t : FloatFmt) (isMax : Bool) (x y : Nat) : Nat :=
  let a := t.val x
  let b := t.val y
  if a.isNaN then (if b.isNaN then t.nan else y)
  else if b.isNaN then x
  else
    match cmpVal a b with
    | .lt => if isMax then y else x
    | .gt => if isMax then x else y
    | .eq =>
      if a.isZero && b.isZero then
        if isMax then (if a.isNegSign then y else x) else (if a.isNegSign then x else y)
      else x

/-- The comparisons of 13 R261 by SUB, on an order; false where a NaN makes the operands unordered but for `.ne`. -/
def ccHolds (cc : Nat) (o : Ordering) : Bool :=
  match cc with
  | 0 => o == .eq
  | 1 => o != .eq
  | 2 => o == .lt
  | 3 => o != .gt
  | 4 => o == .gt
  | _ => o != .lt

/-- `fcmp` (15 R300). -/
def fcmpHolds (t : FloatFmt) (cc x y : Nat) : Bool :=
  let a := t.val x
  let b := t.val y
  let un := a.isNaN || b.isNaN
  match cc with
  | 6 => un
  | 7 => !un
  | _ => if un then cc == 1 else ccHolds cc (cmpVal a b)

/-! ### Conversions and integral rounding (12 R246, 15 R301) -/

/-- A magnitude `m * 2 ^ e` rounded to an integer. -/
def roundInt (mode : Nat) (neg : Bool) (m : Nat) (e : Int) : Nat :=
  if 0 ≤ e then m * 2 ^ e.toNat
  else
    let k := (-e).toNat
    let r := m % 2 ^ k
    let h := 2 ^ (k - 1)
    let n := m / 2 ^ k
    if roundsUp mode neg (n % 2 == 1) (r == 0) (if r < h then .lt else if r = h then .eq else .gt) then n + 1 else n

/-- Float to integer (12 R246): always saturated. -/
def floatToInt (t : IntType) (mode : Nat) : FVal → Nat
  | .nan => 0
  | .inf s => t.bitsOf (if s then t.least else t.greatest)
  | .fin s m e =>
    let n : Int := (roundInt mode s m e : Nat)
    t.bitsOf (t.sat (if s then -n else n))

/-- An integer's exact value. -/
def FVal.ofInt (x : Int) : FVal := .fin (decide (x < 0)) x.natAbs 0

/-- `frnd` (15 R301). -/
def frndBits (t : FloatFmt) (mode b : Nat) : Nat :=
  match t.val b with
  | .nan => t.nan
  | .inf s => t.inf s
  | .fin s m e => if 0 ≤ e then b % 2 ^ t.width else roundMag t 0 s (roundInt mode s m e) 0 false

/-- Does the wider format `t` represent every value of `u` (12 R246)? -/
def FloatFmt.holds (t u : FloatFmt) : Bool := u.ebits ≤ t.ebits && u.fbits ≤ t.fbits

/-- `cvt` from a TYPE2 code to a TYPE code (12 R246, 15 R302). (log 36, DEDUCED) -/
def cvtBits (ty ty2 mode : Nat) (sat : Bool) (b : Nat) : Nat :=
  if isIntCode ty && isIntCode ty2 then
    let t := intType ty
    let u := intType ty2
    if ty = ty2 then u.bitsOf (u.read b)
    else if u.bits < t.bits then t.write false (u.read b)
    else t.write sat (u.read b)
  else if isIntCode ty2 then
    let t := floatFmt ty
    satFloat t sat (t.rnd mode (.ofInt ((intType ty2).read b)))
  else if isIntCode ty then floatToInt (intType ty) mode ((floatFmt ty2).val b)
  else if ty = ty2 then satFloat (floatFmt ty) sat (b % 2 ^ (floatFmt ty).width)
  else
    let t := floatFmt ty
    satFloat t sat (t.rnd mode ((floatFmt ty2).val b))

/-! ### Special functions (15 R303) -/

/-- Integer square root, by bits from the top. -/
def isqrtAux (n : Nat) : Nat → Nat → Nat
  | 0, r => r
  | k + 1, r =>
    let c := r + 2 ^ k
    isqrtAux n k (if c * c ≤ n then c else r)

def isqrt (n : Nat) : Nat := isqrtAux n (Nat.log2 n / 2 + 1) 0

/-- 1 / a for a finite non-zero magnitude. -/
def rcpMag (t : FloatFmt) (mode : Nat) (s : Bool) (m : Nat) (e : Int) : Nat :=
  let k := Nat.log2 m + 40
  roundMag t mode s (2 ^ k / m) (-e - k) (2 ^ k % m != 0)

/-- The square root of a positive magnitude. -/
def sqrtMag (t : FloatFmt) (mode m : Nat) (e : Int) : Nat :=
  let odd := e % 2 == 1
  let n := (if odd then 2 * m else m) * 2 ^ 80
  let e' := (if odd then e - 1 else e) - 80
  let r := isqrt n
  roundMag t mode false r (e' / 2) (r * r != n)

/-- 1 / √a of a positive magnitude. -/
def rsqMag (t : FloatFmt) (mode m : Nat) (e : Int) : Nat :=
  let odd := e % 2 == 1
  let m' := if odd then 2 * m else m
  let e' := if odd then e - 1 else e
  let n := 2 ^ 160
  let r := isqrt (n / m')
  roundMag t mode false r (-80 - e' / 2) (r * r * m' != n)

/-- Fraction bits of the fixed-point numbers of the special functions: more than three times the 149 bits of the
smallest argument, and more than 200 beyond. (log 8, UNVERIFIED) -/
def fixBits : Nat := 720

/-- The sum over odd k of z^k / k in fixed point, with `zz` the square of z: the area tangent. -/
def atanhSeries (p : Nat) (zz : Int) : Nat → Nat → Int → Int
  | 0, _, _ => 0
  | n + 1, k, pow => pow / (k : Int) + atanhSeries p zz n (k + 2) (pow * zz / ((2 ^ p : Nat) : Int))

/-- ln 2 in fixed point: twice the area tangent of 1/3. -/
def ln2Fix (p : Nat) : Int :=
  let z := ((2 ^ p : Nat) : Int) / 3
  2 * atanhSeries p (z * z / ((2 ^ p : Nat) : Int)) (p / 3 + 4) 1 z

/-- The arc tangent of 1/q in fixed point. -/
def atanInvFix (p q : Nat) : Int :=
  let z := ((2 ^ p : Nat) : Int) / (q : Int)
  atanhSeries p (-(z * z / ((2 ^ p : Nat) : Int))) (p / 2 + 4) 1 z

/-- π in fixed point (Machin). -/
def piFix (p : Nat) : Int := 16 * atanInvFix p 5 - 4 * atanInvFix p 239

/-- The exponential series of x in fixed point. -/
def expSeries (p : Nat) (x : Int) : Nat → Nat → Int → Int
  | 0, _, _ => 0
  | n + 1, k, term => term + expSeries p x n (k + 1) (term * x / (((2 ^ p : Nat) : Int) * ((k : Int) + 1)))

def expFix (p : Nat) (x : Int) : Int := expSeries p x (p / 2) 0 ((2 ^ p : Nat) : Int)

/-- The alternating series of sine (k = 1) or cosine (k = 0) of x in fixed point, with `xx` the square of x. -/
def trigSeries (p : Nat) (xx : Int) : Nat → Nat → Int → Int
  | 0, _, _ => 0
  | n + 1, k, term =>
    term + trigSeries p xx n (k + 2) (-(term * xx / (((2 ^ p : Nat) : Int) * (((k : Int) + 1) * ((k : Int) + 2)))))

/-- The fixed-point integer of a finite value, rounded down. -/
def toFix (p : Nat) (s : Bool) (m : Nat) (e : Int) : Int :=
  let n : Int := if 0 ≤ e + p then ((m * 2 ^ (e + p).toNat : Nat) : Int) else ((m / 2 ^ (-(e + p)).toNat : Nat) : Int)
  if s then -n else n

/-- A fixed-point number that is no exact value, rounded to a format. -/
def roundFix (t : FloatFmt) (mode : Nat) (p : Nat) (x : Int) (e : Int) : Nat :=
  roundMag t mode (decide (x < 0)) x.natAbs (e - p) true

/-- 2^a of a finite value (15 R303). -/
def exp2Bits (t : FloatFmt) (mode : Nat) (s : Bool) (m : Nat) (e : Int) : Nat :=
  if m = 0 then roundMag t mode false 1 0 false
  else if 10 < (Nat.log2 m : Int) + e then
    if s then roundMag t mode false (2 ^ 60) (-2000) true else roundMag t mode false (2 ^ 60) 2000 true
  else
    let x := toFix fixBits s m e
    let one : Int := ((2 ^ fixBits : Nat) : Int)
    let k := x / one
    let fr := x % one
    if fr = 0 then roundMag t mode false 1 k false
    else roundFix t mode fixBits (expFix fixBits (fr * ln2Fix fixBits / one)) k

/-- log2 a of a positive magnitude (15 R303). -/
def log2Bits (t : FloatFmt) (mode m : Nat) (e : Int) : Nat :=
  let k := Nat.log2 m
  let top : Int := (k : Int) + e
  if m = 2 ^ k then roundMag t mode (decide (top < 0)) top.natAbs 0 false
  else
    let one : Int := ((2 ^ fixBits : Nat) : Int)
    let z : Int := ((m : Int) - ((2 ^ k : Nat) : Int)) * one / ((m : Int) + ((2 ^ k : Nat) : Int))
    let ln := 2 * atanhSeries fixBits (z * z / one) (fixBits / 3 + 4) 1 z
    roundFix t mode fixBits (top * one + ln * one / ln2Fix fixBits) 0

/-- The quadrant of |a| and the fixed-point remainder after whole multiples of π/2. -/
def quadrant (m : Nat) (e : Int) : Nat × Int :=
  let p := fixBits + 160
  let half := piFix p / 2
  let x := toFix p false m e
  let k := (x + half / 2) / half
  (k.toNat % 4, (x - k * half) / ((2 ^ 160 : Nat) : Int))

def sinFix (r : Int) : Int :=
  let one : Int := ((2 ^ fixBits : Nat) : Int)
  trigSeries fixBits (r * r / one) (fixBits / 4) 1 r

def cosFix (r : Int) : Int :=
  let one : Int := ((2 ^ fixBits : Nat) : Int)
  trigSeries fixBits (r * r / one) (fixBits / 4) 0 one

/-- sin a of a finite non-zero value (15 R303). -/
def sinBits (t : FloatFmt) (mode : Nat) (s : Bool) (m : Nat) (e : Int) : Nat :=
  let qr := quadrant m e
  let v := match qr.1 with
    | 0 => sinFix qr.2
    | 1 => cosFix qr.2
    | 2 => -sinFix qr.2
    | _ => -cosFix qr.2
  roundFix t mode fixBits (if s then -v else v) 0

/-- cos a of a finite non-zero value (15 R303). -/
def cosBits (t : FloatFmt) (mode : Nat) (m : Nat) (e : Int) : Nat :=
  let qr := quadrant m e
  let v := match qr.1 with
    | 0 => cosFix qr.2
    | 1 => -sinFix qr.2
    | 2 => -cosFix qr.2
    | _ => sinFix qr.2
  roundFix t mode fixBits v 0

/-- tanh a of a finite non-zero value (15 R303): (1 - x) / (1 + x) with x = exp (-2 |a|). -/
def tanhBits (t : FloatFmt) (mode : Nat) (s : Bool) (m : Nat) (e : Int) : Nat :=
  let one : Int := ((2 ^ fixBits : Nat) : Int)
  if 6 < (Nat.log2 m : Int) + e then roundFix t mode fixBits (if s then -(one - 1) else one - 1) 0
  else
    let a := toFix fixBits false m e
    let y := 2 * a * one / ln2Fix fixBits
    let k := y / one
    let ex := expFix fixBits ((y % one) * ln2Fix fixBits / one) * ((2 ^ k.toNat : Nat) : Int)
    let v := (ex - one) * one / (ex + one)
    roundFix t mode fixBits (if s then -v else v) 0

/-- The special functions by selector (15 R303). -/
def specialFn (sel : Nat) (t : FloatFmt) (mode b : Nat) : Nat :=
  match sel, t.val b with
  | _, .nan => t.nan
  | 0, .inf s => t.zero s
  | 0, .fin s m e => if m = 0 then t.inf s else rcpMag t mode s m e
  | 1, .inf s => if s then t.nan else t.zero false
  | 1, .fin s m e => if m = 0 then t.inf s else if s then t.nan else rsqMag t mode m e
  | 2, .inf s => if s then t.nan else t.inf false
  | 2, .fin s m e => if m = 0 then t.zero s else if s then t.nan else sqrtMag t mode m e
  | 3, .inf s => if s then t.zero false else t.inf false
  | 3, .fin s m e => exp2Bits t mode s m e
  | 4, .inf s => if s then t.nan else t.inf false
  | 4, .fin s m e => if m = 0 then t.inf true else if s then t.nan else log2Bits t mode m e
  | 5, .inf _ => t.nan
  | 5, .fin s m e => if m = 0 then t.zero s else sinBits t mode s m e
  | 6, .inf _ => t.nan
  | 6, .fin _ m e => if m = 0 then roundMag t mode false 1 0 false else cosBits t mode m e
  | _, .inf s => roundMag t mode s 1 0 false
  | _, .fin s m e => if m = 0 then t.zero s else tanhBits t mode s m e

/-! ### Sampling (12 R254) -/

/-- A weight or carry clamped. -/
def clampWeight (b : Nat) : FVal :=
  match f32.val b with
  | .nan => .fin false 0 0
  | .inf s => if s then .fin false 0 0 else .fin false 1 100
  | .fin s m e =>
    if s && m != 0 then .fin false 0 0 else if s then .fin true 0 e else if cmpVal (.fin false m e) (.fin false 1 100) == .gt then .fin false 1 100
    else .fin false m e

/-- u × x ÷ 2^32 rounded towards zero (12 R254, 15 R310). -/
def drawPoint (u : Nat) (x : FVal) : Nat :=
  f32.rnd 1 (mulExact (.fin false u (-32)) x)

end Sys2Proof.Machine
end

