-- ==== Sys2Proof/Machine/Flags.lean ====
section
/-! DEFINITION. Flags.lean: the S9 has no flags register; its conditions are the values 0 and 1 of comparisons and the
predicates that votes and comparisons write (13 R261; 14 R267; 15 R297, R300, R308). -/

namespace Sys2Proof.Machine

/-- A truth value as a register or port holds it (14 R267, 15 R290). -/
def boolWord (b : Bool) : Word := if b then 1 else 0

/-- `cmp.cc` and `scmp.cc` on integers of one type (13 R261). -/
def cmpInt (cc : Nat) (a b : Int) : Bool := ccHolds cc (compare a b)

/-- `vote` over the values of the active lanes (15 R308): any, all, uni. -/
def voteHolds (sub : Nat) (vs : List Bool) : Bool :=
  match sub with
  | 1 => vs.any id
  | 2 => vs.all id
  | _ => vs.all id || vs.all (fun v => !v)

end Sys2Proof.Machine
end

