-- ==== Sys2Proof/Config.lean ====
section
/-! DEFINITION. Config.lean: what the manual leaves open, as constants without a body, and the fixed sizes of the S9.
The argument of a free value is the model's step counter, or the thing the value belongs to. -/

namespace Sys2Proof.Config

/-! ### Free values (notes/assumptions/3.md) -/

/-- A value the manual calls unpredictable (00 R2). (log 3, DESIGN CHOICE) -/
opaque freeWord : Nat → Word
/-- A choice the manual leaves open, where each answer is allowed (08 R161, R156; 18 R360; 03 R64). -/
opaque freeBool : Nat → Bool
/-- Does the agent of an asynchronous completion act now (17 R340, 18 R354, 09 R188)? -/
opaque asyncReady : Nat → Bool
/-- Does the L1 still hold a line's non-owned words (08 R161: eviction is not laid down)? (log 90, DEDUCED) -/
opaque l1Keeps : Nat → Bool
/-- The set of the section TLB that an entry goes to, by its ASID and page (03 R65: the index is not laid down). (log 89, DESIGN CHOICE) -/
opaque tlbSet : Nat → Nat → Nat
/-- Does a TLB still hold an entry (03 R65: replacement is not laid down)? (log 89, DESIGN CHOICE) -/
opaque tlbKeeps : Nat → Bool
/-- The DETAIL of a cause 0x02 for which the manual gives none (13 R260, R263). -/
opaque unstatedDetail : Nat → Nat
/-- The low 31 bits of the CODE of an event-log entry, which name a check (01 R14). (log 72, DESIGN CHOICE) -/
opaque logCode : Nat → Word
/-- The content of a management answer that the manual leaves to its release (01 R13; 03 R46, R67). -/
opaque answerWord : Nat → Word

/-- The queue and the eight-byte word of its entry (8 × queue + word) that an offset of the QUEUE_CFG range configures:
the manual gives the range no layout (07 R413). (log 50, DESIGN CHOICE) -/
opaque queueCfgPlace : Nat → Nat

/-- What the supervisor bits of a page-table entry say of a page that faults: 0 zero-fill, 1 host-file, 2 copy-on-write, 3
none of them (03 R67: laid down by the firmware release). (log 109, DESIGN CHOICE) -/
opaque pageKind : Nat → Nat
/-- Do they allow writes of the page that is installed (03 R67)? (log 109, DESIGN CHOICE) -/
opaque pageWrite : Nat → Bool
/-- The pages that a partition's pool offers, in order, in 4 KiB units (03 R67). (log 109, DESIGN CHOICE) -/
opaque poolFrame : Nat → Nat → Nat

/-- Where a section's command ring stands in partition 0 memory (03 R46: laid down by the firmware release). (log 91, DESIGN CHOICE) -/
opaque fwCommandRing : Nat → Nat
/-- Where a section's event ring stands. (log 91, DESIGN CHOICE) -/
opaque fwEventRing : Nat → Nat
/-- The entries of a section's rings. (log 91, DESIGN CHOICE) -/
opaque fwRingSize : Nat → Nat
/-- The opcode of a command, by its kind. (log 91, DESIGN CHOICE) -/
opaque fwOpcode : Nat → Word
/-- The code of an event, by its kind. (log 91, DESIGN CHOICE) -/
opaque fwEventCode : Nat → Word

/-- HOLDER of a cluster that a granted claim owns before its thread holds a context (05 R92, R95), by the thread. (log 116, DESIGN CHOICE) -/
opaque claimHolder : Nat → Nat

/-! ### Sizes -/

/-- Logical cores (00). -/
def cores : Nat := 256
/-- Contexts of a core: 16 work and 4 handler contexts (00). -/
def workContexts : Nat := 16
def contexts : Nat := 20
/-- Register blocks of a core (09 R183). -/
def blocks : Nat := 256
/-- Frames of HBM (07 R146). -/
def frames : Nat := 11718744
/-- The first address of the register space (07 R147). -/
def regSpace : Nat := 2 ^ 51
/-- Entries of the tack buffer, the load log and the undo log (08 R158, 10 R212). -/
def tackMax : Nat := 256
def loadLogMax : Nat := 1024
def undoMax : Nat := 512
/-- Engine commands of an interval (09 R201). -/
def engMax : Nat := 64
/-- Operations of the matrix queue (09 R197). -/
def matrixMax : Nat := 16
/-- Records of a trap queue (03 R51). -/
def trapMax : Nat := 512

end Sys2Proof.Config
end

