-- ==== Sys2Proof/Machine/SMap.lean ====
section
/-! DEFINITION. SMap.lean: lists of keys and values in one canonical form (keys rising, no entry equal to what an
unlisted key reads as), and byte memory in that form. -/

namespace Sys2Proof.Machine

/-- A sparse map; what an unlisted key reads as is the reader's argument. -/
abbrev SMap (α : Type) := List (Nat × α)

namespace SMap

variable {α : Type}

/-- The entry of a key. -/
def find? (m : SMap α) (k : Nat) : Option α :=
  match m with
  | [] => none
  | (j, a) :: r => if j = k then some a else find? r k

/-- The value of a key, `d` where none is listed. -/
def get (d : α) (m : SMap α) (k : Nat) : α := (find? m k).getD d

/-- The map without a key. -/
def erase (m : SMap α) (k : Nat) : SMap α :=
  match m with
  | [] => []
  | (j, a) :: r => if j = k then erase r k else (j, a) :: erase r k

/-- The map with a key's value, in key order. -/
def insert (m : SMap α) (k : Nat) (v : α) : SMap α :=
  match m with
  | [] => [(k, v)]
  | (j, a) :: r => if k < j then (k, v) :: (j, a) :: r else if k = j then (k, v) :: r else (j, a) :: insert r k v

/-- A write: the default value is not listed. -/
def set [DecidableEq α] (d : α) (m : SMap α) (k : Nat) (v : α) : SMap α :=
  if v = d then erase m k else insert m k v

/-- Canonical form: keys rising, no entry equal to the default. -/
def wf [DecidableEq α] (d : α) : SMap α → Bool
  | [] => true
  | [(_, a)] => a ≠ d
  | (j, a) :: (k, b) :: r => j < k && a ≠ d && wf d ((k, b) :: r)

/-- The keys listed. -/
def keys (m : SMap α) : List Nat := m.map Prod.fst

/-- Every value changed; the caller keeps the canonical form. -/
def mapVals (f : Nat → α → α) (m : SMap α) : SMap α := m.map (fun p => (p.1, f p.1 p.2))

end SMap

/-! ### Byte memory -/

/-- Bytes by address; an unlisted address reads as zero (notes/assumptions/5.md). -/
structure Memory where
  cells : List Host.Cell
  deriving DecidableEq, Repr

namespace Memory

def empty : Memory := ⟨[]⟩

/-- One byte. (log 5, DESIGN CHOICE) -/
def read (m : Memory) (a : Nat) : Byte := SMap.get 0 m.cells a

/-- One byte written. -/
def write (m : Memory) (a : Nat) (b : Byte) : Memory := ⟨SMap.set 0 m.cells a b⟩

/-- `n` bytes from `a` upwards. -/
def readBytes (m : Memory) (a n : Nat) : List Byte :=
  match n with
  | 0 => []
  | n + 1 => m.read a :: m.readBytes (a + 1) n

/-- Bytes written from `a` upwards. -/
def writeBytes (m : Memory) (a : Nat) (bs : List Byte) : Memory :=
  match bs with
  | [] => m
  | b :: r => (m.write a b).writeBytes (a + 1) r

/-- The canonical form. -/
def wf (m : Memory) : Bool := SMap.wf 0 m.cells

/-- `n` bytes from `a` upwards set to zero. -/
def zero (m : Memory) (a n : Nat) : Memory := ⟨m.cells.filter (fun c => c.1 < a || a + n ≤ c.1)⟩

/-- The bytes of a range, moved to another start; everything outside is left out. -/
def slice (m : Memory) (a n : Nat) : Memory :=
  ⟨(m.cells.filter (fun c => a ≤ c.1 && c.1 < a + n)).map (fun c => (c.1 - a, c.2))⟩

end Memory

/-- The little-endian number of bytes (00 R4). -/
def leNat : List Byte → Nat
  | [] => 0
  | b :: r => b.toNat + 256 * leNat r

/-- The `n` low bytes of a number, the lowest first (00 R4). -/
def leBytes (n v : Nat) : List Byte :=
  match n with
  | 0 => []
  | n + 1 => BitVec.ofNat 8 v :: leBytes n (v / 256)

/-- A field of a little-endian byte list. -/
def fieldAt (bs : List Byte) (off n : Nat) : Nat := leNat ((bs.drop off).take n)

/-- Bits hi to lo of a number. -/
def bitsOf (v hi lo : Nat) : Nat := v / 2 ^ lo % 2 ^ (hi + 1 - lo)

end Sys2Proof.Machine
end

