-- ==== Sys2Proof/Syntax.lean ====
section
/-! DEFINITION. Syntax.lean: the op word and its extended words as fields (11 R224 to R228), the operands of the
device's events, and the one inductive of every row of spec/opcode_table.json. -/

namespace Sys2Proof

/-- The operand fields of an op word; MAJOR, FORM and a selector in B are the constructor's (11 R224). -/
structure OpF where
  /-- bit 31: stop in SIMT code, port-only destination in VLIW code -/
  s : Bool
  /-- bits 23 to 18 -/
  d : BitVec 6
  /-- bits 17 to 12 -/
  a : BitVec 6
  /-- bits 11 to 6; zero in a grouped major, whose selector stands there (13 R260) -/
  b : BitVec 6
  /-- GUARD, bits 5 to 3 -/
  g : BitVec 3
  /-- NEG, bit 2 -/
  n : Bool
  deriving DecidableEq, Repr

/-- Layout X of an extended word (11 R228). -/
structure ExtX where
  sub : BitVec 4
  ty : BitVec 4
  ty2 : BitVec 4
  rnd : BitVec 2
  sat : Bool
  lge : Bool
  lg : BitVec 3
  lgn : Bool
  c : BitVec 6
  /-- bits 5 to 0, reserved -/
  rsv : BitVec 6
  deriving DecidableEq, Repr

/-- Layout M of an extended word (11 R228). -/
structure ExtM where
  sub : BitVec 4
  space : BitVec 2
  scope : BitVec 3
  width : BitVec 3
  mx : Bool
  /-- bits 18 and 17, reserved -/
  rsv : BitVec 2
  lge : Bool
  lg : BitVec 3
  lgn : Bool
  off : BitVec 12
  deriving DecidableEq, Repr

/-- A VLIW bundle (11 R222): the slot mask and the words that follow the header, op and extended words in slot
order. -/
structure Bundle where
  slots : BitVec 16
  words : List Word
  deriving DecidableEq, Repr

/-- The three kinds of firmware image (01 R11). -/
inductive ImageKind where
  | management | supervisor | hostComplex
  deriving DecidableEq, Repr

/-- How far the write of an image is: under way, at its end and verified, or failed (01 R12). -/
inductive ImageWrite where
  | underWay | verified | failed
  deriving DecidableEq, Repr

/-- A port whose training sets a FUNC_READY bit (01 R15). -/
inductive NetPort where
  | eth (n : Nat)
  | cxl (n : Nat)
  deriving DecidableEq, Repr

/-- A unit under the darn's pattern test (01 R17, R18). -/
inductive DarnUnit where
  | matrixRow (core row : Nat)
  | sramBank (core bank : Nat)
  | core (core : Nat)
  deriving DecidableEq, Repr

/-- A memory request of an outside party. -/
inductive MemReq where
  | read (len : Nat)
  | write (bytes : List Byte)
  /-- a peer's atomic on 4 or 8 bytes (02 R39): its SUB code (16 R320), its operand and its comparand -/
  | atomic (sub len b cmp : Nat)
  deriving DecidableEq, Repr

/-- Where a doorbell comes from (02 R34). -/
inductive DoorbellSource where
  | cxl (vf : Nat)
  | queueFeed (qp : Nat)
  | hostComplex
  | deviceLaunch (vf : Nat)
  deriving DecidableEq, Repr

/-- Where an error is detected (10 R213). -/
inductive ErrLocation where
  /-- register pool, scratchpad, logs or store buffer, recoverable by rollback -/
  | coreState
  /-- matrix cells, accumulators or tiles -/
  | matrix
  /-- a log, or a word not restored by the undo log -/
  | log
  /-- an L1 word; owned or not -/
  | l1 (owned : Bool) (pa : Nat)
  | instructionStore
  /-- checkpoint state or the late-write buffer -/
  | checkpoint
  /-- an uncorrectable HBM or L2 line -/
  | line (pa : Nat)
  deriving DecidableEq, Repr

/-- An entry of the stream whose signature a rerun yields (10 R214): a register write by its destination code, or a buffered
store. -/
inductive RerunItem where
  | register (dst : Word) (v : Word)
  | store (addr : Dword) (data mask : Word)
  deriving DecidableEq, Repr

/-- What a rerun of an interval yields (10 R214). -/
structure Rerun where
  /-- the bundles and instruction-passes it issued -/
  count : Nat
  /-- its register writes and buffered stores, in issue order -/
  items : List RerunItem
  /-- entries it took from the load log, and whether each of its accesses was the logged one -/
  loads : Nat
  addresses : Bool
  /-- it detected an error -/
  error : Bool
  deriving DecidableEq, Repr

/-- The two reruns that a verdict compares (10 R214). -/
structure Reruns where
  first : Rerun
  second : Rerun
  deriving DecidableEq, Repr

/-- A register that only a section's supervisor accesses (07 R147). -/
inductive SupReg where
  | codeWin (core win : Nat)
  | ctxCmd (core : Nat)
  | ctxSave (core ctx : Nat)
  | coreSched (core : Nat)
  | clusterOwn (core : Nat)
  | sramSplit (core : Nat)
  | amPort (core e : Nat)
  | barWinCfg (core win : Nat)
  | trcCtl (core : Nat)
  | trcBase (core : Nat)
  | trcSize (core : Nat)
  | trcWptr (core : Nat)
  | trcRptr (core : Nat)
  | trcLost (core : Nat)
  /-- eight bytes of a slot of the section's trap queue (03 R45) -/
  | trapRecord (sec slot word : Nat)
  /-- eight bytes of a core's instruction store (03 R45) -/
  | istore (core word : Nat)
  | trapqTail (sec : Nat)
  | trapqHead (sec : Nat)
  | sectStatus (sec : Nat)
  /-- bit 0 INVAL_DONE -/
  | tlbInval (sec : Nat)
  deriving DecidableEq, Repr

/-- A device register without a row of its own (REGISTER_WRITE), named with its index. -/
inductive DevReg where
  | partCfg (p : Nat)
  | partQtable (p : Nat)
  | partCores (p : Nat) (dword : Nat)
  | frameOwnerBase
  | vfBind (vf : Nat)
  | batchWord0 (slot : Nat)
  | peerGrant (e : Nat)
  /-- a 64 B entry of QUEUE_CFG, given by its eight-byte word -/
  | queueCfg (queue : Nat) (dword : Nat)
  | hdmWindow (ld : Nat) (window : Nat) (part : Nat) (size : Nat)
  | qpBind (qp : Nat) (vf : Nat) (kind : Nat)
  | amPort (core : Nat) (e : Nat)
  | ctxSave (core : Nat) (ctx : Nat)
  | trcCtl (core : Nat)
  | trcBase (core : Nat)
  | trcRptr (core : Nat)
  | sectStatus (sec : Nat)
  /-- the BOOT_MODE word of management flash (02 R20) -/
  | bootMode
  /-- a memory request of the host complex, partition 0; the written value is not used (02 R21) -/
  | hostAccess (pa : Nat) (req : MemReq)
  /-- a supervisor's read of a register of its own; the written value is not used (00 R3, R5) -/
  | supervisorRead (r : SupReg)
  /-- a supervisor core's request for its own data, partition 0 (02 R21) -/
  | ownData (sec pa : Nat) (req : MemReq)
  /-- a work request posted on a queue pair (02 R42) -/
  | qpPost (qp : Nat)
  /-- a CXL host's access to its VF's PCIe memory BAR 0, which begins with the doorbell region (04 R72) -/
  | bar0 (vf off : Nat) (req : MemReq)
  /-- any offset of the I/O-die range that R413 does not list, or a read-only register -/
  | reserved (off : Nat)
  deriving DecidableEq, Repr

/-- A command of the supervisor firmware interface (03 R46): the kinds R46 lists. -/
inductive FwCommand where
  /-- load a code object on a core, into a window at a place of its store: the bytes are those of the object file, and a
  buffer of partition 0 takes the map of translated code for debuggers (03 R50; 19 R383) -/
  | loadCode (handle : Word) (part : Nat) (core : Nat) (win : Nat) (base : Nat) (bytes : List Byte) (map : Option Nat)
  | unloadCode (handle : Word)
  | createSpace (asid : Nat) (v : Dword)
  /-- write the entry of an address at a level of a space's tables (R60: tables are written by supervisors only) -/
  | mapPage (asid : Nat) (va : Nat) (level : Nat) (pte : Dword)
  | unmapPage (asid : Nat) (va : Nat) (level : Nat)
  /-- the page that a page request asked for stands in a staging frame of partition 0 (R67) -/
  | pageDataReady (asid : Nat) (va : Nat) (staging : Nat)
  /-- a VF's service ring: its base in partition 0 memory and its entries (R56) -/
  | configureRing (vf : Nat) (base : Nat) (entries : Nat)
  deriving DecidableEq, Repr

/-- The extended word of an instruction, by its layout (11 R228). -/
inductive Ext where
  | none
  | x (v : ExtX)
  | m (v : ExtM)
  | i (v : Word)
  deriving DecidableEq, Repr

/-- What an instruction is encoded as: MAJOR, the selector of a grouped major (0 elsewhere), FORM, the operand fields
and the extended word (11 R224, 13 R257, R260). -/
structure Info where
  major : BitVec 7
  sel : BitVec 6
  form : BitVec 2
  f : OpF
  ext : Ext
  deriving DecidableEq, Repr

/-- The SUB code of an instruction; 0x0 in the one-word forms (13 R261). -/
def Info.sub (i : Info) : Nat :=
  match i.ext with
  | .x v => v.sub.toNat
  | .m v => v.sub.toNat
  | _ => 0

/-- The bytes an op takes in its stream: its op word and, under form 10, its extended word (11 R220, R222). -/
def Info.len (i : Info) : Nat := if i.form = 2 then 8 else 4

/-- One step of the S9: an instruction of a compute context in one of its encoded forms, or an event of the
device. One constructor for each row of the table of operations and events. -/
inductive Instr where
  /-- POWER_CAP_WRITE (R9): A write to POWER_CAP sets the power cap in watts, clamped to the range 800 to 2,000. -/
  | powerCapWrite (v : Word)
  /-- POWER_OVER_CAP (R9): Measured power over the 1 ms window exceeds the cap, and the management controller lowers the core clock by one 100 MHz step, down to 600 MHz. -/
  | powerOverCap
  /-- POWER_BELOW_CAP (R9): Power has stayed 5 % below the cap for 10 ms, and the core clock is raised by one 100 MHz step. -/
  | powerBelowCap
  /-- THERMAL_95 (R10): The hottest sensor reaches 95 °C: the core clock is lowered and the event is logged. -/
  | thermal95
  /-- THERMAL_105 (R10): The hottest sensor reaches 105 °C: all contexts are pre-empted and saved, the core clock stops and the host complex halts. -/
  | thermal105
  /-- THERMAL_TRIP_110 (R10): The hottest sensor reaches 110 °C, and the hardware trip circuit removes module power. -/
  | thermalTrip110
  /-- THERMAL_RESUME (R10): Every sensor reads below 90 °C, and the controller resumes from the 105 °C state. -/
  | thermalResume
  /-- FIRMWARE_UPDATE (R12): An image is written to the inactive slot, verified and marked pending; a failure keeps the active slot and logs an event. -/
  | firmwareUpdate (kind : ImageKind) (version : Nat) (verified : ImageWrite)
  /-- RAISE_FUSED_MINIMUM (R12): An explicit command raises the fused minimum security version. -/
  | raiseFusedMinimum (kind : ImageKind) (version : Nat)
  /-- MANAGEMENT_RESET (R12): A management reset activates pending management firmware. -/
  | managementReset
  /-- DEVICE_RESET (R40): A device reset reads BOOT_MODE, activates pending images, and has the boot ROM verify and start the management image. -/
  | deviceReset
  /-- GET_VERSION (R13): The SPDM GET_VERSION message is answered. -/
  | getVersion
  /-- GET_CAPABILITIES (R13): The SPDM GET_CAPABILITIES message is answered. -/
  | getCapabilities
  /-- NEGOTIATE_ALGORITHMS (R13): The SPDM NEGOTIATE_ALGORITHMS message is answered, offering Falcon-1024 over SHAKE256. -/
  | negotiateAlgorithms
  /-- GET_DIGESTS (R13): The SPDM GET_DIGESTS message is answered. -/
  | getDigests
  /-- GET_CERTIFICATE (R13): The SPDM GET_CERTIFICATE message is answered. -/
  | getCertificate
  /-- CHALLENGE (R13): The SPDM CHALLENGE message is answered with a signed response. -/
  | challenge
  /-- GET_MEASUREMENTS (R13): The SPDM GET_MEASUREMENTS message returns the measurements of the images, the fuse state and the remap table. -/
  | getMeasurements
  /-- LOG_FLASH_COPY (R14): Every 60 s the event log is copied to boot flash. -/
  | logFlashCopy
  /-- LOG_OVERRUN_CLEAR (R14): Writing 1 to LOG_OVERRUN clears the bit. -/
  | logOverrunClear (v : Word)
  /-- HBM_STACK_READY (R40): An HBM stack finishes training, scrubbing and keying, and its FUNC_READY bit sets with a class 0x01 event. -/
  | hbmStackReady (stack : Nat)
  /-- SECTION_SELF_TEST_PASS (R40): A section passes self-test, its supervisor is loaded, and its SECT_READY bit sets. -/
  | sectionSelfTestPass (sec : Nat)
  /-- PORT_TRAINED (R40): An Ethernet or CXL port comes up, and its FUNC_READY bit sets. -/
  | portTrained (port : NetPort)
  /-- HOST_COMPLEX_RELEASE (R40): The host-complex image is verified and the host complex is released from reset. -/
  | hostComplexRelease (verified : Bool)
  /-- WYUND_PORT_TRAINED (R37): A Wyund port trains once SET = 1 and its peer answers; a peer reporting this device's own number leaves the port untrained and logs a refusal. -/
  | wyundPortTrained (port : Nat) (peer : BitVec 14)
  /-- WYUND_ID_WRITE (R37): A write while SET = 0 stores DEVICE and sets SET; a write while SET = 1 is ignored and logged. -/
  | wyundIdWrite (v : Dword)
  /-- DARN_VERDICT (R18): The darn pattern test finishes: a transient unit joins the spare pool, and a lasting one is mapped out. -/
  | darnVerdict (part : DarnUnit) (pass1 : Bool) (pass2 : Bool) (pass3 : Bool)
  /-- PART_KEY_GENERATE (R25): KEY_CMD 0b01 generates a partition key if none is held. -/
  | partKeyGenerate (p : Nat)
  /-- PART_KEY_ERASE (R25): KEY_CMD 0b10 erases the partition key, unless the partition owns a frame. -/
  | partKeyErase (p : Nat)
  /-- PARTITION_RESET (R26): Writing 1 to RESET starts a partition reset: VFs are reset, grants invalidated, frames zeroed and released, and the key regenerated. -/
  | partitionReset (p : Nat)
  /-- PARTITION_RESET_COMPLETE (R26): The steps of a partition reset complete, and RESET_BUSY clears. -/
  | partitionResetComplete (p : Nat)
  /-- VF_ENABLE (R27): Writing ENABLE := 1 in VF_BIND makes the VF live, or is refused and logged. -/
  | vfEnable (vf : Nat) (v : Dword)
  /-- VF_DISABLE (R27): Writing ENABLE := 0 starts a VF reset and then leaves the VF unbound. -/
  | vfDisable (vf : Nat)
  /-- FUNCTION_LEVEL_RESET (R41): A PCIe function-level reset of a VF starts a VF reset. -/
  | functionLevelReset (vf : Nat)
  /-- LD_LINK_DOWN (R30): An LD's link goes down or its host vanishes, and every VF of the LD is reset. -/
  | ldLinkDown (ld : Nat)
  /-- VF_RESET_COMPLETE (R42): Steps 4 to 6 complete, a class 0x0A event is logged and RESET_BUSY clears. -/
  | vfResetComplete (vf : Nat)
  /-- BATCH_SLOT_ACTIVATE (R43): Writing word 1 of a free batch slot makes it active. -/
  | batchSlotActivate (slot : Nat) (v : Dword)
  /-- BATCH_SLOT_FREE (R44): Zeroing ends, waiters on the next phase are released, and STATE becomes free. -/
  | batchSlotFree (slot : Nat)
  /-- CXL_MEM_ACCESS (R29): A host CXL.mem access through an HDM window is checked against FRAME_OWNER and performed at the home slice. -/
  | cxlMemAccess (ld : Nat) (window : Nat) (off : Nat) (req : MemReq)
  /-- INBOUND_PEER_REQUEST (R38): An inbound Wyund request is matched against PEER_GRANT, then checked and performed, or answered with a grant NAK. -/
  | inboundPeerRequest (dev : BitVec 14) (rpart : Nat) (pa : Nat) (req : MemReq)
  /-- FLIT_CRC_RETRY (R36): A flit that fails its CRC is retried by sequence number, without reordering or duplication. -/
  | flitCrcRetry (port : Nat)
  /-- WYUND_PORT_FAIL (R39): A port fails: its traffic moves to its group, or outstanding requests fail with cause 0x16 or an error status. -/
  | wyundPortFail (port : Nat)
  /-- RDMA_INBOUND (R32): An RDMA operation arriving on a memory QP acts on the owning partition's memory. -/
  | rdmaInbound (qp : Nat) (pa : Nat) (req : MemReq)
  /-- QUEUE_FEED_TAIL (R33): A queue-feed WRITE or SEND with immediate rings a doorbell after earlier writes have performed. -/
  | queueFeedTail (qp : Nat) (tail : Word)
  /-- ACTIVE_MESSAGE (R88): An active message is checked and its payload written to the zone, or it is refused or answered with an RNR NAK. -/
  | activeMessage (qp : Nat) (bytes : List Byte)
  /-- HANDLER_START (R88): A free dormant handler context starts at HANDLER with its registers set. -/
  | handlerStart (core : Nat)
  /-- DOORBELL (R73): A TAIL write is accepted into the cache or the queue table, setting PENDING, or dropped and counted. -/
  | doorbell (src : DoorbellSource) (queue : Nat) (tail : Word)
  /-- QC_SLICE_WRITE (R75): A write to QC_SLICE sets the slice length, a written 0 taken as 1. -/
  | qcSliceWrite (v : Word)
  /-- QC_SLICE_EXPIRY (R75): The residence slice expires, or nothing switched in is dispatchable, and the next pending partition is chosen. -/
  | qcSliceExpiry
  /-- QUEUE_REPLACE (R75): A cached queue idle for one slice is replaced by an uncached pending queue. -/
  | queueReplace (queue : Nat)
  /-- PACKET_DISPATCH (R78): The controller reads a queue's head packet and its tables and checks them. -/
  | packetDispatch (queue : Nat)
  /-- MARKER (R78): A marker packet starts and ends in one step, after all earlier packets when WAIT_PRIOR is set. -/
  | marker (grid : Nat)
  /-- TEAM_START (R90): A team, or a patch instance, starts once its predecessors and resources allow. -/
  | teamStart (grid : Nat)
  /-- TASK_START (R91): An initial task starts in map order and takes an age stamp. -/
  | taskStart (grid : Nat)
  /-- PENDING_TASK_START (R91): When resources free, the oldest fitting pending task starts on a core of its rectangle. -/
  | pendingTaskStart (core : Nat)
  /-- GRID_END (R83): A grid ends: the completion record is written, then the CBAR arrival, the interrupt and the PROGRESS advance follow. -/
  | gridEnd (grid : Nat)
  /-- CORE_SCHED_WRITE (R107): A write to CORE_SCHED changes the issue policy from the next cycle, and setting round-robin resets RR_PTR. -/
  | coreSchedWrite (core : Nat) (v : Dword)
  /-- FLOW_BOOST (R108): A flow ready for 256 cycles without issuing becomes boosted. -/
  | flowBoost (core : Nat) (ctx : Nat) (flow : Nat)
  /-- CLAIM_GRANT (R95): A pending cluster claim is granted once its block holds no other team and the blocks it needs are free. -/
  | claimGrant (core : Nat)
  /-- TASK_COMMIT (R122): With every flow at tend or exit, the task's write set commits atomically, its locks are released and its resources freed. -/
  | taskCommit (core : Nat) (ctx : Nat)
  /-- TASK_ABORT (R131): After in-flight accesses land, the task's logs, write set, locks and resources are discarded and it is re-queued whole or split. -/
  | taskAbort (core : Nat) (ctx : Nat)
  /-- BUDGET_EVENT (R129): At the next pre-emption point a budget event aborts and splits the task, or raises the smallest-grain fault. -/
  | budgetEvent (core : Nat) (ctx : Nat)
  /-- CYCLE_BUDGET_EXPIRY (R128): A task's cycle count reaches CYCLE_BUDGET. -/
  | cycleBudgetExpiry (core : Nat) (ctx : Nat)
  /-- INTERVAL_AGE_CLOSE (R159): A tack interval open for 65,536 resident cycles closes at the next boundary. -/
  | intervalAgeClose (core : Nat) (ctx : Nat)
  /-- PAGE_WALK (R65): A section TLB miss walks the page tables and installs or faults the translation, setting ACCESSED or DIRTY. -/
  | pageWalk (sec : Nat) (asid : Nat) (va : Nat) (write : Bool)
  /-- ENGINE_PART_LANDED (R355): The last byte of a part of an engine command's destination performs, and a counting step runs on its notify object. -/
  | enginePartLanded (core : Nat) (ctx : Nat) (queue : Nat)
  /-- ENGINE_FAULT (R357): An engine command faults during execution, its queue stops, and an engine-queue trap record is written. -/
  | engineFault (core : Nat) (ctx : Nat) (queue : Nat)
  /-- COLLECTIVE_END (R366): The collective finishes, and the engine writes STATUS after this member's bytes have landed. -/
  | collectiveEnd (core : Nat) (ctx : Nat)
  /-- LAUNCH_APPEND (R370): Once the ring has room, the packet is appended, TAIL advances and STATUS is written. -/
  | launchAppend (core : Nat) (ctx : Nat)
  /-- MATRIX_OP_COMPLETE (R340): The matrix engine completes an operation, its writes are done and the busy bits clear. -/
  | matrixOpComplete (core : Nat)
  /-- WINDOW_ARRIVAL (R334): An 8 B write to a barrier window runs a counting step, or is dropped, counted and logged. -/
  | windowArrival (core : Nat) (window : Nat) (part : Nat) (v : Dword)
  /-- UI_RAISE (R210): A write of n to a context's UI_RAISE doorbell sets UIPEND[n], with rel.sys for the writer. -/
  | uiRaise (core : Nat) (ctx : Nat) (part : Nat) (v : Word)
  /-- UI_DELIVERY (R210): At a permitted boundary the lowest pending unmasked source is delivered to UIVEC, or a cause 0x13 record is written. -/
  | uiDelivery (core : Nat) (ctx : Nat)
  /-- TLB_INVAL (R68): The supervisor invalidates translations for an ASID, an address and a size across the device. -/
  | tlbInval (sec : Nat) (asid : Nat) (va : Nat) (size : Nat)
  /-- INVAL_DONE (R68): Every TLB has dropped the entries, walks have finished and old accesses have performed, and INVAL_DONE sets. -/
  | invalDone (sec : Nat)
  /-- TRAPQ_HEAD_WRITE (R51): The supervisor advances TRAPQ_HEAD, freeing slots for contexts stalled at a trap. -/
  | trapqHeadWrite (sec : Nat) (v : Word)
  /-- REPLAY (R54): CTX_CMD 0x1 re-executes the faulting pass or bundle, or continues a context stopped between instructions. -/
  | replay (core : Nat) (ctx : Nat)
  /-- SKIP (R54): CTX_CMD 0x2 continues at the next instruction or bundle. -/
  | skip (core : Nat) (ctx : Nat)
  /-- PARK (R208): CTX_CMD 0x3 saves the context to its save area and frees its core resources. -/
  | park (core : Nat) (ctx : Nat)
  /-- RESTORE (R59): CTX_CMD 0x4 checks the save area and restores the context onto this core with acq.dev. -/
  | restore (core : Nat) (ctx : Nat)
  /-- DESTROY (R54): CTX_CMD 0x5 discards the context and frees its resources. -/
  | destroy (core : Nat) (ctx : Nat)
  /-- FAULT_GRID (R54): CTX_CMD 0x6 destroys every context of the grid and writes a fault completion. -/
  | faultGrid (core : Nat) (ctx : Nat)
  /-- REQUEUE (R132): CTX_CMD 0x7 aborts a task without a split and restarts it, or parks it if it is the oldest task. -/
  | requeue (core : Nat) (ctx : Nat)
  /-- STEP (R211): CTX_CMD 0x8 issues one stop group or bundle of the named flow. -/
  | step (core : Nat) (ctx : Nat) (flow : Nat)
  /-- SINGLE_STEP_COMPLETE (R211): The stepped flow completes its step, and a cause 0x01 record with DETAIL 0x2 is written. -/
  | singleStepComplete (core : Nat) (ctx : Nat) (flow : Nat)
  /-- STOP (R207): CTX_CMD 0x9 requests a halt at the context's next pre-emption point. -/
  | stop (core : Nat) (ctx : Nat)
  /-- STOP_REACHED (R207): The context reaches a pre-emption point and writes a cause 0x17 record. -/
  | stopReached (core : Nat) (ctx : Nat)
  /-- FLUSH (R135): CTX_CMD 0xA destroys an idem team and restarts it from the kernel entry, or parks it once the flag has cleared. -/
  | flush (core : Nat) (ctx : Nat)
  /-- CTX_CMD_INVALID (R207): CTX_CMD codes 0x0 and 0xB to 0xF set CMD_ERR. -/
  | ctxCmdInvalid (core : Nat) (v : Dword)
  /-- CODE_WIN_WRITE (R47): A write to CODE_WIN validates, invalidates or reconfigures a code window under its checks. -/
  | codeWinWrite (core : Nat) (idx : Nat) (v : Dword)
  /-- ISTORE_WRITE (R48): A supervisor store-port write to the instruction store; a write inside a valid window is dropped and sets ISTORE_ERR. -/
  | istoreWrite (core : Nat) (addr : Nat) (bytes : List Byte)
  /-- SRAM_SPLIT_WRITE (R139): An accepted SRAM_SPLIT write sets BUSY, writes back and invalidates the L1, and zeroes the moving banks; otherwise CMD_ERR is set. -/
  | sramSplitWrite (core : Nat) (v : Dword)
  /-- SRAM_SPLIT_DONE (R139): The division change completes and BUSY clears. -/
  | sramSplitDone (core : Nat)
  /-- BAR_WIN_CFG_WRITE (R334): A write of BAR_WIN_CFG configures a barrier window; writing VALID := 1 clears DROPPED. -/
  | barWinCfgWrite (core : Nat) (window : Nat) (v : Dword)
  /-- TRC_SIZE_WRITE (R217): A write to TRC_SIZE sets the trace buffer size, clamped to the range 12 to 30. -/
  | trcSizeWrite (core : Nat) (v : Word)
  /-- UNCORRECTABLE_ERROR (R213): An uncorrectable error is detected in protected core state. -/
  | uncorrectableError (core : Nat) (ctx : Nat) (loc : ErrLocation)
  /-- RERUN_VERDICT (R214): The two reruns finish and are compared: the interval closes normally, or retirement follows. -/
  | rerunVerdict (core : Nat) (ctx : Nat) (agree : Reruns)
  /-- CORRECTED_ERROR (R213): A corrected error logs a class 0x02 event. -/
  | correctedError (source : BitVec 16) (code : Word)
  /-- REGISTER_WRITE (R3): A write to a device register that has no row of its own. -/
  | registerWrite (reg : DevReg) (v : Dword)
  /-- NOP (R259): Does nothing. -/
  | nop (f : OpF)
  /-- SADD (R267): Scalar add, register form. -/
  | sadd (f : OpF)
  /-- SADD_IMM (R267): Scalar add of imm6. -/
  | saddImm (f : OpF)
  /-- SADD_EXT (R267): Scalar add, extended form. -/
  | saddExt (f : OpF) (x : ExtX)
  /-- SSUB (R267): Scalar subtract, register form. -/
  | ssub (f : OpF)
  /-- SSUB_IMM (R267): Scalar subtract of imm6. -/
  | ssubImm (f : OpF)
  /-- SSUB_EXT (R267): Scalar subtract, extended form. -/
  | ssubExt (f : OpF) (x : ExtX)
  /-- SMUL (R267): Scalar multiply, register form. -/
  | smul (f : OpF)
  /-- SMUL_IMM (R267): Scalar multiply by imm6. -/
  | smulImm (f : OpF)
  /-- SMUL_EXT (R268): Scalar product, .div or .rem; a zero divisor traps with cause 0x12. -/
  | smulExt (f : OpF) (x : ExtX)
  /-- SMULH (R267): Scalar high-half multiply. -/
  | smulh (f : OpF)
  /-- SMULH_EXT (R267): Scalar high-half multiply, extended form. -/
  | smulhExt (f : OpF) (x : ExtX)
  /-- SAND (R267): Scalar bitwise and. -/
  | sand (f : OpF)
  /-- SAND_IMM (R267): Scalar bitwise and with imm6. -/
  | sandImm (f : OpF)
  /-- SAND_EXT (R267): Scalar and, extended form. -/
  | sandExt (f : OpF) (x : ExtX)
  /-- SOR (R267): Scalar bitwise or. -/
  | sor (f : OpF)
  /-- SOR_IMM (R267): Scalar bitwise or with imm6. -/
  | sorImm (f : OpF)
  /-- SOR_EXT (R267): Scalar or, extended form. -/
  | sorExt (f : OpF) (x : ExtX)
  /-- SXOR (R267): Scalar bitwise xor. -/
  | sxor (f : OpF)
  /-- SXOR_IMM (R267): Scalar bitwise xor with imm6. -/
  | sxorImm (f : OpF)
  /-- SXOR_EXT (R267): Scalar xor, extended form. -/
  | sxorExt (f : OpF) (x : ExtX)
  /-- SSHL (R269): Scalar shift left. -/
  | sshl (f : OpF)
  /-- SSHL_IMM (R269): Scalar shift left by imm6. -/
  | sshlImm (f : OpF)
  /-- SSHL_EXT (R269): Scalar shift left, extended form. -/
  | sshlExt (f : OpF) (x : ExtX)
  /-- SSHR (R269): Scalar logical shift right. -/
  | sshr (f : OpF)
  /-- SSHR_IMM (R269): Scalar logical shift right by imm6. -/
  | sshrImm (f : OpF)
  /-- SSHR_EXT (R269): Scalar logical shift right, extended form. -/
  | sshrExt (f : OpF) (x : ExtX)
  /-- SSRA (R269): Scalar arithmetic shift right. -/
  | ssra (f : OpF)
  /-- SSRA_IMM (R269): Scalar arithmetic shift right by imm6. -/
  | ssraImm (f : OpF)
  /-- SSRA_EXT (R269): Scalar arithmetic shift right, extended form. -/
  | ssraExt (f : OpF) (x : ExtX)
  /-- SMIN (R267): Scalar minimum. -/
  | smin (f : OpF)
  /-- SMIN_IMM (R267): Scalar minimum with imm6. -/
  | sminImm (f : OpF)
  /-- SMIN_EXT (R267): Scalar minimum, extended form. -/
  | sminExt (f : OpF) (x : ExtX)
  /-- SMAX (R267): Scalar maximum. -/
  | smax (f : OpF)
  /-- SMAX_IMM (R267): Scalar maximum with imm6. -/
  | smaxImm (f : OpF)
  /-- SMAX_EXT (R267): Scalar maximum, extended form. -/
  | smaxExt (f : OpF) (x : ExtX)
  /-- SCMP (R267): Scalar compare for equality, writing 0 or 1. -/
  | scmp (f : OpF)
  /-- SCMP_IMM (R267): Scalar compare for equality with imm6. -/
  | scmpImm (f : OpF)
  /-- SCMP_EXT (R267): Scalar compare with the condition given by SUB. -/
  | scmpExt (f : OpF) (x : ExtX)
  /-- SSEL (R270): Scalar select on the old d. -/
  | ssel (f : OpF)
  /-- SSEL_EXT (R270): Scalar select on s[C]. -/
  | sselExt (f : OpF) (x : ExtX)
  /-- SMOV (R270): Scalar move. -/
  | smov (f : OpF)
  /-- SMOV_EXT (R270): Scalar 32-bit or pair move. -/
  | smovExt (f : OpF) (x : ExtX)
  /-- SLI (R271): Load a 32-bit immediate into a scalar register. -/
  | sli (f : OpF) (imm : Word)
  /-- SLIH (R271): Load a 32-bit immediate into s[D+1]. -/
  | slih (f : OpF) (imm : Word)
  /-- SADDA (R271): 64-bit address add of a pair. -/
  | sadda (f : OpF)
  /-- SADDA_IMM (R271): 64-bit address add of a sign-extended imm6. -/
  | saddaImm (f : OpF)
  /-- SADDA_EXT (R271): 64-bit address add of an extended 32-bit or 64-bit offset. -/
  | saddaExt (f : OpF) (x : ExtX)
  /-- SGETS (R272): Read a special register. -/
  | sgets (f : OpF)
  /-- SSETS (R272): Write a special register. -/
  | ssets (f : OpF)
  /-- BRA (R273): Direct branch; divergent in SIMT, with delay bundles in VLIW. -/
  | bra (f : OpF) (imm : Word)
  /-- BRX (R275): Indirect jump checked against lpad.j. -/
  | brx (f : OpF)
  /-- CALL (R277): Direct call pushing the return address. -/
  | call (f : OpF) (imm : Word)
  /-- CALLX (R277): Indirect call, serving SIMT targets one at a time. -/
  | callx (f : OpF)
  /-- RET (R277): Return from the return-address stack or the fragment's overlay. -/
  | ret (f : OpF)
  /-- LPAD_C (R276): Landing pad for calls and handlers. -/
  | lpadC (f : OpF)
  /-- LPAD_J (R276): Landing pad for indirect jumps. -/
  | lpadJ (f : OpF)
  /-- SEAM (R101): Reconvergence point: the flow arrives and waits, and the parts merge. -/
  | seam (f : OpF)
  /-- LOOP (R280): Push a hardware loop entry. -/
  | loop (f : OpF) (imm : Word)
  /-- LEXIT (R281): Leave the innermost loop after two delay bundles. -/
  | lexit (f : OpF)
  /-- COLLAPSE (R283): Claim two clusters and switch the team to a VLIW thread. -/
  | collapse (f : OpF)
  /-- COLLAPSE_N (R283): Claim 2^imm6 clusters and switch to VLIW. -/
  | collapseN (f : OpF)
  /-- EXPAND (R284): Return the clusters and switch the thread back to SIMT. -/
  | expand (f : OpF)
  /-- YIELD (R109): Set the yield flag. -/
  | yield (f : OpF)
  /-- EXIT (R286): End the guarded lanes or the thread after closing the interval. -/
  | exit (f : OpF)
  /-- TACK (R286): Close the checkpoint interval and open the next. -/
  | tack (f : OpF)
  /-- PTLOAD (R287): Load pattern-table entries from scratchpad. -/
  | ptload (f : OpF)
  /-- PATTERN_REFERENCE (R193): A 16-bit parcel that issues a pattern entry as a bundle. -/
  | patternReference (i : BitVec 9)
  /-- ADD (R292): Lane add. -/
  | add (f : OpF)
  /-- ADD_IMM (R292): Lane add of imm6. -/
  | addImm (f : OpF)
  /-- ADD_EXT (R292): Lane add, extended form. -/
  | addExt (f : OpF) (x : ExtX)
  /-- ADD_PORT (R292): Lane add with port operands. -/
  | addPort (f : OpF)
  /-- SUB (R292): Lane subtract. -/
  | sub (f : OpF)
  /-- SUB_IMM (R292): Lane subtract of imm6. -/
  | subImm (f : OpF)
  /-- SUB_EXT (R292): Lane subtract, extended form. -/
  | subExt (f : OpF) (x : ExtX)
  /-- SUB_PORT (R292): Lane subtract with port operands. -/
  | subPort (f : OpF)
  /-- MUL (R292): Lane multiply. -/
  | mul (f : OpF)
  /-- MUL_IMM (R292): Lane multiply by imm6. -/
  | mulImm (f : OpF)
  /-- MUL_EXT (R293): Lane product, .div or .rem; a zero divisor traps with cause 0x12. -/
  | mulExt (f : OpF) (x : ExtX)
  /-- MUL_PORT (R292): Lane multiply with port operands. -/
  | mulPort (f : OpF)
  /-- MULH (R292): Lane high-half multiply. -/
  | mulh (f : OpF)
  /-- MULH_EXT (R292): Lane high-half multiply, extended form. -/
  | mulhExt (f : OpF) (x : ExtX)
  /-- MULH_PORT (R292): Lane high-half multiply with port operands. -/
  | mulhPort (f : OpF)
  /-- MAD (R292): Lane multiply-add with the old d as addend. -/
  | mad (f : OpF)
  /-- MAD_EXT (R292): Lane multiply-add with addend v[C]. -/
  | madExt (f : OpF) (x : ExtX)
  /-- MAD_PORT (R292): Lane multiply-add with port operands. -/
  | madPort (f : OpF)
  /-- AND (R294): Lane bitwise and. -/
  | and (f : OpF)
  /-- AND_IMM (R294): Lane bitwise and with imm6. -/
  | andImm (f : OpF)
  /-- AND_EXT (R294): Lane and, extended form. -/
  | andExt (f : OpF) (x : ExtX)
  /-- AND_PORT (R294): Lane and with port operands. -/
  | andPort (f : OpF)
  /-- OR (R294): Lane bitwise or. -/
  | or (f : OpF)
  /-- OR_IMM (R294): Lane bitwise or with imm6. -/
  | orImm (f : OpF)
  /-- OR_EXT (R294): Lane or, extended form. -/
  | orExt (f : OpF) (x : ExtX)
  /-- OR_PORT (R294): Lane or with port operands. -/
  | orPort (f : OpF)
  /-- XOR (R294): Lane bitwise xor. -/
  | xor (f : OpF)
  /-- XOR_IMM (R294): Lane bitwise xor with imm6. -/
  | xorImm (f : OpF)
  /-- XOR_EXT (R294): Lane xor, extended form. -/
  | xorExt (f : OpF) (x : ExtX)
  /-- XOR_PORT (R294): Lane xor with port operands. -/
  | xorPort (f : OpF)
  /-- NOT (R294): Lane bitwise complement. -/
  | not (f : OpF)
  /-- NOT_EXT (R294): Lane not, extended form. -/
  | notExt (f : OpF) (x : ExtX)
  /-- NOT_PORT (R294): Lane not of a port. -/
  | notPort (f : OpF)
  /-- ABS (R294): Lane absolute value. -/
  | abs (f : OpF)
  /-- ABS_EXT (R294): Lane abs, extended form. -/
  | absExt (f : OpF) (x : ExtX)
  /-- ABS_PORT (R294): Lane abs of a port. -/
  | absPort (f : OpF)
  /-- NEG (R294): Lane negate. -/
  | neg (f : OpF)
  /-- NEG_EXT (R294): Lane negate, extended form. -/
  | negExt (f : OpF) (x : ExtX)
  /-- NEG_PORT (R294): Lane negate of a port. -/
  | negPort (f : OpF)
  /-- CLZ (R294): Lane count of leading zeros. -/
  | clz (f : OpF)
  /-- CLZ_EXT (R294): Lane clz, extended form. -/
  | clzExt (f : OpF) (x : ExtX)
  /-- CLZ_PORT (R294): Lane clz of a port. -/
  | clzPort (f : OpF)
  /-- POPC (R294): Lane population count. -/
  | popc (f : OpF)
  /-- POPC_EXT (R294): Lane popc, extended form. -/
  | popcExt (f : OpF) (x : ExtX)
  /-- POPC_PORT (R294): Lane popc of a port. -/
  | popcPort (f : OpF)
  /-- BREV (R294): Lane bit reverse. -/
  | brev (f : OpF)
  /-- BREV_EXT (R294): Lane brev, extended form. -/
  | brevExt (f : OpF) (x : ExtX)
  /-- BREV_PORT (R294): Lane brev of a port. -/
  | brevPort (f : OpF)
  /-- FADD (R299): Lane float add. -/
  | fadd (f : OpF)
  /-- FADD_EXT (R299): Lane float add, extended form. -/
  | faddExt (f : OpF) (x : ExtX)
  /-- FADD_PORT (R299): Lane float add with port operands. -/
  | faddPort (f : OpF)
  /-- FSUB (R299): Lane float subtract. -/
  | fsub (f : OpF)
  /-- FSUB_EXT (R299): Lane float subtract, extended form. -/
  | fsubExt (f : OpF) (x : ExtX)
  /-- FSUB_PORT (R299): Lane float subtract with port operands. -/
  | fsubPort (f : OpF)
  /-- FMUL (R299): Lane float multiply. -/
  | fmul (f : OpF)
  /-- FMUL_EXT (R299): Lane float multiply, extended form. -/
  | fmulExt (f : OpF) (x : ExtX)
  /-- FMUL_PORT (R299): Lane float multiply with port operands. -/
  | fmulPort (f : OpF)
  /-- FMA (R299): Lane fused multiply-add with the old d as addend. -/
  | fma (f : OpF)
  /-- FMA_EXT (R299): Lane fused multiply-add with addend v[C]. -/
  | fmaExt (f : OpF) (x : ExtX)
  /-- FMA_PORT (R299): Lane fused multiply-add with port operands. -/
  | fmaPort (f : OpF)
  /-- FMIN (R300): Lane float minimum. -/
  | fmin (f : OpF)
  /-- FMIN_EXT (R300): Lane float minimum, extended form. -/
  | fminExt (f : OpF) (x : ExtX)
  /-- FMIN_PORT (R300): Lane float minimum with port operands. -/
  | fminPort (f : OpF)
  /-- FMAX (R300): Lane float maximum. -/
  | fmax (f : OpF)
  /-- FMAX_EXT (R300): Lane float maximum, extended form. -/
  | fmaxExt (f : OpF) (x : ExtX)
  /-- FMAX_PORT (R300): Lane float maximum with port operands. -/
  | fmaxPort (f : OpF)
  /-- FCMP (R300): Lane float compare for equality, writing a predicate. -/
  | fcmp (f : OpF)
  /-- FCMP_EXT (R300): Lane float compare with the condition given by SUB. -/
  | fcmpExt (f : OpF) (x : ExtX)
  /-- FCMP_PORT (R300): Lane float compare with port operands. -/
  | fcmpPort (f : OpF)
  /-- CVT (R302): Convert a lane value from TYPE2 to TYPE. -/
  | cvt (f : OpF) (x : ExtX)
  /-- FRND (R301): Round a lane value to an integral float. -/
  | frnd (f : OpF)
  /-- FRND_EXT (R301): Lane frnd with a chosen rounding. -/
  | frndExt (f : OpF) (x : ExtX)
  /-- FRND_PORT (R301): Lane frnd of a port. -/
  | frndPort (f : OpF)
  /-- RCP (R303): Lane exactly rounded reciprocal. -/
  | rcp (f : OpF)
  /-- RCP_EXT (R303): Lane rcp, extended form. -/
  | rcpExt (f : OpF) (x : ExtX)
  /-- RCP_PORT (R303): Lane rcp of a port. -/
  | rcpPort (f : OpF)
  /-- RSQ (R303): Lane reciprocal square root. -/
  | rsq (f : OpF)
  /-- RSQ_EXT (R303): Lane rsq, extended form. -/
  | rsqExt (f : OpF) (x : ExtX)
  /-- RSQ_PORT (R303): Lane rsq of a port. -/
  | rsqPort (f : OpF)
  /-- SQRT (R303): Lane square root. -/
  | sqrt (f : OpF)
  /-- SQRT_EXT (R303): Lane sqrt, extended form. -/
  | sqrtExt (f : OpF) (x : ExtX)
  /-- SQRT_PORT (R303): Lane sqrt of a port. -/
  | sqrtPort (f : OpF)
  /-- EXP2 (R303): Lane base-2 exponential. -/
  | exp2 (f : OpF)
  /-- EXP2_EXT (R303): Lane exp2, extended form. -/
  | exp2Ext (f : OpF) (x : ExtX)
  /-- EXP2_PORT (R303): Lane exp2 of a port. -/
  | exp2Port (f : OpF)
  /-- LOG2 (R303): Lane base-2 logarithm. -/
  | log2 (f : OpF)
  /-- LOG2_EXT (R303): Lane log2, extended form. -/
  | log2Ext (f : OpF) (x : ExtX)
  /-- LOG2_PORT (R303): Lane log2 of a port. -/
  | log2Port (f : OpF)
  /-- SIN (R303): Lane sine. -/
  | sin (f : OpF)
  /-- SIN_EXT (R303): Lane sin, extended form. -/
  | sinExt (f : OpF) (x : ExtX)
  /-- SIN_PORT (R303): Lane sin of a port. -/
  | sinPort (f : OpF)
  /-- COS (R303): Lane cosine. -/
  | cos (f : OpF)
  /-- COS_EXT (R303): Lane cos, extended form. -/
  | cosExt (f : OpF) (x : ExtX)
  /-- COS_PORT (R303): Lane cos of a port. -/
  | cosPort (f : OpF)
  /-- TANH (R303): Lane hyperbolic tangent. -/
  | tanh (f : OpF)
  /-- TANH_EXT (R303): Lane tanh, extended form. -/
  | tanhExt (f : OpF) (x : ExtX)
  /-- TANH_PORT (R303): Lane tanh of a port. -/
  | tanhPort (f : OpF)
  /-- SHL (R295): Lane shift left. -/
  | shl (f : OpF)
  /-- SHL_IMM (R295): Lane shift left by imm6. -/
  | shlImm (f : OpF)
  /-- SHL_EXT (R295): Lane shift left, extended form. -/
  | shlExt (f : OpF) (x : ExtX)
  /-- SHL_PORT (R295): Lane shift left with port operands. -/
  | shlPort (f : OpF)
  /-- SHR (R295): Lane logical shift right. -/
  | shr (f : OpF)
  /-- SHR_IMM (R295): Lane logical shift right by imm6. -/
  | shrImm (f : OpF)
  /-- SHR_EXT (R295): Lane logical shift right, extended form. -/
  | shrExt (f : OpF) (x : ExtX)
  /-- SHR_PORT (R295): Lane logical shift right with port operands. -/
  | shrPort (f : OpF)
  /-- SRA (R295): Lane arithmetic shift right. -/
  | sra (f : OpF)
  /-- SRA_IMM (R295): Lane arithmetic shift right by imm6. -/
  | sraImm (f : OpF)
  /-- SRA_EXT (R295): Lane arithmetic shift right, extended form. -/
  | sraExt (f : OpF) (x : ExtX)
  /-- SRA_PORT (R295): Lane arithmetic shift right with port operands. -/
  | sraPort (f : OpF)
  /-- ROT (R295): Lane rotate left. -/
  | rot (f : OpF)
  /-- ROT_IMM (R295): Lane rotate left by imm6. -/
  | rotImm (f : OpF)
  /-- ROT_EXT (R295): Lane rotate, extended form. -/
  | rotExt (f : OpF) (x : ExtX)
  /-- ROT_PORT (R295): Lane rotate with port operands. -/
  | rotPort (f : OpF)
  /-- MIN (R297): Lane integer minimum. -/
  | min (f : OpF)
  /-- MIN_IMM (R297): Lane minimum with imm6. -/
  | minImm (f : OpF)
  /-- MIN_EXT (R297): Lane minimum, extended form. -/
  | minExt (f : OpF) (x : ExtX)
  /-- MIN_PORT (R297): Lane minimum with port operands. -/
  | minPort (f : OpF)
  /-- MAX (R297): Lane integer maximum. -/
  | max (f : OpF)
  /-- MAX_IMM (R297): Lane maximum with imm6. -/
  | maxImm (f : OpF)
  /-- MAX_EXT (R297): Lane maximum, extended form. -/
  | maxExt (f : OpF) (x : ExtX)
  /-- MAX_PORT (R297): Lane maximum with port operands. -/
  | maxPort (f : OpF)
  /-- BFE (R296): Lane bit-field extract. -/
  | bfe (f : OpF)
  /-- BFE_EXT (R296): Lane bfe, extended form. -/
  | bfeExt (f : OpF) (x : ExtX)
  /-- BFE_PORT (R296): Lane bfe with port operands. -/
  | bfePort (f : OpF)
  /-- BFI (R296): Lane bit-field insert into the old d. -/
  | bfi (f : OpF)
  /-- BFI_EXT (R296): Lane bit-field insert into v[C]. -/
  | bfiExt (f : OpF) (x : ExtX)
  /-- BFI_PORT (R296): Lane bfi with port operands. -/
  | bfiPort (f : OpF)
  /-- CMP (R297): Lane integer compare for equality, writing a predicate. -/
  | cmp (f : OpF)
  /-- CMP_IMM (R297): Lane compare for equality with imm6. -/
  | cmpImm (f : OpF)
  /-- CMP_EXT (R297): Lane compare with the condition given by SUB. -/
  | cmpExt (f : OpF) (x : ExtX)
  /-- CMP_PORT (R297): Lane compare with port operands. -/
  | cmpPort (f : OpF)
  /-- SEL (R298): Lane select on the old d. -/
  | sel (f : OpF)
  /-- SEL_EXT (R298): Lane select on predicate p[C]. -/
  | selExt (f : OpF) (x : ExtX)
  /-- SEL_PORT (R298): Lane select with port operands. -/
  | selPort (f : OpF)
  /-- MOV (R298): Lane move. -/
  | mov (f : OpF)
  /-- MOV_EXT (R298): Lane move, extended form. -/
  | movExt (f : OpF) (x : ExtX)
  /-- MOV_PORT (R298): Copy a port into a lane register. -/
  | movPort (f : OpF)
  /-- MOVI (R298): Load a 32-bit immediate into a lane register. -/
  | movi (f : OpF) (imm : Word)
  /-- DP4 (R292): Lane four-byte dot product accumulated into the old d. -/
  | dp4 (f : OpF)
  /-- DP4_EXT (R292): Lane dot product accumulated into v[C]. -/
  | dp4Ext (f : OpF) (x : ExtX)
  /-- DP4_PORT (R292): Lane dot product with port operands. -/
  | dp4Port (f : OpF)
  /-- PERM (R305): Team-wide gather, with the old d as fill. -/
  | perm (f : OpF)
  /-- PERM_EXT (R305): Team-wide gather, with v[C] as fill. -/
  | permExt (f : OpF) (x : ExtX)
  /-- PERM_PORT (R305): Gather with port operands. -/
  | permPort (f : OpF)
  /-- SHFL (R306): Span shuffle by index. -/
  | shfl (f : OpF)
  /-- SHFL_IMM (R306): Span shuffle by an imm6 index. -/
  | shflImm (f : OpF)
  /-- SHFL_EXT (R306): Span shuffle: .idx, .up, .down or .xor. -/
  | shflExt (f : OpF) (x : ExtX)
  /-- SHFL_PORT (R306): Span shuffle with port operands. -/
  | shflPort (f : OpF)
  /-- VOTE (R308): Ballot of a predicate across the span. -/
  | vote (f : OpF)
  /-- VOTE_EXT (R308): Vote: .ballot, .any, .all or .uni. -/
  | voteExt (f : OpF) (x : ExtX)
  /-- VOTE_PORT (R308): Ballot of a register or port being non-zero. -/
  | votePort (f : OpF)
  /-- SCAN (R309): Inclusive scan add over the span. -/
  | scan (f : OpF)
  /-- SCAN_EXT (R309): Inclusive scan with the operation given by SUB. -/
  | scanExt (f : OpF) (x : ExtX)
  /-- SCAN_PORT (R309): Scan of a port. -/
  | scanPort (f : OpF)
  /-- RED (R309): Reduction add over the span. -/
  | red (f : OpF)
  /-- RED_EXT (R309): Reduction with the operation given by SUB. -/
  | redExt (f : OpF) (x : ExtX)
  /-- RED_PORT (R309): Reduction of a port. -/
  | redPort (f : OpF)
  /-- BCAST (R307): Broadcast one lane's value across the span. -/
  | bcast (f : OpF)
  /-- BCAST_IMM (R307): Broadcast from an imm6 lane. -/
  | bcastImm (f : OpF)
  /-- BCAST_EXT (R307): Broadcast with v[C] as fill. -/
  | bcastExt (f : OpF) (x : ExtX)
  /-- BCAST_PORT (R307): Broadcast with port operands. -/
  | bcastPort (f : OpF)
  /-- SAMPLE (R310): Draw a span lane in proportion to its weight. -/
  | sample (f : OpF)
  /-- SAMPLE_EXT (R310): Weighted draw, with carry-in and total under .cin. -/
  | sampleExt (f : OpF) (x : ExtX)
  /-- XMOV (R312): Copy a register between clusters or half-groups. -/
  | xmov (f : OpF)
  /-- LD (R317): Per-lane load of b32 from the .g space. -/
  | ld (f : OpF)
  /-- LD_EXT (R317): Per-lane load of any space and width, with an offset. -/
  | ldExt (f : OpF) (m : ExtM)
  /-- ST (R318): Per-lane store of b32 to the .g space. -/
  | st (f : OpF)
  /-- ST_EXT (R318): Per-lane store of any space and width, with an offset. -/
  | stExt (f : OpF) (m : ExtM)
  /-- ATOM (R320): Per-lane atomic add, returning the old value. -/
  | atom (f : OpF)
  /-- ATOM_EXT (R320): Per-lane atomic with the operation, space and scope given in the extended word. -/
  | atomExt (f : OpF) (m : ExtM)
  /-- REDM (R322): Per-lane reduction to memory, add. -/
  | redm (f : OpF)
  /-- REDM_EXT (R322): Per-lane reduction to memory, with the operation given in the extended word. -/
  | redmExt (f : OpF) (m : ExtM)
  /-- PEXPORT (R325): Export a private offset as a global address. -/
  | pexport (f : OpF)
  /-- BINIT (R329): Initialise a barrier object. -/
  | binit (f : OpF)
  /-- BINIT_EXT (R329): Initialise a barrier object at an offset. -/
  | binitExt (f : OpF) (m : ExtM)
  /-- BARR (R330): Arrive on a barrier object with a release. -/
  | barr (f : OpF)
  /-- BARR_EXT (R330): Arrive with the space, scope, .mx and offset given in the extended word. -/
  | barrExt (f : OpF) (m : ExtM)
  /-- BARRX (R330): Raise expected bytes, then arrive. -/
  | barrx (f : OpF)
  /-- BARRX_EXT (R330): barrx, extended form. -/
  | barrxExt (f : OpF) (m : ExtM)
  /-- BWAIT (R331): Wait for a barrier phase to complete, with an acquire. -/
  | bwait (f : OpF)
  /-- BWAIT_EXT (R331): Wait for a phase, with a deadline under .dl. -/
  | bwaitExt (f : OpF) (m : ExtM)
  /-- BWAIT_DONE (R331): A waited phase completes, or the deadline passes, and bwait returns. -/
  | bwaitDone (core : Nat) (ctx : Nat) (flow : Nat)
  /-- BTEST (R332): Test whether a phase is complete. -/
  | btest (f : OpF)
  /-- FENCE (R165): Release followed by acquire, with a full wait. -/
  | fence (f : OpF)
  /-- FENCE_EXT (R165): Fence at a chosen scope. -/
  | fenceExt (f : OpF) (m : ExtM)
  /-- ACQ (R164): Acquire. -/
  | acq (f : OpF)
  /-- ACQ_EXT (R164): Acquire at a chosen scope. -/
  | acqExt (f : OpF) (m : ExtM)
  /-- REL (R163): Release. -/
  | rel (f : OpF)
  /-- REL_EXT (R163): Release at a chosen scope. -/
  | relExt (f : OpF) (m : ExtM)
  /-- DRAIN (R165): Close the interval and wait until every access has performed. -/
  | drain (f : OpF)
  /-- DRAIN_EXT (R165): drain, extended form. -/
  | drainExt (f : OpF) (m : ExtM)
  /-- PFENCE (R177): Hold the flow until its .s stores are on the matrix path. -/
  | pfence (f : OpF)
  /-- PFENCE_EXT (R177): pfence, extended form. -/
  | pfenceExt (f : OpF) (m : ExtM)
  /-- TBAR (R335): Team barrier. -/
  | tbar (f : OpF)
  /-- TBAR_EXT (R335): Team barrier with a scope and .mx. -/
  | tbarExt (f : OpF) (m : ExtM)
  /-- PBAR (R335): Patch barrier. -/
  | pbar (f : OpF)
  /-- PBAR_EXT (R335): Patch barrier with a scope and .mx. -/
  | pbarExt (f : OpF) (m : ExtM)
  /-- BARRIER_COMPLETE (R335): Every live lane has arrived, and the stopped flows continue with acquire. -/
  | barrierComplete (core : Nat) (ctx : Nat) (patch : Bool)
  /-- MMA (R345): Float matrix multiply-accumulate, bf16 by bf16. -/
  | mma (f : OpF)
  /-- MMA_EXT (R345): Float MMA with chosen f16 or bf16 formats. -/
  | mmaExt (f : OpF) (x : ExtX)
  /-- MMAQ (R346): Quantised matrix multiply with group scales. -/
  | mmaq (f : OpF) (x : ExtX)
  /-- MZERO (R348): Zero a tile. -/
  | mzero (f : OpF)
  /-- MLD (R348): Load a tile from element-form scratchpad. -/
  | mld (f : OpF)
  /-- MLD_EXT (R348): Load a tile, with an offset. -/
  | mldExt (f : OpF) (m : ExtM)
  /-- MST (R348): Store a tile to element-form scratchpad. -/
  | mst (f : OpF)
  /-- MST_EXT (R348): Store a tile, with an offset. -/
  | mstExt (f : OpF) (m : ExtM)
  /-- MPLANE (R350): Convert an element-form operand to plane form, bf16. -/
  | mplane (f : OpF)
  /-- MPLANE_EXT (R350): Convert to plane form, with a chosen type. -/
  | mplaneExt (f : OpF) (x : ExtX)
  /-- MUNPLANE (R350): Convert a plane-form operand to element form. -/
  | munplane (f : OpF)
  /-- MUNPLANE_EXT (R350): Convert to element form, with a chosen type. -/
  | munplaneExt (f : OpF) (x : ExtX)
  /-- MTR (R349): Transpose a tile. -/
  | mtr (f : OpF)
  /-- MADD (R349): Add two tiles element by element. -/
  | madd (f : OpF)
  /-- MADD_EXT (R349): Tile add with a chosen rounding and saturation. -/
  | maddExt (f : OpF) (x : ExtX)
  /-- MSCALE (R349): Scale a tile by a scalar. -/
  | mscale (f : OpF)
  /-- MSCALE_EXT (R349): Tile scale with a chosen rounding and saturation. -/
  | mscaleExt (f : OpF) (x : ExtX)
  /-- SCL (R344): Load a scale-register quarter from scratchpad. -/
  | scl (f : OpF)
  /-- SCL_EXT (R344): Load a scale quarter with a chosen width and offset. -/
  | sclExt (f : OpF) (m : ExtM)
  /-- MBATCH (R351): Close a batch and return its number. -/
  | mbatch (f : OpF)
  /-- MWAIT (R352): Wait for batches up to s[A] to complete. -/
  | mwait (f : OpF)
  /-- MWAIT_IMM (R352): Wait until at most k closed batches are incomplete. -/
  | mwaitImm (f : OpF)
  /-- CPY (R360): Tensor copy from a descriptor in queue 0. -/
  | cpy (f : OpF)
  /-- CPY_PLANE (R361): Tensor copy converting tiles to plane form. -/
  | cpyPlane (f : OpF) (x : ExtX)
  /-- CPYL (R362): Linear copy in queue 0. -/
  | cpyl (f : OpF)
  /-- GAT (R363): Gather table rows into scratchpad in queue 1. -/
  | gat (f : OpF)
  /-- GAT_PLANE (R363): Gather rows into plane form. -/
  | gatPlane (f : OpF) (x : ExtX)
  /-- SCT (R363): Scatter scratchpad rows to a table. -/
  | sct (f : OpF)
  /-- GPL (R364): Grammar gather of vocabulary rows and their scales into a B operand. -/
  | gpl (f : OpF)
  /-- COLL (R365): Start a collective in queue 2. -/
  | coll (f : OpF) (x : ExtX)
  /-- QFENCE (R367): Enter a queue fence with a mask from s[A]. -/
  | qfence (f : OpF)
  /-- QFENCE_IMM (R367): Enter a queue fence with an immediate mask. -/
  | qfenceImm (f : OpF)
  /-- QSTAT (R368): Read an engine queue's status. -/
  | qstat (f : OpF)
  /-- SEND (R369): Send an active message from scratchpad in queue 3. -/
  | send (f : OpF)
  /-- LAUNCH (R370): Device-side launch of a packet into a queue of the VF. -/
  | launch (f : OpF)
  /-- TEND (R371): End the flow's part of a task, counting towards commit. -/
  | tend (f : OpF)
  /-- TABORT (R372): Abort the task whole. -/
  | tabort (f : OpF)
  /-- TABORT_EXT (R372): Abort the task whole, or with .split. -/
  | tabortExt (f : OpF) (x : ExtX)
  /-- VGROW (R373): Grow the register grant to a target in s[A]. -/
  | vgrow (f : OpF)
  /-- VGROW_IMM (R373): Grow the register grant to an imm6 target. -/
  | vgrowImm (f : OpF)
  /-- SGROW (R373): Grow the scratchpad grant to a target in s[A]. -/
  | sgrow (f : OpF)
  /-- SGROW_IMM (R373): Grow the scratchpad grant to imm6 × 4 KiB. -/
  | sgrowImm (f : OpF)
  /-- SVC (R55): Service call: release, trap 0x11, post argument blocks, park. -/
  | svc (f : OpF) (imm : Word)
  /-- TRAP (R375): Software trap with DETAIL s[A]. -/
  | trap (f : OpF)
  /-- TRAP_EXT (R375): Software trap with an immediate DETAIL. -/
  | trapExt (f : OpF) (imm : Word)
  /-- BRK (R375): Breakpoint, cause 0x01. -/
  | brk (f : OpF)
  /-- UIRET (R376): Return from the user-interrupt handler. -/
  | uiret (f : OpF)
  /-- UIMASK (R377): Set UIMASK from s[A], returning the old mask. -/
  | uimask (f : OpF)
  /-- UIMASK_IMM (R377): Mask or unmask every user-interrupt source. -/
  | uimaskImm (f : OpF)
  /-- TRC (R378): Emit a trace marker with value s[A]. -/
  | trc (f : OpF)
  /-- TRC_IMM (R378): Emit a trace marker with an imm6 value. -/
  | trcImm (f : OpF)
  /-- TRC_EXT (R378): Emit a trace marker with a 32-bit immediate. -/
  | trcExt (f : OpF) (imm : Word)
  /-- VLIW_BUNDLE (R222): A VLIW bundle header and its op words issue as one commit unit. -/
  | vliwBundle (b : Bundle)
  /-- POWER_LOSS (R12): Module power is lost, for example during a firmware write, and the active image slot stays in use. -/
  | powerLoss
  /-- LOAD_VALUE_RETURNED (R188): The value of an outstanding global, private or peer load returns, is written to its destination and releases the interlock; poisoned or failed data traps here. -/
  | loadValueReturned (core : Nat) (ctx : Nat)
  /-- GRANT_NAK (R39): A peer answers an outbound Wyund request with a grant NAK, and the request fails with cause 0x16 or an error status. -/
  | grantNak (core : Nat) (ctx : Nat) (pa : Dword)
  /-- SERVICE_ENTRY_DONE (R56): The host complex marks a service-ring entry done, and the supervisor harvests it, posts waiting requests and restores the context once every request under its TAG is done. -/
  | serviceEntryDone (vf : Nat) (slot : Nat) (status : Word) (args : List Byte)
  /-- FIRMWARE_INTERFACE_COMMAND (R46): The supervisor takes a command from its section's command ring (load code, map pages, page data ready and others), checks it and answers with an event. -/
  | firmwareInterfaceCommand (sec : Nat) (tag : Word) (cmd : FwCommand)
  /-- QUEUE_CTL_READY (R40): The queue controller service starts, QUEUE_CTL sets, and latched doorbells are served. -/
  | queueCtlReady
  /-- LD_BINDING (R29): The fabric manager binds a CXL logical device to one port and one host through the FM API over MCTP. -/
  | ldBinding (ld : Nat) (port : Nat) (host : Nat)
  deriving DecidableEq, Repr

end Sys2Proof
end

