-- ==== Sys2Proof/Machine/Types.lean ====
section
/-! DEFINITION. Types.lean: the plain data that the state is made of: traps, contexts and flows, engine and matrix
commands, cores, sections, queues and grids, tasks, attachment and management. -/

namespace Sys2Proof.Machine

/-! ### Traps (03 R52, 10 R202) -/

/-- A raised cause before its record is written. -/
structure Trap where
  cause : Nat
  detail : Nat := 0
  /-- the slots that raise it -/
  slots : BitVec 16 := 0
  /-- the lanes of the pass that raise it -/
  lanes : Word := 0
  fault : Dword := 0
  write : Bool := false
  fetch : Bool := false
  peer : Bool := false
  /-- code address where it is not that of the instruction -/
  addr : Option Word := none
  /-- PASS, where it is not that of the instruction -/
  pass : Option Nat := none
  /-- the partition and the physical address of a read that was refused, which logs an event (02 R23) -/
  logs : Option (Nat × Nat) := none
  deriving DecidableEq, Repr

/-- The trap record (03 R52). -/
structure TrapRecord where
  cause : Nat
  flags : BitVec 8
  context : Nat
  firstSlot : Nat
  slots : BitVec 16
  lwb : Nat
  pass : Nat
  codeAddr : Word
  window : Nat
  core : Nat
  part : Nat
  groupValid : Word
  lanes : Word
  fault : Dword
  age : Nat
  fragment : Nat
  detail : Nat
  time : Nat
  deriving DecidableEq, Repr

/-! ### Contexts (05, 09) -/

/-- The decoder a context issues from (04 R79 MODE). -/
inductive Mode where
  | simt | half | vliw
  deriving DecidableEq, Repr

/-- One register write of a result: the key of the register in its file. -/
inductive Dst where
  /-- lane register r of lane L -/
  | v (r lane : Nat)
  | s (r : Nat)
  /-- lane predicate n of lane L -/
  | p (n lane : Nat)
  /-- result port of a lane's cluster: 0 alu, 1 mul, 2 sfu -/
  | port (k lane : Nat)
  /-- entry e of a scale register -/
  | scale (g e : Nat)
  deriving DecidableEq, Repr

structure Write where
  dst : Dst
  val : Word
  deriving DecidableEq, Repr

/-- Results in flight (09 R186, 10 R206): the issue cycle they are due in. -/
structure Flight where
  due : Nat
  writes : List Write
  deriving DecidableEq, Repr

/-- A register as the scoreboard names it (09 R190). -/
inductive RegName where
  | v (r group : Nat)
  | p (n group : Nat)
  | s (r : Nat)
  | ps
  | setting (n : Nat)
  | scale (g : Nat)
  deriving DecidableEq, Repr

/-- A pending mark: until a core cycle, or until a load returns or a parked pass performs (09 R190, 23 R409). -/
structure Pend where
  reg : RegName
  /-- the core cycle from which it is no longer pending; none while it waits for an event -/
  till : Option Nat
  /-- the outstanding load or parked pass it waits for -/
  tag : Nat := 0
  deriving DecidableEq, Repr

/-- A value kept for later passes of a stop group (10 R415). -/
structure Shadow where
  /-- 1 scalar register, 2 stage predicates, 3 special register -/
  kind : Nat
  num : Nat
  val : Word
  deriving DecidableEq, Repr

/-- One instruction of a decoded stop group. -/
structure GroupOp where
  addr : Word
  op : Info
  deriving DecidableEq, Repr

/-- The stop group a flow is inside (09 R191): its instructions, all decoded before any issues, and the next pass and
position. -/
structure StopGroup where
  ops : List GroupOp
  pass : Nat
  pos : Nat
  /-- the first pass that is not skipped: scalars and uniform instructions take effect in it (05 R105) -/
  first : Nat
  shadow : List Shadow := []
  /-- lane registers and predicates as they stood before the group, where it holds a `perm`, which reads the lanes of
  other groups (09 R191; 15 R305) -/
  oldV : SMap Word := []
  oldP : SMap Bool := []
  /-- lanes for which a control instruction's guard held in the passes issued so far, by group -/
  taken : SMap Word := []
  /-- bytes as they stood before a store of the group wrote them, by place: its loads read these (08 R154) -/
  old : SMap Byte := []
  /-- the tags of its passes that have parked -/
  parked : List Nat := []
  deriving DecidableEq, Repr

/-- Why a flow does not issue (05 R104). -/
inductive Wait where
  | none
  /-- arrived at a seam (05 R101) -/
  | seam
  /-- bwait (16 R331): peer space, object address, phase, deadline, destination, scope -/
  | bwait (peer : Bool) (addr : Word) (phase : Word) (deadline : Option Word) (dst : Nat) (scope : Nat)
  /-- tbar or pbar, with its scope (16 R335) -/
  | barrier (patch : Bool) (scope : Nat)
  /-- a lock's granule, by physical address (06 R125) -/
  | lock (granule : Nat)
  /-- pending claim of `collapse` for C clusters (05 R95) -/
  | claim (clusters : Nat)
  /-- blocks or clusters for `expand` (09 R184, 05 R96) -/
  | expand
  /-- `vgrow` or `sgrow` without free resources (18 R373) -/
  | grow
  /-- a batch (17 R352), or `mwait k` -/
  | batch
  /-- not ready: a pending register, a busy tile, a full queue, or stores that are not done (05 R104) -/
  | busy
  /-- the other groups of a matrix team (17 R341) -/
  | matrixTeam
  /-- parked passes, for an instruction that waits for them (03 R66) -/
  | parked
  /-- parked passes, for `collapse`, which waits at a pre-emption point (14 R283) -/
  | collapse
  /-- room in a slice's write-set capacity or lock table (06 R130) -/
  | room
  /-- `tend` (18 R371) -/
  | ended
  /-- stopped while a user handler runs in another flow (10 R210) -/
  | handler
  deriving DecidableEq, Repr

/-- A service of a `callx` with differing targets (14 R277). -/
structure CallService where
  /-- targets still to be served with their lanes, ascending -/
  rest : List (Word × SMap Word)
  /-- the masks at the `callx` -/
  masks : SMap Word
  /-- code address of the `callx` -/
  site : Word
  deriving DecidableEq, Repr

/-- A return-address entry (14 R277). -/
structure RetEntry where
  addr : Word
  service : Option CallService := none
  deriving DecidableEq, Repr

/-- A flow: the main flow (number 255) or a fragment (05 R98). -/
structure Flow where
  pc : Word := 0
  /-- lane masks by group; the group-valid word names the groups listed -/
  masks : SMap Word := []
  group : Option StopGroup := none
  wait : Wait := .none
  /-- the return overlay of a fragment, top first (05 R102) -/
  overlay : List RetEntry := []
  /-- detach order; 0 for the main flow -/
  detach : Nat := 0
  /-- cycles ready without issuing (05 R108) -/
  ready : Nat := 0
  /-- the order in which it became boosted -/
  boost : Option Nat := none
  /-- code address of the `brx` or `callx` that led here, while the target is unchecked, and the pad kind:
  0 `lpad.c`, 1 `lpad.j` (14 R276) -/
  landing : Option (Word × Nat) := none
  /-- result of a `bwait` bundle whose wait has ended, in VLIW mode -/
  bwaitResult : Option Word := none
  /-- the next packet of the trace stream is preceded by a sync (10 R219) -/
  syncOwed : Bool := false
  /-- the interval has closed for the instruction that waits to issue (08 R158) -/
  closed : Bool := false
  /-- the peer accesses that the instruction to issue has sent, by its slot: it takes effect once they are answered (02 R39;
  10 R202) -/
  asked : SMap Nat := []
  deriving DecidableEq, Repr

/-- A deferred path of a seam entry (05 R99, R101). -/
inductive Deferred where
  | no
  /-- not yet run; with the landing-pad check of its first instruction -/
  | waiting (pc : Word) (masks : SMap Word) (landing : Option (Word × Nat))
  /-- running in the owner's place; the masks are those of the owner at its arrival -/
  | running (owner : SMap Word)
  deriving DecidableEq, Repr

/-- A seam entry (05 R100). -/
structure Seam where
  addr : Word
  owner : Nat
  /-- fragment created; 0xFE for a deferred path -/
  created : Nat
  union : SMap Word
  deferred : Deferred := .no
  /-- services of `callx` entries on the owner's return stack at the detach: those above came in its callees (14 R277) -/
  calls : Nat := 0
  deriving DecidableEq, Repr

/-- A loop entry (09 R194). -/
structure LoopEntry where
  start : Word
  stop : Word
  count : Word
  stages : Nat
  drain : Bool
  saved : BitVec 8
  /-- iterations begun, for the trace packet (10 R218) -/
  begun : Word := 0
  deriving DecidableEq, Repr

/-- A taken branch whose delay bundles are due (09 R192). -/
structure Delay where
  left : Nat
  target : Word
  /-- landing-pad check at the target -/
  landing : Option (Word × Nat) := none
  deriving DecidableEq, Repr

/-- A pattern entry (09 R193): never loaded entries are not listed. -/
structure PatEntry where
  valid : Bool
  words : List Word
  deriving DecidableEq, Repr

/-- Where a buffered store goes: physical memory (with the partition it carries), a peer device, or a peer team's
scratchpad (08 R157). -/
inductive StoreDst where
  | mem (pa : Nat)
  | peer (dev : Nat) (pa : Nat)
  /-- the peer team by its grid and index, wherever it is when the store performs -/
  | spad (grid team : Nat) (off : Nat)
  deriving DecidableEq, Repr

/-- A store in the tack buffer (08 R157). -/
structure TackStore where
  dst : StoreDst
  bytes : List Byte
  /-- virtual address, for the invalidation of R68 and the write set -/
  va : Dword
  /-- the flow that issued it -/
  flow : Nat
  deriving DecidableEq, Repr

/-- A store that has left its tack buffer and is not done: one to a peer device that is not acknowledged (08 R163), one
to a peer team that is off-core or under rollback (08 R160), or one of a task whose slice has no room (06 R130). -/
structure SentStore where
  tag : Nat
  dst : StoreDst
  bytes : List Byte
  va : Dword
  /-- the task that waits for room -/
  task : Option Nat := none
  flow : Nat := 255
  /-- the address space it was translated in (03 R68) -/
  asid : Nat := 0
  deriving DecidableEq, Repr

/-- A release whose earlier stores are not all done: their tags, and what a peer that refuses one of them raises (08 R163; 02
R39). -/
structure Release where
  tags : List Nat
  trap : Trap
  flow : Nat
  deriving DecidableEq, Repr

/-- An outstanding load (09 R188): the writes it makes when its value returns; a trap where the value is refused. -/
structure Load where
  tag : Nat
  writes : List Write
  trap : Option Trap
  slot : Nat
  /-- the peer device it reads, and the trap of a failed access (02 R39) -/
  peer : Option (Nat × Trap) := none
  /-- the flow that issued it -/
  flow : Nat := 255
  deriving DecidableEq, Repr

/-! ### Engine commands (18) -/

/-- The descriptor of `cpy` (18 R359). -/
structure CopyDesc where
  src : Nat
  dst : Nat
  sspace : Nat
  dspace : Nat
  elem : Nat
  /-- extent, source stride, destination stride, dimension 0 first -/
  dims : List (Nat × Int × Int)
  deriving DecidableEq, Repr

/-- The descriptor of a gather (18 R363) with the index list read at issue. -/
structure GatherDesc where
  table : Nat
  tstride : Nat
  idx : List Nat
  rowBytes : Nat
  local_ : Nat
  lstride : Nat
  etype : Nat
  nblk : Nat
  scales : Nat
  sstride : Nat
  slocal : Nat
  deriving DecidableEq, Repr

/-- The descriptor of a collective (18 R365). -/
structure CollDesc where
  src : Nat
  dst : Nat
  count : Nat
  tag : Nat
  ndev : Nat
  rank : Nat
  red : Nat
  root : Nat
  list : Nat
  /-- `.s` offset of STATUS -/
  status : Nat
  deriving DecidableEq, Repr

inductive GatherKind where
  | gat | sct | plane | gpl
  deriving DecidableEq, Repr

/-- What an engine entry does. -/
inductive EngOp where
  | copy (d : CopyDesc) (plane : Bool)
  | gather (k : GatherKind) (d : GatherDesc)
  | coll (sub ty : Nat) (d : CollDesc)
  | fence (mask : BitVec 4)
  | send (off compl : Nat)
  | launch (q : Nat) (addr compl : Nat)
  deriving DecidableEq, Repr

/-- An entry of an engine queue (18 R354). -/
structure EngCmd where
  id : Nat
  queue : Nat
  op : EngOp
  site : Word
  /-- object offset to notify -/
  notify : Option Nat
  /-- elements, rows or beats already landed -/
  done : Nat := 0
  /-- the flow that issued it -/
  flow : Nat := 255
  /-- bytes as they stood before the command wrote them, by place (18 R360) -/
  old : SMap Byte := []
  /-- the message of a `send`, read at its release (18 R369) -/
  msg : List Byte := []
  /-- the context's stores that were sent and not done at its release: its accesses come after them (08 R173) -/
  after : List Nat := []
  /-- an address of a peer device that a grant NAK has refused (02 R39; 18 R357) -/
  refused : Option Dword := none
  /-- of a collective: the devices whose part has failed (02 R39) -/
  lost : List Nat := []
  deriving DecidableEq, Repr

/-- A page that a command has translated, for reading or for writing (03 R65). -/
structure EngPage where
  cmd : Nat
  page : Nat
  write : Bool
  pa : Nat
  peer : Option Nat
  deriving DecidableEq, Repr

/-! ### Matrix operations (17) -/

/-- A layout word (17 R337). -/
structure LayoutWord where
  base : Nat
  s0 : Nat
  s1 : Nat
  s2 : Nat
  swz : Nat
  orient : Bool
  deriving DecidableEq, Repr

inductive MxKind where
  | mma | mmaq | mzero | mld | mst | mplane | munplane | mtr | madd | mscale
  deriving DecidableEq, Repr

/-- An operation of the matrix queue with all it read at issue (17 R340). -/
structure MxOp where
  core : Nat
  ctx : Nat
  kind : MxKind
  d : Nat
  a : Nat
  b : Nat
  ld : Option LayoutWord
  la : Option LayoutWord
  lb : Option LayoutWord
  off : Int
  scalar : Word
  sub : Nat
  ty : Nat
  ty2 : Nat
  rnd : Nat
  sat : Bool
  scales : SMap Word
  batch : Nat
  /-- the interval it was issued in has closed (09 R200) -/
  closed : Bool := false
  /-- the scratchpad of a destroyed context that the operation, which was running, still holds (17 R342) -/
  holds : Option (Nat × Nat) := none
  deriving DecidableEq, Repr

/-- Pending arrivals of a matrix team (17 R341, 10 R415). -/
structure MxArrival where
  site : Word
  team : Nat
  arrived : Word
  op : MxOp
  /-- the flows whose passes joined -/
  flows : List Nat
  /-- a `scl` has written a scale register since the first arrival -/
  scl : Bool := false
  /-- the same, as a save area said it: every later arrival differs -/
  stale : Bool := false
  deriving DecidableEq, Repr

/-- A parked pass (03 R66). -/
structure ParkedPass where
  ctx : Nat
  flow : Nat
  group : Nat
  lanes : Word
  addr : Word
  /-- position of the instruction in its stop group -/
  pos : Nat
  op : Info
  tag : Nat
  shadow : List Shadow
  record : TrapRecord
  /-- a replay has been commanded and waits for a lock -/
  replaying : Bool := false
  /-- bytes as they stood before a store of its stop group wrote them (08 R154) -/
  old : SMap Byte := []
  deriving DecidableEq, Repr

/-- A packet of the trace stream before its header is laid out (10 R218). -/
structure TracePacket where
  flow : Nat
  kind : Nat
  payload : List Byte
  pc : Word
  masks : SMap Word
  deriving DecidableEq, Repr

/-! ### The context -/

structure Ctx where
  live : Bool := false
  mode : Mode := .simt
  groups : Nat := 0
  /-- clusters owned in VLIW mode -/
  clusters : Nat := 0
  /-- base cluster of the block, slice or cluster bound -/
  base : Nat := 0
  /-- placed on its clusters; a started team always is -/
  bound : Bool := false
  part : Nat := 0
  vf : Nat := 0
  asid : Nat := 0
  window : Nat := 0
  grid : Nat := 0
  team : Nat := 0
  /-- map entry and rank in the patch (07 R137) -/
  mapIdx : Nat := 0
  handler : Bool := false
  /-- landing zone entry of a handler context -/
  zone : Nat := 0
  task : Option Nat := none
  /-- start order: the core cycle and a count (05 R107) -/
  start : Nat := 0
  -- registers
  v : SMap Word := []
  sr : SMap Word := []
  pr : SMap Bool := []
  ps : BitVec 8 := 0
  ports : SMap Word := []
  scales : SMap Word := []
  tiles : SMap Word := []
  shadows : SMap Word := []
  /-- tiles spilled to the tile area (09 R198), and those of them whose shadow has taken the tile's value since -/
  spilled : BitVec 8 := 0
  spillClosed : BitVec 8 := 0
  -- context settings (11 R232)
  privHi : Word := 0
  privLo : Word := 0
  privSz : Word := 0
  tileHi : Word := 0
  tileLo : Word := 0
  uivec : Word := 0
  uipend : BitVec 16 := 0
  /-- the bits that UI_RAISE has set in the core cycle `raisedAt` (11 R232) -/
  raised : BitVec 16 := 0
  raisedAt : Nat := 0
  uimask : BitVec 16 := 0xFFFF
  uipc : Word := 0
  uisrc : Word := 0
  cycleHi : Word := 0
  aborts : Nat := 0
  idem : Bool := false
  cause : Nat := 0
  -- grants
  blocks : Nat := 0
  nregs : Nat := 0
  spadBase : Nat := 0
  spadLen : Nat := 0
  -- VLIW pipeline
  icyc : Nat := 0
  flight : List Flight := []
  /-- the late-write buffer while a user handler runs: issue cycles that remain (10 R206, R210) -/
  lwb : List Flight := []
  delay : Option Delay := none
  /-- the boundary step of R195 is owed at resumption -/
  refill : Bool := false
  /-- a lane mask kept by `collapse`, and whether the team was a half-group (14 R283) -/
  collapsed : Option (Word × Bool) := none
  -- flows and stacks
  flows : SMap Flow := []
  detaches : Nat := 0
  seams : List Seam := []
  loops : List LoopEntry := []
  stackSpilled : Nat := 0
  ras : List RetEntry := []
  rasSpilled : Nat := 0
  /-- services of `callx` entries that are spilled, by entry number from the bottom -/
  rasServices : SMap CallService := []
  /-- spilled loop entries that drain, by entry number from the bottom -/
  drainSpilled : List Nat := []
  /-- iterations begun of spilled loop entries, by entry number from the bottom -/
  begunSpilled : SMap Word := []
  /-- spilled seam entries whose deferred path holds lanes back, by entry number from the bottom, with the path's unchecked
  landing -/
  awaySpilled : SMap (Option (Word × Nat)) := []
  /-- the services counted at the detach of spilled seam entries, by entry number from the bottom, where there were any -/
  callsSpilled : SMap Nat := []
  /-- the base of what is spilled, where an `ssets` of the bundle that spilled it changed TILEBASE (19 R388) -/
  spillBase : Option Nat := none
  /-- flows that took other numbers while seam entries were spilled: how many were, and the numbers by the old ones -/
  spillNames : List (Nat × SMap Nat) := []
  pats : SMap PatEntry := []
  -- matrix
  batchNext : Nat := 0
  mxArr : List MxArrival := []
  -- flags
  yield : Bool := false
  yieldOrder : Nat := 0
  inHandler : Bool := false
  stopPending : Bool := false
  /-- stopped at a trap: the record -/
  stopped : Option TrapRecord := none
  /-- stepping: the flow and whether it has issued its group (10 R211) -/
  stepping : Option Nat := none
  /-- the flow has issued since the step began -/
  stepped : Bool := false
  /-- park, retirement and other ends asked for and waiting for their moment -/
  parkAsked : Bool := false
  /-- the flow of a user handler -/
  handlerFlow : Nat := 255
  /-- waits abandoned at delivery, restored by `uiret` -/
  heldWaits : SMap Wait := []
  /-- the handler's flow as it stood at delivery: its stop group, its unchecked landing, its wait (10 R210) -/
  heldFlow : Option Flow := none
  /-- while off-core: the core and the context number it was saved from (07 R139) -/
  home : Nat := 0
  homeCtx : Nat := 0
  /-- while off-core: the record of a cause 0x14 raised when it was saved at its checkpoint (10 R215) -/
  lost : Option TrapRecord := none
  /-- the 105 degree state is entered: it is to stop at its next pre-emption point (01 R10) -/
  cooling : Bool := false
  /-- a budget event to be taken: its code and the flow that made it (06 R128, R134) -/
  budgetEvent : Option (Nat × Nat) := none
  taskCycles : Nat := 0
  -- interval (08 R157 to R159, 10 R212)
  tack : List TackStore := []
  /-- values of loads, a lane's each, and of CYCLE reads, in issue order (10 R212) -/
  loadLog : List (List Word) := []
  undo : List Nat := []
  /-- the old values of the scratchpad words that the undo log names (10 R212) -/
  undoVals : SMap Word := []
  held : List EngCmd := []
  age : Nat := 0
  /-- trace packets since the last close: flow, kind, payload, PC, masks (10 R219) -/
  emitted : List TracePacket := []
  /-- a peer store failed since the last drain or release: its address (02 R39) -/
  peerFailed : Option Dword := none
  /-- tags of its stores that have left the tack buffer and were not done at once (08 R163) -/
  sent : List Nat := []
  /-- a release whose earlier stores are not all done (08 R163) -/
  released : Option Release := none
  -- engines (08 R171)
  eq : SMap (List EngCmd) := []
  nextCmd : Nat := 1
  /-- queues stopped at a fault with their record -/
  eqStopped : SMap TrapRecord := []
  /-- pages that its commands have translated, which each of them translates once (03 R65) -/
  engPages : List EngPage := []
  /-- parked passes of a context that is off-core -/
  passes : List ParkedPass := []
  -- scoreboard (09 R190)
  pend : List Pend := []
  loads : List Load := []
  nextTag : Nat := 1
  deriving DecidableEq, Repr

/-! ### Cores -/

/-- A word-granular L1 line (08 R161): the words as filled, which are valid, which are owned, and the partition. -/
structure L1Line where
  part : Nat
  words : SMap Word
  valid : Word
  owned : Word
  deriving DecidableEq, Repr

/-- A leaf held by a TLB (03 R65). -/
structure TlbEntry where
  asid : Nat
  va : Nat
  size : Nat
  pa : Nat
  write : Bool
  /-- DIRTY set by this walk -/
  dirty : Bool
  peer : Option Nat
  deriving DecidableEq, Repr

/-- A pointer entry held by a walk cache (03 R65): the table that follows for the addresses of a range at a level. -/
structure WalkEntry where
  asid : Nat
  level : Nat
  va : Nat
  base : Nat
  deriving DecidableEq, Repr

/-- CODE_WIN (03 R47). -/
structure CodeWin where
  refs : Nat := 0
  part : Nat := 0
  len : Nat := 0
  base : Nat := 0
  valid : Bool := false
  deriving DecidableEq, Repr

/-- BAR_WIN_CFG (16 R334). -/
structure BarWin where
  dropped : Nat := 0
  part : Nat := 0
  valid : Bool := false
  deriving DecidableEq, Repr

/-- AM_PORT (04 R86). -/
structure AmPort where
  zoneSize : Nat := 0
  zoneBase : Nat := 0
  window : Nat := 0
  asid : Nat := 0
  part : Nat := 0
  hregs : Nat := 0
  valid : Bool := false
  deriving DecidableEq, Repr

/-- An accepted active message whose handler has not started (04 R88). -/
structure Message where
  entry : Nat
  handler : Word
  dest : Nat
  len : Nat
  arg : List Word
  vf : Nat
  /-- the core and context whose `send` waits for the start (18 R369) -/
  sender : Option (Nat × Nat) := none
  deriving DecidableEq, Repr

/-- A claim that is not granted (05 R94, R95): of a context that collapses, or of a VLIW thread not yet started. -/
structure Claim where
  ctx : Option Nat
  /-- grid and team of a thread not yet started -/
  grid : Nat
  team : Nat
  clusters : Nat
  /-- base cluster of the reserved block; none while no block is eligible -/
  block : Option Nat
  /-- the block is the thread's, which waits for its other resources -/
  granted : Bool := false
  deriving DecidableEq, Repr

/-- A checkpoint (10 R212): the context and the bytes of its scratchpad grant at the last close. -/
structure Checkpoint where
  ctx : Ctx
  spad : Memory
  /-- matrix operations of the interval that a rollback has withdrawn -/
  mx : List MxOp := []
  deriving DecidableEq, Repr

/-- The trace unit (10 R217 to R219). -/
structure TraceUnit where
  mask : BitVec 20 := 0
  part : Nat := 0
  syncLog2 : Nat := 4
  closes : Bool := false
  enable : Bool := false
  base : Nat := 0
  size : Nat := 12
  wptr : Word := 0
  rptr : Word := 0
  lost : Word := 0
  /-- cycle of the last packet written -/
  last : Nat := 0
  /-- packets lost since the last loss packet -/
  owedLoss : Word := 0
  deriving DecidableEq, Repr

structure Core where
  istore : Memory := ⟨[]⟩
  codeWin : SMap CodeWin := []
  spadBanks : Nat := 8
  sramBusy : Bool := false
  newBanks : Nat := 8
  spad : Memory := ⟨[]⟩
  l1 : SMap L1Line := []
  l1tlb : List TlbEntry := []
  ctxs : SMap Ctx := []
  claims : List Claim := []
  parked : List ParkedPass := []
  mxQ : List MxOp := []
  /-- tiles bound to physical tiles, by context and number, the least recently used first (09 R198) -/
  tilesUse : List (Nat × Nat) := []
  amPort : SMap AmPort := []
  messages : List Message := []
  barWin : SMap BarWin := []
  /-- CTX_SAVE addresses by context -/
  ctxSave : SMap Nat := []
  rr : Bool := false
  rrPtr : Nat := 0
  /-- flows chosen in the previous cycle, in order -/
  lastIssued : List (Nat × Nat) := []
  boosts : Nat := 0
  yields : Nat := 0
  starts : Nat := 0
  trc : TraceUnit := {}
  /-- checkpoints by context -/
  ckpt : SMap Checkpoint := []
  /-- contexts under rollback: the state that the reruns reproduce -/
  rolled : SMap Checkpoint := []
  /-- retired contexts wait for a spare (01 R18) -/
  retiring : Bool := false
  deriving DecidableEq, Repr

/-! ### Sections (03) -/

/-- A TLB invalidation in progress (03 R68). -/
structure Inval where
  asid : Nat
  va : Nat
  size : Nat
  deriving DecidableEq, Repr

/-- An event of the firmware interface (03 R46): the answer to a command, by its tag, or a page request (03 R67). -/
inductive FwEvent where
  | answer (tag : Word) (ok : Bool)
  | pageRequest (asid page : Nat)
  deriving DecidableEq, Repr

/-- What waits for a slot of a full trap queue (03 R51). -/
inductive OwedTrap where
  /-- a context, or a fragment of it, that stands at its trap with no state changed -/
  | stop (core ctx flow : Nat) (t : Trap)
  /-- a pass that parks -/
  | park (core : Nat) (p : ParkedPass)
  /-- the record of a queue of an engine, or of a context that holds nothing to close -/
  | record (r : TrapRecord)
  deriving DecidableEq, Repr

structure Section where
  trapQ : List TrapRecord := []
  owed : List OwedTrap := []
  trapTail : Word := 0
  trapHead : Word := 0
  istoreErr : Bool := false
  cmdErr : Bool := false
  inval : Option Inval := none
  invalDone : Bool := false
  tlb : List TlbEntry := []
  walkCache : List WalkEntry := []
  fwEvents : List FwEvent := []
  /-- commands taken from the section's command ring -/
  fwTaken : Nat := 0
  /-- page requests that the host complex has not answered: ASID and page (03 R67) -/
  pageWaits : List (Nat × Nat) := []
  /-- unload commands that wait for REFS to reach zero: tag, handle (03 R50) -/
  unloads : List (Word × Word) := []
  deriving DecidableEq, Repr

/-- One request of a service call (03 R56). -/
structure SvcReq where
  lane : Nat
  group : Nat
  /-- the addresses of the eight pieces of the argument block; empty where it is not valid -/
  pieces : List Nat
  posted : Bool := false
  result : Option (Word × List Byte) := none
  deriving DecidableEq, Repr

/-- A service call of a parked context (03 R55 to R58). -/
structure SvcCall where
  /-- the code object in the context's window (03 R59) -/
  code : Option Word := none
  tag : Nat
  service : Nat
  vf : Nat
  core : Nat
  ctx : Nat
  /-- physical address of the context's save area -/
  area : Nat
  count : Nat
  reqs : List SvcReq
  deriving DecidableEq, Repr

/-- An entry of a service ring (03 R56). -/
structure SvcEntry where
  tag : Nat := 0
  service : Nat := 0
  lane : Nat := 0
  group : Nat := 0
  count : Nat := 0
  state : Nat := 0
  vf : Nat := 0
  status : Word := 0
  args : List Byte := []
  deriving DecidableEq, Repr

/-- A VF's service ring (03 R56): where it stands in partition 0 memory, its entries, and the one posted last. -/
structure SvcRing where
  base : Nat := 0
  size : Nat
  last : Nat := 0
  deriving DecidableEq, Repr

/-- A loaded code object (03 R50). -/
structure CodeObj where
  handle : Word
  part : Nat
  /-- core, window index -/
  places : List (Nat × Nat)
  bytes : Nat
  deriving DecidableEq, Repr

/-- An entry of the address-space table (03 R60). -/
structure Space where
  root : Nat := 0
  part : Nat := 0
  valid : Bool := false
  deriving DecidableEq, Repr

/-! ### Queues and grids (04) -/

/-- A queue table entry (04 R70). -/
structure QueueEntry where
  ringBase : Nat
  log2 : Nat
  source : Nat
  enabled : Bool
  pending : Bool
  error : Bool
  /-- the bits that are reserved, where any of them is set: STATE[7:3], byte 11 and bytes 32 to 63 -/
  junk : List Byte
  feedQp : Nat
  vf : Nat
  tail : Nat
  head : Nat
  progress : Nat
  dropped : Nat
  deriving DecidableEq, Repr

/-- A launch packet's fields (04 R79). -/
structure Packet where
  bytes : List Byte
  deriving DecidableEq, Repr

/-- An atomic set (04 R80). -/
structure AtomSet where
  base : Nat
  len : Nat
  log2 : Nat
  deriving DecidableEq, Repr

/-- A barrier entry (04 R80). -/
structure BarEntry where
  index : Nat
  threads : Nat
  bytes : Nat
  deriving DecidableEq, Repr

structure Grid where
  queue : Nat
  /-- packet number in its queue -/
  number : Nat
  pkt : Packet
  vf : Nat
  part : Nat
  map : List Nat := []
  asets : List AtomSet := []
  bars : List BarEntry := []
  /-- teams or initial tasks started -/
  started : Nat := 0
  /-- teams that have exited, by index -/
  exited : List Nat := []
  /-- tasks committed -/
  committed : Nat := 0
  /-- final status, fault code, map index and trap record once the grid is over -/
  verdict : Option (Nat × Nat × Nat × Option TrapRecord) := none
  /-- the task's age and box for STATUS 0x03 -/
  endAge : Nat := 0
  endBox : List (Nat × Nat) := []
  /-- the completion record is written -/
  done : Bool := false
  /-- dispatched but not started -/
  waiting : Bool := true
  /-- teams that a flush discarded and that start again (06 R135) -/
  restarts : List Nat := []
  deriving DecidableEq, Repr

structure QueueCtl where
  cache : SMap QueueEntry := []
  resident : Nat := 0
  slice : Nat := 100
  /-- microseconds of the slice that remain -/
  left : Nat := 100
  /-- microseconds a cached queue has had no dispatchable packet -/
  idle : SMap Nat := []
  latched : List (DoorbellSource × Nat × Word) := []
  lastLoaded : SMap Nat := []
  /-- the queue number from which the next service begins (04 R78) -/
  rr : Nat := 0
  /-- the core cycle of the last switch of partitions -/
  switched : Option Nat := none
  deriving DecidableEq, Repr

/-! ### Tasks (06) -/

inductive TaskState where
  | pending
  | running (core ctx : Nat)
  | saved (core ctx : Nat)
  | committing (core ctx : Nat)
  deriving DecidableEq, Repr

structure Task where
  grid : Nat
  stamp : Nat
  box : List (Nat × Nat)
  mapIdx : Nat
  aborts : Nat := 0
  cause : Nat := 0
  state : TaskState := .pending
  lastCore : Nat
  wset : Nat := 0
  /-- an abort is due, with the CAUSE of the next run (06 R119, R131) -/
  abortDue : Option Nat := none
  deriving DecidableEq, Repr

/-- A speculative word of a write set (06 R120). -/
structure SpecWord where
  task : Nat
  pa : Nat
  val : Word
  deriving DecidableEq, Repr

/-- A lock (06 R125): its holder and the parked requesters (task, core, context, flow). -/
structure Lock where
  granule : Nat
  holder : Nat
  parked : List (Nat × Nat × Nat × Nat) := []
  deriving DecidableEq, Repr

structure Tasks where
  /-- the age counter: the next stamp (06 R117) -/
  age : Nat := 1
  next : Nat := 1
  list : SMap Task := []
  spec : List SpecWord := []
  locks : List Lock := []
  deriving DecidableEq, Repr

/-! ### Attachment (02) -/

structure PartCfg where
  keyValid : Bool := false
  resetBusy : Bool := false
  enable : Bool := false
  keyGen : Nat := 0
  deriving DecidableEq, Repr

structure VfBind where
  qcount : Nat := 0
  qbase : Nat := 0
  owner : Nat := 0x1F
  part : Nat := 0
  resetBusy : Bool := false
  enable : Bool := false
  deriving DecidableEq, Repr

structure BatchSlot where
  zeroBase : Nat := 0
  /-- 0 free, 1 active, 2 leaving, 3 zeroing -/
  state : Nat := 0
  zeroPages : Nat := 0
  owner : Nat := 0
  core : Nat := 0
  arrivals : Nat := 0
  index : Nat := 0
  /-- arrivals made in the current phase, and that phase -/
  made : Nat := 0
  phase : Word := 0
  deriving DecidableEq, Repr

structure PeerGrant where
  dev : Nat := 0
  rpart : Nat := 0
  lpart : Nat := 0
  valid : Bool := false
  deriving DecidableEq, Repr

structure HdmWindow where
  part : Nat
  base : Nat
  size : Nat
  deriving DecidableEq, Repr

structure LogicalDev where
  port : Nat
  host : Nat
  up : Bool
  hdm : SMap HdmWindow := []
  deriving DecidableEq, Repr

/-- A queue pair: 0 memory, 1 queue-feed, 2 active-message (02 R32). -/
structure QueuePair where
  kind : Nat
  vf : Nat
  queue : Nat := 0
  error : Bool := false
  /-- work requests posted on it and not complete (02 R42) -/
  posted : Nat := 0
  deriving DecidableEq, Repr

/-- The messages of the SPDM exchange (01 R13). -/
inductive SpdmMsg where
  | version | capabilities | algorithms | digests | certificate | challenge | measurements
  deriving DecidableEq, Repr

/-- What an SPDM answer holds that the manual lays down: the signature algorithm offered, and the measurements made, each
with its index and its values (01 R13; 02 R40). -/
inductive SpdmContent where
  /-- laid down by SPDM and the module's certificates alone -/
  | own
  /-- Falcon-1024 over SHAKE256, a vendor-defined asymmetric algorithm -/
  | falcon1024Shake256
  | measured (ms : List (Nat × List Nat))
  deriving DecidableEq, Repr

/-- What the device answered an outside party, or sent to a peer. -/
inductive LinkReply where
  | data (bytes : List Byte)
  | done
  | completerAbort
  | accessNak
  | grantNak
  | rnrNak
  | poison
  | interrupt (vf vector : Nat)
  | hostNotified (vf : Nat)
  /-- a request sent to a peer device's physical memory -/
  | peerWrite (dev pa : Nat) (bytes : List Byte)
  | spdm (msg : SpdmMsg) (content : SpdmContent) (code : Word)
  /-- a posted work request completes with a flush error (02 R42) -/
  | flushError (qp : Nat)
  deriving DecidableEq, Repr

structure Attach where
  parts : SMap PartCfg := []
  /-- PART_CORES masks -/
  partCores : SMap Nat := []
  partQtable : SMap Nat := []
  frameOwnerBase : Nat := 0
  /-- the partition and the generation of the key under which a frame's content stands, by frame (02 R24) -/
  frameKeys : SMap (Nat × Nat) := []
  /-- what a frame holds under the other keys it has stood under, by frame and then by key, where nothing has been written to
  it since (02 R24) -/
  frameViews : SMap (List ((Nat × Nat) × Memory)) := []
  vfs : SMap VfBind := []
  batch : SMap BatchSlot := []
  grants : SMap PeerGrant := []
  wyundSet : Bool := false
  wyundId : Nat := 0
  lds : SMap LogicalDev := []
  qps : SMap QueuePair := []
  portFailed : BitVec 18 := 0
  flitRetries : SMap Nat := []
  /-- the peer device each trained Wyund port reaches -/
  portPeer : SMap Nat := []
  /-- VF resets whose files and connections are still open -/
  vfClosing : List Nat := []
  /-- VFs that a reset leaves unbound -/
  vfUnbind : List Nat := []
  /-- pages taken from the partitions' pools: address and size (03 R67) -/
  pooled : List (Nat × Nat) := []
  /-- partition resets in progress -/
  partResets : List Nat := []
  replies : List LinkReply := []
  /-- low halves of 64-bit registers written by 4 B accesses whose high half is still to come (07 R413) -/
  lowHalf : SMap Nat := []
  deriving DecidableEq, Repr

/-! ### Management (01) -/

structure LogEntry where
  time : Nat
  cls : Nat
  source : Nat
  code : Word
  detail : Nat
  deriving DecidableEq, Repr

structure Image where
  /-- active slot is B -/
  active : Bool := false
  pending : Bool := false
  verA : Nat := 0
  verB : Nat := 0
  /-- the slot holds an image whose signature verifies (01 R11, R12) -/
  okA : Bool := true
  okB : Bool := true
  deriving DecidableEq, Repr

structure Mgmt where
  powerCap : Nat := 2000
  clockMHz : Nat := 1200
  /-- 105 degree state: contexts saved, core clock stopped, host halted (01 R10) -/
  halted : Bool := false
  powered : Bool := true
  /-- the 105 degree state is being entered; the contexts saved for it, with their save areas, none where a context could
  not be saved and stands on its core (01 R10) -/
  halting : Bool := false
  saved : List (Nat × Nat × Option Nat) := []
  images : SMap Image := []
  /-- the image that is being written to its inactive slot (01 R12) -/
  writing : Option ImageKind := none
  fusedMin : SMap Nat := []
  bootModeFlash : Nat := 0
  bootMode : Nat := 0
  measured : List Nat := []
  /-- the values measured (01 R13; 02 R40) -/
  measuredAs : SMap (List Nat) := []
  /-- images whose verification has failed since the reset of their owner: that chain of the boot has stopped (02 R40) -/
  failed : List Nat := []
  log : SMap LogEntry := []
  logCount : Nat := 0
  logOverrun : Bool := false
  logFlash : SMap LogEntry := []
  sectReady : Word := 0
  funcReady : Dword := 0
  hostRunning : Bool := false
  /-- logical to physical core, where they differ -/
  remap : SMap Nat := []
  offline : List Nat := []
  /-- spare physical cores free -/
  spares : List Nat := []
  rowsUsed : SMap Nat := []
  banksUsed : SMap Nat := []
  /-- physical cores under the darn -/
  darn : List Nat := []
  /-- times of transient verdicts by unit -/
  transients : SMap (List Nat) := []
  timeUs : Nat := 0
  /-- cycles towards the next microsecond -/
  usAcc : Nat := 0
  deriving DecidableEq, Repr

end Sys2Proof.Machine
end

