-- ==== Sys2Proof/Machine/State.lean ====
section
/-! DEFINITION. State.lean: the machine's state as plain data, the reasons a step can stop, and the state after
reset. INVENTORY.md lists every piece with the rule that names it. -/

namespace Sys2Proof.Machine

/-- Which context and flow an instruction is issued for, and the VLIW slot of an op issued alone. -/
structure Cursor where
  core : Nat
  ctx : Nat
  flow : Nat
  slot : Nat
  deriving DecidableEq, Repr

structure State where
  /-- core cycle counter (11 R232 CYCLE) -/
  cycle : Nat
  /-- steps taken: the argument of the free values (notes/assumptions/3.md) -/
  tick : Nat
  /-- events of the outside world not yet taken, oldest first (notes/assumptions/4.md) -/
  inputs : List Instr
  /-- the rest of the instruction-passes and bundles that the cycle's issue words hold: core, context, flow
  (05 R105, R106) -/
  issueQ : List (Nat × Nat × Nat)
  /-- the flow for which instructions are issued -/
  cur : Cursor
  /-- HBM by physical address (07 R146), at the home slices: the values last performed (08 R153) -/
  mem : Memory
  /-- lines that hold media poison (07 R148) -/
  poison : List Nat
  /-- stores that have left a tack buffer and are not done (08 R160, R163) -/
  sent : List SentStore
  nextSent : Nat
  mgmt : Mgmt
  att : Attach
  qc : QueueCtl
  grids : SMap Grid
  nextGrid : Nat
  tasks : Tasks
  sects : SMap Section
  svcRings : SMap SvcRing
  calls : SMap SvcCall
  nextCall : Nat
  /-- address-space table, identical in every section (03 R60) -/
  aspaces : SMap Space
  codeObjs : List CodeObj
  /-- logical cores -/
  cores : SMap Core
  /-- contexts off-core, by the physical address of their save area -/
  parkedCtxs : SMap Ctx
  deriving DecidableEq, Repr

/-- Why the machine stops. -/
inductive Fault where
  /-- The module has no power (01 R10, R12): raised by `step` after the hardware trip or a loss of power, while no
  input is left that restores it. Safe: the manual gives no step of a module without power. -/
  | noPower
  deriving DecidableEq, Repr

/-- Why an instruction is refused. -/
inductive Refusal where
  /-- No meaning is written for the instruction; raised by `exec` only. Safe. -/
  | notModelled (mnemonic : String)
  deriving DecidableEq, Repr

/-- What a step answers. -/
abbrev Out := Host.Outcome State Fault Refusal

/-- The machine right after power-on and device reset, before the boot chain of 02 R40 has begun: every register at
the reset value of its rule; partition 0 is enabled and holds its key (02 R25); the eight spare cores are free
(01 R17). The values the manual does not give stand in notes/assumptions/2.md. (log 2, DESIGN CHOICE) -/
def State.reset : State :=
  { cycle := 0
    tick := 0
    inputs := []
    issueQ := []
    cur := { core := 0, ctx := 0, flow := 255, slot := 0 }
    mem := Memory.empty
    poison := []
    sent := []
    nextSent := 1
    mgmt := { spares := [256, 257, 258, 259, 260, 261, 262, 263] }
    att := { parts := [(0, { keyValid := true, enable := true })] }
    qc := {}
    grids := []
    nextGrid := 1
    tasks := {}
    sects := []
    svcRings := []
    calls := []
    nextCall := 1
    aspaces := []
    codeObjs := []
    cores := []
    parkedCtxs := [] }

end Sys2Proof.Machine
end

