-- ==== Sys2Proof/Machine/Access.lean ====
section
/-! DEFINITION. Access.lean: the state's parts by number, the current context and flow, and the registers of a
context. -/

namespace Sys2Proof.Machine

namespace State

/-- A logical core; every core exists, an unlisted one stands as after reset. (log 94, DESIGN CHOICE) -/
def core (s : State) (c : Nat) : Core := SMap.get {} s.cores c

def setCore (s : State) (c : Nat) (k : Core) : State := { s with cores := SMap.insert s.cores c k }

def updCore (s : State) (c : Nat) (f : Core → Core) : State := s.setCore c (f (s.core c))

def ctx (s : State) (c x : Nat) : Ctx := SMap.get {} (s.core c).ctxs x

def setCtx (s : State) (c x : Nat) (k : Ctx) : State :=
  s.updCore c (fun co => { co with ctxs := SMap.insert co.ctxs x k })

def updCtx (s : State) (c x : Nat) (f : Ctx → Ctx) : State := s.setCtx c x (f (s.ctx c x))

/-- The section of a logical core (00: eight cores a section). -/
def sectOf (c : Nat) : Nat := c / 8

def sect (s : State) (n : Nat) : Section := SMap.get {} s.sects n

def setSect (s : State) (n : Nat) (k : Section) : State := { s with sects := SMap.insert s.sects n k }

def updSect (s : State) (n : Nat) (f : Section → Section) : State := s.setSect n (f (s.sect n))

/-- The context whose instruction issues. -/
def cc (s : State) : Ctx := s.ctx s.cur.core s.cur.ctx

def updCc (s : State) (f : Ctx → Ctx) : State := s.updCtx s.cur.core s.cur.ctx f

end State

/-! ### Flows -/

namespace Ctx

def flow (k : Ctx) (f : Nat) : Flow := SMap.get {} k.flows f

def setFlow (k : Ctx) (f : Nat) (x : Flow) : Ctx := { k with flows := SMap.insert k.flows f x }

def updFlow (k : Ctx) (f : Nat) (g : Flow → Flow) : Ctx := k.setFlow f (g (k.flow f))

/-- VLIW mode? -/
def vliw (k : Ctx) : Bool := k.mode == .vliw

/-- Lanes of a group (00). -/
def groupLanes (k : Ctx) : Nat := if k.mode == .half then 16 else 32

/-- `a` of 09 R183: the lanes among which the register grant is divided. -/
def laneCount (k : Ctx) : Nat :=
  match k.mode with
  | .simt => 32 * k.groups
  | .half => 16
  | .vliw => 16 * k.clusters

end Ctx

def State.cf (s : State) : Flow := s.cc.flow s.cur.flow

def State.updCf (s : State) (g : Flow → Flow) : State := s.updCc (fun k => k.updFlow s.cur.flow g)

/-- Masks of lanes by group. -/
def maskOf (m : SMap Word) (g : Nat) : Word := SMap.get 0 m g

def setMask (m : SMap Word) (g : Nat) (w : Word) : SMap Word := SMap.set 0 m g w

/-- The lanes of a word, ascending (00 R6). -/
def laneList (w : Word) : List Nat := (List.range 32).filter (fun n => w.getLsbD n)

/-- The number of lanes of a mask. -/
def maskCount (m : SMap Word) : Nat := (m.map (fun p => (laneList p.2).length)).sum

/-- A mask without some lanes. -/
def maskDiff (m x : SMap Word) : SMap Word :=
  (m.map (fun p => (p.1, p.2 &&& ~~~ (maskOf x p.1)))).filter (fun p => p.2 != 0)

/-- The union of two masks. -/
def maskUnion (m x : SMap Word) : SMap Word := x.foldl (fun a p => setMask a p.1 (maskOf a p.1 ||| p.2)) m

/-- The common lanes of two masks. -/
def maskInter (m x : SMap Word) : SMap Word :=
  (m.map (fun p => (p.1, p.2 &&& maskOf x p.1))).filter (fun p => p.2 != 0)

/-- The group-valid word (05 R98). -/
def groupValid (m : SMap Word) : Word := m.foldl (fun w p => w ||| (1#32 <<< p.1)) 0

/-- A mask word of given lanes. -/
def laneMask (ls : List Nat) : Word := ls.foldl (fun w n => w ||| (1#32 <<< (n % 32))) 0

/-! ### Registers of a context -/

/-- Keys: a register and a lane of the context (10 R415: lane 32 × group + lane, or 16 × cluster + element). -/
def laneKey (r lane : Nat) : Nat := r * 1024 + lane

namespace Ctx

def readV (k : Ctx) (r lane : Nat) : Word := SMap.get 0 k.v (laneKey r lane)

/-- Lane predicates: p0 reads true (00; 09 R183). -/
def readP (k : Ctx) (n lane : Nat) : Bool := n == 0 || SMap.get false k.pr (laneKey n lane)

def readPort (k : Ctx) (port lane : Nat) : Word := SMap.get 0 k.ports (laneKey port lane)

def readS (k : Ctx) (r : Nat) : Word := SMap.get 0 k.sr r

def readScale (k : Ctx) (g e : Nat) : Word := SMap.get 0 k.scales (g * 64 + e)

/-- One register written; a write to p0 is discarded (09 R183). -/
def write (k : Ctx) (w : Write) : Ctx :=
  match w.dst with
  | .v r l => { k with v := SMap.set 0 k.v (laneKey r l) w.val }
  | .s r => { k with sr := SMap.set 0 k.sr r w.val }
  | .p n l => if n = 0 then k else { k with pr := SMap.set false k.pr (laneKey n l) (w.val != 0) }
  | .port p l => { k with ports := SMap.set 0 k.ports (laneKey p l) w.val }
  | .scale g e => { k with scales := SMap.set 0 k.scales (g * 64 + e) w.val }

def writes (k : Ctx) (ws : List Write) : Ctx := ws.foldl write k

/-- The results due at an issue cycle land in issue order (09 R186, R187). -/
def land (k : Ctx) (i : Nat) : Ctx :=
  let due := k.flight.filter (fun f => f.due ≤ i)
  let k' := due.foldl (fun k f => k.writes f.writes) k
  { k' with flight := k.flight.filter (fun f => i < f.due) }

/-- The bits of UIPEND that UI_RAISE has set in a core cycle: an `ssets` of that cycle does not clear them (11 R232). -/
def raisedIn (k : Ctx) (cycle : Nat) : BitVec 16 := if k.raisedAt = cycle then k.raised else 0

/-- UI_RAISE sets bits of UIPEND in a core cycle (10 R210). -/
def raiseUi (k : Ctx) (cycle : Nat) (bits : BitVec 16) : Ctx :=
  { k with uipend := k.uipend ||| bits, raised := k.raisedIn cycle ||| bits, raisedAt := cycle }

/-- Every result in flight lands, in due order and then in issue order (09 R186: `expand`, `exit`). -/
def landAll (k : Ctx) : Ctx :=
  let last := k.flight.foldl (fun m f => max m f.due) k.icyc
  (List.range (last + 1 - k.icyc)).foldl (fun k d => k.land (k.icyc + d)) k

/-- A 64-bit value of the pair at an even register (12 R238). -/
def readV64 (k : Ctx) (r lane : Nat) : Nat := (k.readV r lane).toNat + 2 ^ 32 * (k.readV (r + 1) lane).toNat

def readS64 (k : Ctx) (r : Nat) : Nat := (k.readS r).toNat + 2 ^ 32 * (k.readS (r + 1)).toNat

/-- PRIVBASE, TILEBASE (11 R232). -/
def privBase (k : Ctx) : Nat := k.privLo.toNat + 2 ^ 32 * k.privHi.toNat
def tileBase (k : Ctx) : Nat := k.tileLo.toNat + 2 ^ 32 * k.tileHi.toNat

/-- Is anything of a context spilled (19 R388)? -/
def anySpilled (k : Ctx) : Bool := k.spilled != 0 || k.stackSpilled != 0 || k.rasSpilled != 0

/-- The base of the context's spills: TILEBASE; what was spilled by a bundle that also wrote TILEBASE is filled from the address
it was spilled to (19 R388). (log 125, DEDUCED) -/
def spillTo (k : Ctx) : Nat := if k.anySpilled then k.spillBase.getD k.tileBase else k.tileBase

/-- A base kept for what is spilled is over with the last of it. -/
def spillOver (k : Ctx) : Ctx := if k.anySpilled then k else { k with spillBase := none }

/-- The RESTART word (06 R119). -/
def restartWord (k : Ctx) : Word :=
  BitVec.ofNat 32 (min k.aborts 0xFFFF * 2 ^ 16 + (if k.idem then 256 else 0) + k.cause % 256)

/-- N of 09 R183 for a grant of blocks over lanes. -/
def regsFor (blocks lanes : Nat) : Nat := if lanes = 0 then 0 else min 64 (256 * blocks / lanes / 8 * 8)

/-- The smallest grant that gives N registers over lanes (09 R184). -/
def blocksFor (n lanes : Nat) : Nat := (n * lanes + 255) / 256

/-- Every result and mark of an ended interval (08 R158). -/
def clearInterval (k : Ctx) : Ctx := 
  { k with tack := [], loadLog := [], undo := [], undoVals := [], held := [], age := 0, emitted := [] }

end Ctx

/-- The two words of a 64-bit value. -/
def loWord (x : Nat) : Word := BitVec.ofNat 32 x
def hiWord (x : Nat) : Word := BitVec.ofNat 32 (x / 2 ^ 32)

/-- The 64-bit value of a number. -/
def dword (x : Nat) : Dword := BitVec.ofNat 64 x

/-- Bytes that the manual calls unpredictable or that come from outside: free values (notes/assumptions/3.md). (log 39, DESIGN CHOICE) -/
def State.freeBytes (s : State) (tag n : Nat) : List Byte :=
  (List.range n).map (fun i => (Config.freeWord (s.tick * 2 ^ 64 + tag * 4096 + i)).setWidth 8)

/-! ### Event log (01 R14) -/

/-- An entry of the event log: ring slot LOG_COUNT mod 4,096; a full ring loses its oldest entry and sets LOG_OVERRUN. -/
def State.logEvent (s : State) (cls source : Nat) (code : Word) (detail : Nat) : State :=
  let m := s.mgmt
  let e : LogEntry := { time := m.timeUs, cls := cls, source := source, code := code, detail := detail }
  { s with mgmt := { m with log := SMap.insert m.log (m.logCount % 4096) e
                            logOverrun := m.logOverrun || decide (4096 ≤ m.log.length)
                            logCount := (m.logCount + 1) % 2 ^ 32 } }

/-- A refused access, request or configuration: class 0x02 with CODE[31] set (01 R14). -/
def State.logRefusal (s : State) (source detail : Nat) : State :=
  s.logEvent 0x02 source (0x80000000#32 ||| (Config.logCode s.tick &&& 0x7FFFFFFF#32)) detail

/-- A reply to an outside party. -/
def State.reply (s : State) (r : LinkReply) : State :=
  { s with att := { s.att with replies := s.att.replies ++ [r] } }

end Sys2Proof.Machine
end

