-- ==== Sys2Proof/Machine/Ages.lean ====
section
/-! DEFINITION. Ages.lean: the age order of tasks, wounds, and the capacity events of a full resource (06 R118, R125, R130,
R131). -/

namespace Sys2Proof.Machine

/-- Is one tuple of origins lexicographically smaller (06 R118)? -/
def originLess : List (Nat × Nat) → List (Nat × Nat) → Bool
  | a :: r, b :: q => a.1 < b.1 || (a.1 == b.1 && originLess r q)
  | _, _ => false

/-- Is a task older than another (06 R118)? -/
def Task.older (a b : Task) : Bool := a.stamp < b.stamp || (a.stamp == b.stamp && originLess a.box b.box)

def State.task? (s : State) (t : Nat) : Option Task := SMap.find? s.tasks.list t

def State.updTask (s : State) (t : Nat) (f : Task → Task) : State :=
  match s.task? t with
  | none => s
  | some x => { s with tasks := { s.tasks with list := SMap.insert s.tasks.list t (f x) } }

/-- Is a task past its commit point (06 R122)? -/
def Task.committing (t : Task) : Bool := match t.state with
  | .committing _ _ => true
  | _ => false

/-- Every request of a task is withdrawn (06 R131, step 1). -/
def State.withdraw (s : State) (t : Nat) : State :=
  { s with tasks := { s.tasks with locks := s.tasks.locks.map (fun q =>
    { q with parked := q.parked.filter (fun p => p.1 != t) }) } }

/-- An abort becomes due, and the task's requests are withdrawn, so that no lock is granted to it after the wound; one that
reaches a task past its commit point, or a task that is pending, is ignored (06 R131). -/
def State.woundTask (s : State) (t cause : Nat) : State :=
  match s.task? t with
  | none => s
  | some x =>
    if x.committing || x.state == .pending || x.abortDue.isSome then s
    else (s.updTask t (fun x => { x with abortDue := some cause })).withdraw t

/-- Is an abort due for a task: it issues nothing more (06 R131)? -/
def State.aborting (s : State) (task : Option Nat) : Bool :=
  match task.bind s.task? with
  | some x => x.abortDue.isSome
  | none => false

/-- Is a task older than another, by number? -/
def State.olderTask (s : State) (a b : Nat) : Bool :=
  match s.task? a, s.task? b with
  | some x, some y => x.older y
  | _, _ => false

/-- The home slice of a physical address (07 R143). -/
def homeSlice (pa : Nat) : Nat := Nat.xor (bitsOf pa 12 7) (bitsOf pa 27 22)

/-- The youngest of some tasks that are younger than a requester. -/
def State.youngest (s : State) (ts : List Nat) (than : Nat) : Option Nat :=
  (ts.filter (fun t => s.olderTask than t)).foldl (fun b t => match b with
    | none => some t
    | some y => if s.olderTask y t then some t else b) none

/-- A capacity event over the tasks that hold the contested resource: the youngest one younger than the requester is
aborted, else the requester itself (06 R130). -/
def State.capacity (s : State) (requester : Nat) (holders : List Nat) : State :=
  match s.youngest holders requester with
  | some t => s.woundTask t 0x04
  | none => s.woundTask requester 0x04

end Sys2Proof.Machine
end

