-- ==== Sys2Proof/Machine/Memory.lean ====
section
/-! DEFINITION. Memory.lean: physical memory and its owners, translation, the L1, write sets, barrier objects, and the
performing of stores (03 R60 to R65; 06 R120, R121; 07; 08). -/

namespace Sys2Proof.Machine

/-! ### Physical memory (02 R22, R23; 07 R146) -/

/-- The owner of a frame: the byte of the FRAME_OWNER table, VALID in bit 7 (02 R22); a partition without a key owns none
(02 R24). -/
def State.frameOwner (s : State) (frame : Nat) : Option Nat :=
  let b := (s.mem.read (s.att.frameOwnerBase + frame)).toNat
  if 128 ≤ b ∧ (SMap.get {} s.att.parts (b % 32)).keyValid then some (b % 32) else none

/-- The FRAME_OWNER table: one byte for each frame, which the system partition alone writes, whatever the table says of the
frames it lies in (02 R22). (log 120, DEDUCED) -/
def State.inOwnerTable (s : State) (pa : Nat) : Bool :=
  decide (s.att.frameOwnerBase ≤ pa) && decide (pa < s.att.frameOwnerBase + 12 * 2 ^ 20)

/-- Is the stack of a frame ready (01 R16, 07 R146)? -/
def State.stackReady (s : State) (frame : Nat) : Bool := s.mgmt.funcReady.getLsbD (frame % 12)

/-- May a partition access a physical address of HBM (02 R23, 07 R146)? -/
def State.owns (s : State) (part pa : Nat) : Bool :=
  let frame := pa / 65536
  decide (frame < Config.frames) && (if s.inOwnerTable pa then part == 0 else s.frameOwner frame == some part)

inductive PhysAnswer where
  | ok
  /-- refused by FRAME_OWNER (02 R23) -/
  | refused
  /-- a stack that is not ready (01 R16) -/
  | notReady
  /-- media poison (07 R148) -/
  | media
  deriving DecidableEq, Repr

/-- What an access to HBM meets; writes do not meet poison. -/
def State.physCheck (s : State) (part pa : Nat) (write : Bool) : PhysAnswer :=
  if !s.owns part pa then .refused
  else if !s.stackReady (pa / 65536) then .notReady
  else if !write && s.poison.contains (pa / 128) then .media
  else .ok

/-- The first line of a run of bytes whose access is not answered with good data, with the answer. -/
def State.rangeCheck (s : State) (part pa n : Nat) (write : Bool) : Option (Nat × PhysAnswer) :=
  ((List.range ((pa + n + 127) / 128 - pa / 128)).map (fun i => max pa ((pa / 128 + i) * 128))).findSome? (fun a =>
    match s.physCheck part a write with
    | .ok => none
    | x => some (a, x))

/-- What an offset of the space names. -/
inductive RegPlace where
  | io (off : Nat)
  | bell (off : Nat)
  | window (core w off : Nat)
  | raise (core x off : Nat)
  | none
  deriving DecidableEq, Repr

def regPlace (off : Nat) : RegPlace :=
  if off < 0x1000000 then .io off
  else if off < 0x1010000 then .bell (off - 0x1000000)
  else if off < 0x100000000 then .none
  else
    let r := off - 0x100000000
    let c := r / 0x20000
    let q := r % 0x20000
    if Config.cores ≤ c then .none
    else if q < 0x4000 then .window c (q / 0x1000) (q % 0x1000)
    else if q < 0x4000 + 0x1000 * Config.contexts then .raise c ((q - 0x4000) / 0x1000) (q % 0x1000)
    else .none

/-- The partition whose accesses are accepted at an offset; 0xFF where none are. -/
def State.regOwner (s : State) (off : Nat) : Nat :=
  match regPlace off with
  | .io _ | .bell _ => 0
  | .window c w _ => (SMap.get {} (s.core c).barWin w).part
  | .raise c x _ => if (s.ctx c x).live then (s.ctx c x).part else 0xFF
  | .none => 0xFF

/-- Is an access of a partition accepted at an offset? -/
def State.regAccepts (s : State) (part off : Nat) : Bool :=
  match regPlace off with
  | .io _ | .bell _ => part == 0
  | .window c w _ => (SMap.get {} (s.core c).barWin w).part == part
  | .raise c x _ => (s.ctx c x).live && (s.ctx c x).part == part
  | .none => false

/-- The event that a refused or early access logs (01 R14, R16; 02 R23): of HBM by its frame, of the register space, to
which FRAME_OWNER and the stacks do not apply, by its offset (07 R147); a refusal names both partitions. -/
def State.logPhys (s : State) (part pa : Nat) (a : PhysAnswer) : State :=
  match a with
  | .refused =>
    if Config.regSpace ≤ pa then
      s.logRefusal 0x600 (pa - Config.regSpace + 2 ^ 64 * part + 2 ^ 72 * s.regOwner (pa - Config.regSpace))
    else
      s.logRefusal (0x400 + pa / 65536 % 12)
        (pa / 65536 + 2 ^ 64 * part + 2 ^ 72 * ((s.frameOwner (pa / 65536)).getD 0xFF))
  | .notReady => s.logRefusal (0x400 + pa / 65536 % 12) (pa / 65536)
  | _ => s

/-! ### Ownership (08 R161) -/

/-- A line without a word. The other word of its aligned 8 B piece goes too unless it is owned, so that no load of 8 B
reads one word of an old store and one of a newer (08 R152). -/
def L1Line.drop (ln : L1Line) (w : Nat) : L1Line :=
  let bit : Word := 1#32 <<< (w % 32)
  let pair : Word := 3#32 <<< (w % 32 / 2 * 2)
  { ln with owned := ln.owned &&& ~~~bit, valid := ln.valid &&& ~~~(bit ||| (pair &&& ~~~ln.owned)) }

/-- A core's copy of a line loses a word: recalled from its owner. -/
def recallWord (l1 : SMap L1Line) (w : Nat) : SMap L1Line :=
  match SMap.find? l1 (w / 32) with
  | none => l1
  | some ln => if ln.owned.getLsbD (w % 32) then SMap.insert l1 (w / 32) (ln.drop w) else l1

/-- Every owner but core `owner` gives a word up (word number: physical address / 4). -/
def State.recall (s : State) (owner : Option Nat) (w : Nat) : State :=
  { s with cores := s.cores.map (fun p => if some p.1 = owner then p else (p.1, { p.2 with l1 := recallWord p.2.l1 w })) }

/-- A core's own copy of a word is dropped, owned or not: an atomic at the home slice. -/
def dropWord (l1 : SMap L1Line) (w : Nat) : SMap L1Line :=
  match SMap.find? l1 (w / 32) with
  | none => l1
  | some ln => SMap.insert l1 (w / 32) (ln.drop w)

/-- A line's non-owned words are evicted (08 R161). -/
def evictLine (l1 : SMap L1Line) (line : Nat) : SMap L1Line :=
  match SMap.find? l1 line with
  | none => l1
  | some ln => if ln.owned = 0 then SMap.erase l1 line else SMap.insert l1 line { ln with valid := ln.valid &&& ln.owned }

/-- Every non-owned word of a core's L1 is dropped (08 R164). -/
def invalidateL1 (c : Core) : Core :=
  let kept := c.l1.map (fun p => (p.1, { p.2 with valid := p.2.valid &&& p.2.owned }))
  { c with l1 := kept.filter (fun p => p.2.valid != 0) }

def wordAt (m : Memory) (w : Nat) : Word := BitVec.ofNat 32 (leNat (m.readBytes (w * 4) 4))

/-- The line of a word is filled with non-owned words, its owned words kept (08 R161). -/
def fillLine (m : Memory) (part : Nat) (l1 : SMap L1Line) (line : Nat) : SMap L1Line :=
  let old := SMap.get { part := part, words := [], valid := 0, owned := 0 } l1 line
  let old := if old.part = part then old else { part := part, words := [], valid := 0, owned := 0 }
  let ws := (List.range 32).foldl
    (fun acc k => if old.valid.getLsbD k then acc else SMap.set 0 acc k (wordAt m (line * 32 + k))) old.words
  SMap.insert l1 line { old with words := ws, valid := 0xFFFFFFFF }

/-- A core's L1 takes a performed store's word as owned (08 R161). -/
def ownWord (part : Nat) (l1 : SMap L1Line) (w : Nat) (v : Word) : SMap L1Line :=
  let old := SMap.get { part := part, words := [], valid := 0, owned := 0 } l1 (w / 32)
  let old := if old.part = part then old else { part := part, words := [], valid := 0, owned := 0 }
  let bit : Word := 1#32 <<< (w % 32)
  let ln := old.drop w
  SMap.insert l1 (w / 32)
    { ln with words := SMap.set 0 ln.words (w % 32) v, valid := ln.valid ||| bit, owned := ln.owned ||| bit }

/-- The words that a run of bytes touches. -/
def wordsOf (a n : Nat) : List Nat := (List.range ((a + n + 3) / 4 - a / 4)).map (fun k => a / 4 + k)

/-- What a frame holds under a key it has stood under before, once it has held `now` under another key, under which it held
`was` when it came there: its data units of 64 B that have not changed since decrypt as they did; the others decrypt to bytes
that nothing lays down (02 R24). -/
def viewUnder (was now old fresh : Memory) : Memory :=
  (List.range 1024).foldl (fun m u =>
    m.writeBytes (64 * u) ((if was.readBytes (64 * u) 64 = now.readBytes (64 * u) 64 then old else fresh).readBytes (64 * u) 64))
    Memory.empty

/-- A frame comes to stand under the key of a partition: content written under another key, of another partition or an
earlier one of its own, decrypts to bytes that nothing lays down, so that no owner reads what the frame held for another; what
stood there under the new key is read again where nothing was written since (02 R23, R24). (log 101, DEDUCED) -/
def State.rekey (s : State) (frame part : Nat) : State :=
  let key := (part, (SMap.get {} s.att.parts part).keyGen)
  match SMap.find? s.att.frameKeys frame with
  | none => { s with att := { s.att with frameKeys := SMap.insert s.att.frameKeys frame key } }
  | some k =>
    if k = key then s
    else
      let base := frame * 65536
      let fresh := Memory.empty.writeBytes 0 (s.freeBytes (2 ^ 40 + 16 * frame) 65536)
      let now := Memory.empty.writeBytes 0 (s.mem.readBytes base 65536)
      let views := SMap.get [] s.att.frameViews frame
      let was := ((views.find? (fun v => v.1 == k)).map Prod.snd).getD now
      let views := (views.filter (fun v => v.1 != k)).map (fun v => (v.1, viewUnder was now v.2 fresh))
      let mine := ((views.find? (fun v => v.1 == key)).map Prod.snd).getD fresh
      { s with mem := s.mem.writeBytes base (mine.readBytes 0 65536)
               att := { s.att with frameKeys := SMap.insert s.att.frameKeys frame key
                                   frameViews := SMap.insert s.att.frameViews frame
                                     ((k, now) :: (key, mine) :: views.filter (fun v => v.1 != key)) } }

/-- The FRAME_OWNER table is moved: every frame that the new one gives a partition with a key stands under its key (02 R22,
R24). (log 101, DEDUCED) -/
def State.moveTable (s : State) (base : Nat) : State :=
  let s : State := { s with att := { s.att with frameOwnerBase := base } }
  let owned := (s.mem.cells.filter (fun c => s.inOwnerTable c.1)).filterMap (fun c =>
    (s.frameOwner (c.1 - base)).map (fun p => (c.1 - base, p)))
  owned.foldl (fun s q => s.rekey q.1 q.2) s

/-- One byte of the FRAME_OWNER table written: VALID is ignored, and logged, for a partition without a key and beyond
the last frame, where the whole byte stays as it was; bits 6 and 5 read zero (02 R22, R24; 07 R146). (log 131, DESIGN CHOICE) -/
def State.putOwner (s : State) (a : Nat) (b : Byte) : State :=
  let frame := a - s.att.frameOwnerBase
  let n := b.toNat
  if 128 ≤ n ∧ (!(SMap.get {} s.att.parts (n % 32)).keyValid ∨ Config.frames ≤ frame) then
    s.logRefusal (0x400 + frame % 12) frame
  else
    let s := if 128 ≤ n then s.rekey frame (n % 32) else s
    { s with mem := s.mem.write a (b &&& 0x9F#8) }

/-- Bytes that reach HBM; the FRAME_OWNER table lies in it (02 R22). -/
def State.putMem (s : State) (pa : Nat) (bs : List Byte) : State :=
  let base := s.att.frameOwnerBase
  if pa + bs.length ≤ base ∨ base + 12 * 2 ^ 20 ≤ pa then { s with mem := s.mem.writeBytes pa bs }
  else
    (List.zip (List.range bs.length) bs).foldl (fun s p =>
      let a := pa + p.1
      if base ≤ a ∧ a < base + 12 * 2 ^ 20 then s.putOwner a p.2 else { s with mem := s.mem.write a p.2 }) s

/-- Pages written with zeros by the hardware (02 R26, R44): no L1 keeps a word of them, so that no later load reads what
stood there. -/
def State.zeroRange (s : State) (a n : Nat) : State :=
  let hit : Nat → Bool := fun line => a < (line + 1) * 128 && line * 128 < a + n
  { s with mem := s.mem.zero a n
           poison := s.poison.filter (fun l => !hit l)
           cores := s.cores.map (fun p => (p.1, { p.2 with l1 := p.2.l1.filter (fun l => !hit l.1) })) }

/-- The event of a run of bytes that is refused or comes early. -/
def State.logRange (s : State) (part pa n : Nat) (write : Bool) : State :=
  match s.rangeCheck part pa n write with
  | some (a, x) => s.logPhys part a x
  | none => s

/-- 4 KiB pages of a partition written with zeros by the hardware, each as the HBM controller answers: a page that it refuses,
or that comes before its stack is ready, is left and logged (01 R16; 02 R23). -/
def State.zeroPages (s : State) (part page n : Nat) : State :=
  (List.range n).foldl (fun s i =>
    let a := (page + i) * 4096
    match s.physCheck part a true with
    | .ok => s.zeroRange a 4096
    | x => s.logPhys part a x) s

/-- Bytes written at the home slice after recalling every owner: atomics, engines and outside parties (08 R151). The
poison of every line that is written whole goes (07 R148). -/
def State.homeWrite (s : State) (pa : Nat) (bs : List Byte) : State :=
  let s := (wordsOf pa bs.length).foldl (fun s w => s.recall none w) s
  let s := s.putMem pa bs
  { s with poison := s.poison.filter (fun l => !(pa ≤ l * 128 && (l + 1) * 128 ≤ pa + bs.length)) }

/-- A store by a compute flow performs: its words are registered as owned by the core (08 R151, R161). -/
def State.ownedWrite (s : State) (core part pa : Nat) (bs : List Byte) : State :=
  let ws := wordsOf pa bs.length
  let s := ws.foldl (fun s w => s.recall (some core) w) s
  let s := s.putMem pa bs
  s.updCore core (fun c => { c with l1 := ws.foldl (fun l w => ownWord part l w (wordAt s.mem w)) c.l1 })

/-! ### Write sets (06 R120, R121) -/

def State.specOf (s : State) (task w : Nat) : Option Word :=
  (s.tasks.spec.find? (fun e => e.task == task && e.pa == w)).map SpecWord.val

/-- Bytes laid over a word. -/
def mergeWord (w : Nat) (v : Word) (pa : Nat) (bs : List Byte) : Word :=
  BitVec.ofNat 32 (leNat ((List.range 4).map (fun k =>
    let a := w * 4 + k
    if pa ≤ a ∧ a < pa + bs.length then bs.getD (a - pa) 0 else v.extractLsb' (8 * k) 8)))

/-- One word registered in a task's write set (06 R120): the first registration counts against the budget. -/
def State.registerWord (s : State) (task w : Nat) (v : Word) : State :=
  let t := s.tasks
  if t.spec.any (fun e => e.task == task && e.pa == w) then
    { s with tasks := { t with spec := t.spec.map (fun e => if e.task = task ∧ e.pa = w then { e with val := v } else e) } }
  else
    let upd : Task → Task := fun x => { x with wset := x.wset + 1 }
    { s with tasks := { t with spec := t.spec ++ [⟨task, w, v⟩]
                               list := match SMap.find? t.list task with
                                 | none => t.list
                                 | some x => SMap.insert t.list task (upd x) } }

/-- A store of a task performs into its write set. -/
def State.specWrite (s : State) (task pa : Nat) (bs : List Byte) : State :=
  (wordsOf pa bs.length).foldl (fun s w =>
    let old := (s.specOf task w).getD (wordAt s.mem w)
    s.registerWord task w (mergeWord w old pa bs)) s

/-- Does a registration of words find a slice full: the slice whose entries of all tasks, at most 32,768, leave no room (06
R123)? -/
def State.fullSlice (s : State) (task : Nat) (ws : List Nat) : Option Nat :=
  let new := ws.eraseDups.filter (fun w => (s.specOf task w).isNone)
  let at_ : Nat → Nat := fun w => homeSlice (w * 4)
  ((new.map at_).eraseDups).find? (fun n =>
    32768 < (s.tasks.spec.filter (fun e => at_ e.pa == n)).length + (new.filter (fun w => at_ w == n)).length)

/-- The capacity event of a full slice, over the tasks with entries there (06 R130). -/
def State.sliceCapacity (s : State) (task slice : Nat) : State :=
  s.capacity task (((s.tasks.spec.filter (fun e => homeSlice (e.pa * 4) == slice)).map SpecWord.task).eraseDups)

/-- Do stores of a task wait for room in a slice: it issues nothing until they are registered (06 R130)? (log 54, DEDUCED) -/
def State.awaitsRoom (s : State) (task : Option Nat) : Bool := s.sent.any (fun e => e.task.isSome && e.task == task)

/-- A write set larger than WSET_BUDGET makes a budget event of the flow that issued the store (06 R128). -/
def State.noteBudget (s : State) (c x f : Nat) : State :=
  let k := s.ctx c x
  match k.task.bind (SMap.find? s.tasks.list), SMap.find? s.grids k.grid with
  | some t, some g =>
    if fieldAt g.pkt.bytes 32 4 < t.wset ∧ k.budgetEvent.isNone then s.setCtx c x { k with budgetEvent := some (0x08, f) }
    else s
  | _, _ => s

/-- The same for a task whose context is saved: the event is taken once it is back. -/
def State.noteBudgetSaved (s : State) (task f : Nat) : State :=
  match s.task? task with
  | none => s
  | some t => match SMap.find? s.grids t.grid with
    | none => s
    | some g =>
      if fieldAt g.pkt.bytes 32 4 < t.wset then
        { s with parkedCtxs := s.parkedCtxs.map (fun p =>
            if p.2.task = some task ∧ p.2.budgetEvent.isNone then (p.1, { p.2 with budgetEvent := some (0x08, f) }) else p) }
      else s

/-- The bytes a task reads at the home slice: its speculative words over the committed ones. -/
def State.taskBytes (s : State) (task pa n : Nat) : List Byte :=
  (List.range n).map (fun k =>
    match s.specOf task ((pa + k) / 4) with
    | some v => v.extractLsb' (8 * ((pa + k) % 4)) 8
    | none => s.mem.read (pa + k))

/-! ### Translation (03 R60 to R65) -/

/-- A translated address: a local physical address or one of a peer device. -/
structure Place2 where
  pa : Nat
  peer : Option Nat
  deriving DecidableEq, Repr

/-- A translation's failure: cause and DETAIL (03 R53), and the table entry whose read was not answered with good data. -/
structure TransFault where
  cause : Nat
  detail : Nat
  table : Option (Nat × PhysAnswer) := none
  deriving DecidableEq, Repr

/-- FAULT_ADDR of a failed translation: the address, or the physical line of a poisoned table (07 R148). -/
def TransFault.addr (f : TransFault) (va : Nat) : Nat :=
  match f.table with
  | some (ea, .media) => ea / 128 * 128
  | _ => va

/-- Shift of the index, number of entries and leaf size of a level (03 R61). -/
def levelShift (l : Nat) : Nat := match l with | 4 => 45 | 3 => 36 | 2 => 30 | 1 => 21 | _ => 12
def levelEntries (l : Nat) : Nat := match l with | 4 => 4096 | 2 => 64 | _ => 512

/-- Is a page-table entry malformed at a level (03 R62, 07 R147)? -/
def malformed (l e : Nat) : Bool :=
  let leaf := e / 2 % 2 == 1
  let contig := e / 16 % 2 == 1
  let peer := e / 256 % 2 == 1
  let reg := bitsOf e 51 51 == 1 && !(leaf && peer)
  let low := if leaf && !(l == 0) then bitsOf e (levelShift l - 1) 12 != 0 else false
  bitsOf e 3 3 != 0 || bitsOf e 7 7 != 0 || bitsOf e 11 9 != 0
    || (!(leaf && peer) && bitsOf e 63 52 != 0) || low || (!leaf && l == 0) || (leaf && l == 4)
    || (contig && l != 0) || (peer && !leaf) || (reg && (!leaf || l != 0 || contig))

/-- What one entry of a walk gives: the walk's answer, or the table below. A table frame not owned by the space's partition is
DETAIL 0x2 (03 R53). So is one in a stack that is not ready, for which the manual names no cause; a poisoned line of a table is
cause 0x15, DETAIL 0x1 (07 R148). (log 100, DESIGN CHOICE) -/
def State.walkEntry (s : State) (part l ea : Nat) : Except TransFault ((Nat × Nat × Nat) ⊕ Nat) :=
  match s.physCheck part ea false with
  | .media => .error ⟨0x15, 0x1, some (ea, .media)⟩
  | .refused => .error ⟨0x07, 0x2, some (ea, .refused)⟩
  | .notReady => .error ⟨0x07, 0x2, some (ea, .notReady)⟩
  | .ok =>
    let e := leNat (s.mem.readBytes ea 8)
    if e % 2 = 0 then .error ⟨0x07, 0x0, none⟩
    else if malformed l e then .error ⟨0x07, 0x2, none⟩
    else if e / 2 % 2 = 1 then .ok (.inl (ea, e, l))
    else .ok (.inr (bitsOf e 51 12 * 4096))

/-- The address of the entry of a table of a level that an address goes through (03 R61). -/
def entryOf (va l base : Nat) : Nat := base + (va / 2 ^ levelShift l % levelEntries l) * 8

/-- One walk: the leaf's entry address, the leaf and its level (03 R61, R62). No level lies below 0. -/
def State.walk (s : State) (part va : Nat) : Nat → Nat → Except TransFault (Nat × Nat × Nat)
  | 0, base => match s.walkEntry part 0 (entryOf va 0 base) with
    | .error f => .error f
    | .ok (.inl r) => .ok r
    | .ok (.inr _) => .error ⟨0x07, 0x2, none⟩
  | l + 1, base => match s.walkEntry part (l + 1) (entryOf va (l + 1) base) with
    | .error f => .error f
    | .ok (.inl r) => .ok r
    | .ok (.inr next) => s.walk part va l next

/-- The event of a table read that was refused or came early (01 R16; 02 R23; 03 R60). -/
def State.logTable (s : State) (part : Nat) (f : TransFault) : State :=
  match f.table with
  | some (ea, a) => s.logPhys part ea a
  | none => s

/-- The pointer entries that a walk reads on its way down, as a walk cache keeps them. -/
def State.pointers (s : State) (asid va : Nat) : Nat → Nat → List WalkEntry
  | 0, _ => []
  | l + 1, base =>
    let e := leNat (s.mem.readBytes (entryOf va (l + 1) base) 8)
    if e % 2 = 0 ∨ malformed (l + 1) e ∨ e / 2 % 2 = 1 then []
    else
      let next := bitsOf e 51 12 * 4096
      ⟨asid, l + 1, va / 2 ^ levelShift (l + 1), next⟩ :: s.pointers asid va l next

/-- Where a walk begins: behind the lowest pointer entry that the section's walk cache answers, else at the root (03 R65). -/
def State.walkStart (s : State) (sec asid va root : Nat) : Nat × Nat :=
  let hit : Nat → Option WalkEntry := fun l => ((s.sect sec).walkCache).find? (fun e =>
    e.asid == asid && e.level == l && e.va == va / 2 ^ levelShift l && Config.tlbKeeps s.tick)
  match [1, 2, 3, 4].findSome? hit with
  | some e => (e.level - 1, e.base)
  | none => (4, root)

/-- The pointers of a walk enter the section's walk cache of 64 entries (03 R65). -/
def State.cacheWalk (s : State) (sec : Nat) (ps : List WalkEntry) : State :=
  if ps = [] then s
  else s.updSect sec (fun x => { x with walkCache := (ps ++ x.walkCache.filter (fun e => !ps.contains e)).take 64 })

/-- An entry enters the section's TLB of 4,096 entries in sets of eight (03 R65). -/
def fillTlb (t : TlbEntry) (es : List TlbEntry) : List TlbEntry :=
  let set : TlbEntry → Nat := fun e => Config.tlbSet e.asid e.va % 512
  let same := (es.filter (fun e => set e == set t)).take 7
  t :: es.filter (fun e => set e != set t || same.contains e)

/-- The leaf through which a CONTIG page translates: its own, or as though the block were contiguous from its lowest
entry (03 R64). A page of the block whose own entry is invalid, or has CONTIG = 0, is translated through its own entry: R64
leaves both open, and the model takes the block's only where the page's own entry asks for it. (log 102, DESIGN CHOICE) -/
def State.contigLeaf (s : State) (ea e va : Nat) : Nat × Nat :=
  if e / 16 % 2 = 1 ∧ Config.freeBool s.tick then
    let low := leNat (s.mem.readBytes (ea / 128 * 128) 8)
    if low % 2 = 1 ∧ !malformed 0 low ∧ low / 2 % 2 = 1 then
      (low, (bitsOf low 51 12 + va / 4096 % 16) * 4096)
    else (e, bitsOf e 51 12 * 4096)
  else (e, bitsOf e 51 12 * 4096)

/-- A cached leaf that answers an access. -/
def tlbHit (s : State) (es : List TlbEntry) (asid va : Nat) (write : Bool) : Option TlbEntry :=
  es.find? (fun e => e.asid == asid && e.va == va / e.size * e.size && (!write || (e.write && e.dirty)) &&
    Config.tlbKeeps s.tick)

def entryPlace (e : TlbEntry) (va : Nat) : Place2 := ⟨e.pa + va % e.size, e.peer⟩

/-- The address of an access in an address space, as core `core` translates it (03 R65): TLBs first, then the walk,
which sets ACCESSED and DIRTY (03 R63) and fills the TLBs; a write that its leaf refuses caches no leaf. Bits [63:57] set
are DETAIL 0x3 (03 R53). (log 127, DEDUCED) -/
def State.translate (s : State) (core asid va : Nat) (write : Bool) : State × Except TransFault Place2 :=
  if 2 ^ 57 ≤ va then (s, .error ⟨0x07, 0x3, none⟩)
  else
    let sec := State.sectOf core
    match tlbHit s ((s.core core).l1tlb ++ (s.sect sec).tlb) asid va write with
    | some e => (s, .ok (entryPlace e va))
    | none =>
      let sp := SMap.get {} s.aspaces asid
      if !sp.valid then (s, .error ⟨0x07, 0x0, none⟩)
      else
        let from_ := s.walkStart sec asid va sp.root
        match s.walk sp.part va from_.1 from_.2 with
        | .error f => (s.logTable sp.part f, .error f)
        | .ok (ea, e0, l) =>
          let s := s.cacheWalk sec (s.pointers asid va from_.1 from_.2)
          let pr := if l = 0 then s.contigLeaf ea e0 va else (e0, bitsOf e0 51 12 * 4096)
          let e := pr.1
          let peer := if e / 256 % 2 = 1 then some (bitsOf e 63 50) else none
          let base := if e / 256 % 2 = 1 then pr.2 % 2 ^ 50 else pr.2
          let canWrite := e / 4 % 2 = 1
          if write ∧ !canWrite then (s, .error ⟨0x08, 0x0, none⟩)
          else
            let s := s.homeWrite ea (leBytes 8 (e0 ||| (if write then 0x60 else 0x20)))
            let size := 2 ^ levelShift l
            let t : TlbEntry :=
              { asid := asid, va := va / size * size, size := size, pa := base, write := canWrite
                dirty := write || e0 / 64 % 2 == 1, peer := peer }
            let s := s.updCore core (fun c => { c with l1tlb := (t :: c.l1tlb).take 64 })
            let s := s.updSect sec (fun x => { x with tlb := fillTlb t x.tlb })
            (s, .ok (entryPlace t va))

/-! ### Barrier objects (16 R327, R328) -/

structure Barrier where
  phase : Nat
  texp : Nat
  tcnt : Nat
  bbase : Nat
  bexp : Nat
  bcnt : Nat
  tadj : Nat
  deriving DecidableEq, Repr

def Barrier.ofBytes (bs : List Byte) : Barrier :=
  { phase := fieldAt bs 0 4, texp := fieldAt bs 4 4, tcnt := fieldAt bs 8 4, bbase := fieldAt bs 12 4
    bexp := fieldAt bs 16 4, bcnt := fieldAt bs 20 4, tadj := fieldAt bs 24 4 }

def Barrier.toBytes (b : Barrier) : List Byte :=
  leBytes 4 b.phase ++ leBytes 4 b.texp ++ leBytes 4 b.tcnt ++ leBytes 4 b.bbase ++ leBytes 4 b.bexp
    ++ leBytes 4 b.bcnt ++ leBytes 4 b.tadj

/-- The completions of the counting step's loop (16 R328), with the number of phases completed; the fuel bounds the
arrivals that can complete phases. -/
def Barrier.complete (b : Barrier) : Nat → Barrier × Nat
  | 0 => (b, 0)
  | fuel + 1 =>
    let e := max b.texp 1
    if e ≤ b.tcnt ∧ b.bexp ≤ b.bcnt then
      let r := Barrier.complete
        { b with tcnt := b.tcnt - e, bcnt := b.bcnt - b.bexp, texp := max (b.texp - b.tadj) 1, tadj := 0
                 bexp := b.bbase, phase := (b.phase + 1) % 2 ^ 32 } fuel
      (r.1, r.2 + 1)
    else (b, 0)

/-- One counting step with k thread arrivals and b bytes (16 R328). Every completion takes at least one arrival, so
the count of arrivals bounds them. -/
def Barrier.count (x : Barrier) (k b : Nat) : Barrier × Nat :=
  let y := { x with tcnt := (x.tcnt + k) % 2 ^ 32, bcnt := (x.bcnt + b) % 2 ^ 32 }
  y.complete (y.tcnt + 1)

/-- Is phase n complete (16 R328)? -/
def Barrier.phaseDone (x : Barrier) (n : Nat) : Bool :=
  let d := (x.phase + 2 ^ 32 - n % 2 ^ 32) % 2 ^ 32
  1 ≤ d && d < 2 ^ 31

def State.barrierAt (s : State) (core off : Nat) : Barrier :=
  Barrier.ofBytes ((s.core core).spad.readBytes off 32)

def State.spadWrite (s : State) (core off : Nat) (bs : List Byte) : State :=
  s.updCore core (fun c => { c with spad := c.spad.writeBytes off bs })

/-- The context whose grant holds an offset of a core's scratchpad. -/
def State.grantAt (s : State) (core at_ : Nat) : Option (Nat × Ctx) :=
  List.find? (fun (p : Nat × Ctx) => p.2.live && p.2.spadBase ≤ at_ && at_ < p.2.spadBase + p.2.spadLen) (s.core core).ctxs

/-- Bytes laid over the old values that an undo log keeps of scratchpad words, at an offset of the context's grant. -/
def Ctx.overUndo (k : Ctx) (off : Nat) (bs : List Byte) : Ctx :=
  { k with undoVals := k.undoVals.map (fun p => (p.1, mergeWord p.1 p.2 off bs)) }

/-- Bytes that a party other than a context stores into its scratchpad: they stand there through a rollback of the context,
which takes its own stores back and no other's (16 R323; 10 R214). (log 121, DEDUCED) -/
def State.foreignSpad (s : State) (core x off : Nat) (bs : List Byte) : State :=
  let k := s.ctx core x
  let s := s.spadWrite core (k.spadBase + off) bs
  if k.undoVals = [] then s else s.setCtx core x (k.overUndo off bs)

/-- The same at an offset of the core's scratchpad: of whichever context's grant holds it. -/
def State.landSpad (s : State) (core at_ : Nat) (bs : List Byte) : State :=
  match s.grantAt core at_ with
  | some p => s.foreignSpad core p.1 (at_ - p.2.spadBase) bs
  | none => s.spadWrite core at_ bs

/-- The partition of the context whose grant holds an offset of a core's scratchpad. -/
def State.grantPart (s : State) (core off : Nat) : Nat :=
  ((s.grantAt core off).map (fun p => p.2.part)).getD 0

/-- The batch slots that are leaving on an object begin to zero when its phase completes (02 R44): their pages, in the
kernel's partition (02 R43), are written with zeros before any waiter is released. -/
def State.slotsLeave (s : State) (core off : Nat) : State :=
  s.att.batch.foldl (fun s p =>
    let b := p.2
    if b.state = 2 ∧ b.core = core ∧ b.index * 32 = off then
      let s := s.zeroPages (s.grantPart core off) b.zeroBase b.zeroPages
      { s with att := { s.att with batch := SMap.insert s.att.batch p.1 { b with state := 3, made := 0 } } }
    else s) s

/-- A counting step on the object at a core's scratchpad offset; `bexp` is added to B_EXP first (16 R328, R330). -/
def State.countStep (s : State) (core off k b bexp : Nat) : State :=
  let x := s.barrierAt core off
  let x := { x with bexp := (x.bexp + bexp) % 2 ^ 32 }
  let r := x.count k b
  let s := s.landSpad core off r.1.toBytes
  if r.2 = 0 then s
  else
    { s.slotsLeave core off with
      att := { (s.slotsLeave core off).att with
        batch := (s.slotsLeave core off).att.batch.map (fun p =>
          if p.2.core = core ∧ p.2.index * 32 = off then (p.1, { p.2 with made := 0 }) else p) } }

/-! ### Performing a buffered store (08 R157; 06 R121) -/

/-- Where a team of a grid is on-core. -/
def State.teamOn (s : State) (grid team : Nat) : Option (Nat × Nat) :=
  s.cores.findSome? (fun p => (List.find? (fun (q : Nat × Ctx) =>
    q.2.live && !q.2.handler && q.2.grid == grid && q.2.team == team) p.2.ctxs).map (fun q => (p.1, q.1)))

/-- Is a team off-core, in its save area? -/
def State.teamOff (s : State) (grid team : Nat) : Bool :=
  s.parkedCtxs.any (fun p => !p.2.handler && p.2.grid == grid && p.2.team == team)

/-- A store to a peer team's scratchpad, where the team takes it now: not while it is off-core, and not during its
rollback and the reruns (08 R160). A team that has ended takes none. -/
def State.peerSpadStore (s : State) (grid team off : Nat) (bs : List Byte) : Option State :=
  match s.teamOn grid team with
  | some (c, x) =>
    if (SMap.find? (s.core c).rolled x).isSome then none
    else some (s.foreignSpad c x off bs)
  | none => if s.teamOff grid team then none else some s

/-- A store stays outstanding after it has left the tack buffer of a context. -/
def State.sendStore (s : State) (core x : Nat) (t : TackStore) (task : Option Nat := none) : State :=
  let s := s.updCtx core x (fun k => { k with sent := k.sent ++ [s.nextSent] })
  { s with sent := s.sent ++ [⟨s.nextSent, t.dst, t.bytes, t.va, task, t.flow, (s.ctx core x).asid⟩], nextSent := s.nextSent + 1 }

/-- A store of a task performs into its write set; one that finds a slice full makes its capacity event and waits, and those
behind it with it (06 R123, R130). -/
def State.taskStore (s : State) (core x task pa : Nat) (t : TackStore) : State :=
  match s.fullSlice task (wordsOf pa t.bytes.length) with
  | some n => (s.sliceCapacity task n).sendStore core x t (some task)
  | none =>
    if s.awaitsRoom (some task) then s.sendStore core x t (some task)
    else (s.specWrite task pa t.bytes).noteBudget core x t.flow

/-- Does a trained port that has not failed reach a peer device (02 R37, R39, R40)? -/
def State.peerReached (s : State) (dev : Nat) : Bool :=
  s.att.portPeer.any (fun p => p.2 == dev && s.mgmt.funcReady.getLsbD (12 + p.1) && !s.att.portFailed.getLsbD p.1)

/-- A context's peer store is dropped; its address is kept for the next drain, release or arrival (02 R39). One that a release
already covers raises its trap at that release (08 R163). -/
def Ctx.peerLost (k : Ctx) (va : Dword) (tag : Option Nat := none) : Ctx :=
  match k.released with
  | some r =>
    if tag.any r.tags.contains && k.loads.all (fun l => l.tag != 0) then
      { k with loads := k.loads ++ [⟨0, [], some { r.trap with fault := va }, 0, none, r.flow⟩] }
    else { k with peerFailed := some (k.peerFailed.getD va) }
  | none => { k with peerFailed := some (k.peerFailed.getD va) }

/-- A task's store into its write set, or one of a plain context at the home slice, where the home slice takes it; one
that it refuses is dropped and logged (02 R23; 06 R120). (log 6, DESIGN CHOICE) -/
def State.checkedWrite (s : State) (part pa : Nat) (put : State → State) : State :=
  match s.physCheck part pa true with
  | .ok => put s
  | a => s.logPhys part pa a

/-- A store leaves the tack buffer of context x and performs; one that its home slice refuses is dropped and logged. (log 6, DESIGN CHOICE) -/
def State.performStore (s : State) (core x : Nat) (k : Ctx) (t : TackStore) : State :=
  match t.dst with
  | .spad grid team off => (s.peerSpadStore grid team off t.bytes).getD (s.sendStore core x t)
  | .peer dev pa =>
    if s.peerReached dev then (s.reply (.peerWrite dev pa t.bytes)).sendStore core x t
    else s.updCtx core x (fun k => k.peerLost t.va)
  | .mem pa =>
    s.checkedWrite k.part pa (fun s => match k.task with
      | some task => s.taskStore core x task pa t
      | none => s.ownedWrite core k.part pa t.bytes)

/-- A task's first store that waits for room performs where there is room by now; where there is none, the capacity event
repeats (06 R130). -/
def State.retryRoom (s : State) (e : SentStore) (task pa : Nat) : State :=
  if (s.sent.find? (fun q => q.task == some task)).map SentStore.tag != some e.tag then s
  else match s.fullSlice task (wordsOf pa e.bytes.length) with
    | some n => s.sliceCapacity task n
    | none =>
      let s := s.specWrite task pa e.bytes
      let s := { s with sent := s.sent.filter (fun q => q.tag != e.tag) }
      match (s.task? task).map Task.state with
      | some (.running c x) => s.noteBudget c x e.flow
      | some (.saved _ _) => s.noteBudgetSaved task e.flow
      | _ => s

/-- The stores that wait for a peer team perform once it takes them (08 R160), those of tasks once their slice has room. -/
def State.retrySent (s : State) : State :=
  s.sent.foldl (fun s e => match e.dst with
    | .mem pa => match e.task with
      | some t => s.retryRoom e t pa
      | none => s
    | .spad grid team off =>
      match s.peerSpadStore grid team off e.bytes with
      | some t => { t with sent := t.sent.filter (fun q => q.tag != e.tag) }
      | none => s
    | _ => s) s

/-- A peer device acknowledges a store (08 R163). -/
def State.ackStore (s : State) (tag : Nat) : State := { s with sent := s.sent.filter (fun e => e.tag != tag) }

/-- A context's stores that are not done, of those that a scope covers: stores to peer devices at `.sys` (08 R163), to peer
teams at `.patch` and beyond. -/
def State.covered (s : State) (k : Ctx) (scope : Nat) : List SentStore :=
  s.sent.filter (fun e => k.sent.contains e.tag && (match e.dst with
    | .peer _ _ => scope == 5
    | .mem _ => true
    | .spad _ _ _ => decide (3 ≤ scope)))

/-- Has a context stores that are not done, of those that a scope covers? -/
def State.unsent (s : State) (k : Ctx) (scope : Nat) : Bool := s.covered k scope != []

/-- The latest byte of the tack buffer for a place (08 R155). -/
def tackByte (tack : List TackStore) (f : StoreDst → Option Nat) (a : Nat) : Option Byte :=
  tack.foldl (fun b t => match f t.dst with
    | none => b
    | some base => if base ≤ a ∧ a < base + t.bytes.length then t.bytes[a - base]? else b) none

/-- A context's stores that have been sent and are not done, as its loads see them, and then those of its tack buffer (08
R155). -/
def State.ownStores (s : State) (k : Ctx) : List TackStore :=
  (s.sent.filter (fun e => k.sent.contains e.tag)).map (fun e => ⟨e.dst, e.bytes, e.va, e.flow⟩) ++ k.tack

/-- A byte of a peer device's memory as a context reads it: its own stores that are not done first (08 R155); what the peer answers
is from outside the device. -/
def State.viewPeer (s : State) (core x dev a : Nat) (other : Byte) : Byte :=
  let pick : StoreDst → Option Nat := fun d => match d with
    | .peer dev' pa => if dev' = dev then some pa else none
    | _ => none
  (tackByte (s.ownStores (s.ctx core x)) pick a).getD other

/-- The new value of an atomic on n bits (16 R320). -/
def atomNew (sub n old b cmp : Nat) : Nat :=
  let si := sextInt n
  match sub with
  | 0 => (old + b) % 2 ^ n
  | 1 => if si b < si old then b else old
  | 2 => min old b
  | 3 => if si old < si b then b else old
  | 4 => max old b
  | 5 => Nat.land old b
  | 6 => Nat.lor old b
  | 7 => Nat.xor old b
  | 8 => b
  | 9 => if old = cmp then b else old
  | _ => f32.rnd 0 (exactSum 0 [f32.val old, f32.val b])

end Sys2Proof.Machine
end

