-- ==== Sys2Proof/Decode.lean ====
section
/-! DEFINITION. Decode.lean: op words, extended words, parcels and bundles read from bytes (11 R220 to R229, 13 R257
to R263), and the encoder of the same tables. -/

namespace Sys2Proof

/-! ### Fields of an op word (11 R224) -/

def fMajor (w : Word) : BitVec 7 := w.extractLsb' 24 7
def fD (w : Word) : BitVec 6 := w.extractLsb' 18 6
def fA (w : Word) : BitVec 6 := w.extractLsb' 12 6
def fB (w : Word) : BitVec 6 := w.extractLsb' 6 6
def fG (w : Word) : BitVec 3 := w.extractLsb' 3 3
def fForm (w : Word) : BitVec 2 := w.extractLsb' 0 2

/-- The operand fields of an op word (11 R224). -/
def opF (w : Word) : OpF :=
  { s := w.getLsbD 31, d := fD w, a := fA w, b := fB w, g := fG w, n := w.getLsbD 2 }

/-- The fields of a layout-X extended word (11 R228). -/
def extX (x : Word) : ExtX :=
  { sub := x.extractLsb' 28 4, ty := x.extractLsb' 24 4, ty2 := x.extractLsb' 20 4, rnd := x.extractLsb' 18 2,
    sat := x.getLsbD 17, lge := x.getLsbD 16, lg := x.extractLsb' 13 3, lgn := x.getLsbD 12,
    c := x.extractLsb' 6 6, rsv := x.extractLsb' 0 6 }

/-- The fields of a layout-M extended word (11 R228). -/
def extM (x : Word) : ExtM :=
  { sub := x.extractLsb' 28 4, space := x.extractLsb' 26 2, scope := x.extractLsb' 23 3, width := x.extractLsb' 20 3,
    mx := x.getLsbD 19, rsv := x.extractLsb' 17 2, lge := x.getLsbD 16, lg := x.extractLsb' 13 3,
    lgn := x.getLsbD 12, off := x.extractLsb' 0 12 }

/-- The op word of a major, its operand fields and its form (11 R224). -/
def encOp (maj : BitVec 7) (f : OpF) (form : BitVec 2) : Word :=
  BitVec.ofBool f.s ++ maj ++ f.d ++ f.a ++ f.b ++ f.g ++ BitVec.ofBool f.n ++ form

/-- The layout-X extended word (11 R228). -/
def encX (x : ExtX) : Word :=
  x.sub ++ x.ty ++ x.ty2 ++ x.rnd ++ BitVec.ofBool x.sat ++ BitVec.ofBool x.lge ++ x.lg ++ BitVec.ofBool x.lgn
    ++ x.c ++ x.rsv

/-- The layout-M extended word (11 R228). -/
def encM (m : ExtM) : Word :=
  m.sub ++ m.space ++ m.scope ++ m.width ++ BitVec.ofBool m.mx ++ m.rsv ++ BitVec.ofBool m.lge ++ m.lg
    ++ BitVec.ofBool m.lgn ++ m.off

/-! ### Rejections of the decoder -/

/-- Why a word is no instruction. -/
inductive DecodeError where
  /-- cause 0x02, DETAIL 0 (13 R258) -/
  | unassignedMajor
  /-- cause 0x02: a selector that R260 does not list -/
  | selector
  /-- cause 0x02: a SUB that R261 and R262 do not assign (13 R263) -/
  | sub
  /-- cause 0x03, DETAIL 0x02: a form the major does not accept (11 R225), with the op word's fields -/
  | form (n : Info)
  /-- cause 0x03, DETAIL 0x04: parcel kind 0b01, or a pad or reference with reserved bits set (11 R221) -/
  | parcel
  /-- cause 0x03, DETAIL 0x01: a bundle header with reserved bits set (11 R222) -/
  | header
  /-- the fetch runs past the bytes given (11 R231: cause 0x07, DETAIL 0x1) -/
  | short
  deriving DecidableEq, Repr

/-! ### Op words -/

/-- The encoding of every instruction of the map (13 R257): MAJOR, selector, FORM, the operand fields and the extended
word; none for an event and for the two items of the VLIW stream that are no op words. -/
def info (i : Instr) : Option Info :=
  match i with
  | .nop f => some ⟨0x00, 0x00, 0, f, .none⟩
  | .sadd f => some ⟨0x01, 0x00, 0, f, .none⟩
  | .saddImm f => some ⟨0x01, 0x00, 1, f, .none⟩
  | .saddExt f x => some ⟨0x01, 0x00, 2, f, (.x x)⟩
  | .ssub f => some ⟨0x02, 0x00, 0, f, .none⟩
  | .ssubImm f => some ⟨0x02, 0x00, 1, f, .none⟩
  | .ssubExt f x => some ⟨0x02, 0x00, 2, f, (.x x)⟩
  | .smul f => some ⟨0x03, 0x00, 0, f, .none⟩
  | .smulImm f => some ⟨0x03, 0x00, 1, f, .none⟩
  | .smulExt f x => some ⟨0x03, 0x00, 2, f, (.x x)⟩
  | .smulh f => some ⟨0x04, 0x00, 0, f, .none⟩
  | .smulhExt f x => some ⟨0x04, 0x00, 2, f, (.x x)⟩
  | .sand f => some ⟨0x05, 0x00, 0, f, .none⟩
  | .sandImm f => some ⟨0x05, 0x00, 1, f, .none⟩
  | .sandExt f x => some ⟨0x05, 0x00, 2, f, (.x x)⟩
  | .sor f => some ⟨0x06, 0x00, 0, f, .none⟩
  | .sorImm f => some ⟨0x06, 0x00, 1, f, .none⟩
  | .sorExt f x => some ⟨0x06, 0x00, 2, f, (.x x)⟩
  | .sxor f => some ⟨0x07, 0x00, 0, f, .none⟩
  | .sxorImm f => some ⟨0x07, 0x00, 1, f, .none⟩
  | .sxorExt f x => some ⟨0x07, 0x00, 2, f, (.x x)⟩
  | .sshl f => some ⟨0x08, 0x00, 0, f, .none⟩
  | .sshlImm f => some ⟨0x08, 0x00, 1, f, .none⟩
  | .sshlExt f x => some ⟨0x08, 0x00, 2, f, (.x x)⟩
  | .sshr f => some ⟨0x09, 0x00, 0, f, .none⟩
  | .sshrImm f => some ⟨0x09, 0x00, 1, f, .none⟩
  | .sshrExt f x => some ⟨0x09, 0x00, 2, f, (.x x)⟩
  | .ssra f => some ⟨0x0A, 0x00, 0, f, .none⟩
  | .ssraImm f => some ⟨0x0A, 0x00, 1, f, .none⟩
  | .ssraExt f x => some ⟨0x0A, 0x00, 2, f, (.x x)⟩
  | .smin f => some ⟨0x0B, 0x00, 0, f, .none⟩
  | .sminImm f => some ⟨0x0B, 0x00, 1, f, .none⟩
  | .sminExt f x => some ⟨0x0B, 0x00, 2, f, (.x x)⟩
  | .smax f => some ⟨0x0C, 0x00, 0, f, .none⟩
  | .smaxImm f => some ⟨0x0C, 0x00, 1, f, .none⟩
  | .smaxExt f x => some ⟨0x0C, 0x00, 2, f, (.x x)⟩
  | .scmp f => some ⟨0x0D, 0x00, 0, f, .none⟩
  | .scmpImm f => some ⟨0x0D, 0x00, 1, f, .none⟩
  | .scmpExt f x => some ⟨0x0D, 0x00, 2, f, (.x x)⟩
  | .ssel f => some ⟨0x0E, 0x00, 0, f, .none⟩
  | .sselExt f x => some ⟨0x0E, 0x00, 2, f, (.x x)⟩
  | .smov f => some ⟨0x0F, 0x00, 0, f, .none⟩
  | .smovExt f x => some ⟨0x0F, 0x00, 2, f, (.x x)⟩
  | .sli f imm => some ⟨0x10, 0x00, 2, f, (.i imm)⟩
  | .slih f imm => some ⟨0x11, 0x00, 2, f, (.i imm)⟩
  | .sadda f => some ⟨0x12, 0x00, 0, f, .none⟩
  | .saddaImm f => some ⟨0x12, 0x00, 1, f, .none⟩
  | .saddaExt f x => some ⟨0x12, 0x00, 2, f, (.x x)⟩
  | .sgets f => some ⟨0x13, 0x00, 0, f, .none⟩
  | .ssets f => some ⟨0x14, 0x00, 0, f, .none⟩
  | .bra f imm => some ⟨0x18, 0x00, 2, f, (.i imm)⟩
  | .brx f => some ⟨0x19, 0x00, 0, f, .none⟩
  | .call f imm => some ⟨0x1A, 0x00, 2, f, (.i imm)⟩
  | .callx f => some ⟨0x1B, 0x00, 0, f, .none⟩
  | .ret f => some ⟨0x1C, 0x00, 0, f, .none⟩
  | .lpadC f => some ⟨0x1D, 0x00, 0, f, .none⟩
  | .lpadJ f => some ⟨0x1D, 0x01, 0, f, .none⟩
  | .seam f => some ⟨0x1E, 0x00, 0, f, .none⟩
  | .loop f imm => some ⟨0x1F, 0x00, 2, f, (.i imm)⟩
  | .lexit f => some ⟨0x20, 0x00, 0, f, .none⟩
  | .collapse f => some ⟨0x21, 0x00, 0, f, .none⟩
  | .collapseN f => some ⟨0x21, 0x00, 1, f, .none⟩
  | .expand f => some ⟨0x22, 0x00, 0, f, .none⟩
  | .yield f => some ⟨0x23, 0x00, 0, f, .none⟩
  | .exit f => some ⟨0x24, 0x00, 0, f, .none⟩
  | .tack f => some ⟨0x25, 0x00, 0, f, .none⟩
  | .ptload f => some ⟨0x26, 0x00, 0, f, .none⟩
  | .add f => some ⟨0x28, 0x00, 0, f, .none⟩
  | .addImm f => some ⟨0x28, 0x00, 1, f, .none⟩
  | .addExt f x => some ⟨0x28, 0x00, 2, f, (.x x)⟩
  | .addPort f => some ⟨0x28, 0x00, 3, f, .none⟩
  | .sub f => some ⟨0x29, 0x00, 0, f, .none⟩
  | .subImm f => some ⟨0x29, 0x00, 1, f, .none⟩
  | .subExt f x => some ⟨0x29, 0x00, 2, f, (.x x)⟩
  | .subPort f => some ⟨0x29, 0x00, 3, f, .none⟩
  | .mul f => some ⟨0x2A, 0x00, 0, f, .none⟩
  | .mulImm f => some ⟨0x2A, 0x00, 1, f, .none⟩
  | .mulExt f x => some ⟨0x2A, 0x00, 2, f, (.x x)⟩
  | .mulPort f => some ⟨0x2A, 0x00, 3, f, .none⟩
  | .mulh f => some ⟨0x2B, 0x00, 0, f, .none⟩
  | .mulhExt f x => some ⟨0x2B, 0x00, 2, f, (.x x)⟩
  | .mulhPort f => some ⟨0x2B, 0x00, 3, f, .none⟩
  | .mad f => some ⟨0x2C, 0x00, 0, f, .none⟩
  | .madExt f x => some ⟨0x2C, 0x00, 2, f, (.x x)⟩
  | .madPort f => some ⟨0x2C, 0x00, 3, f, .none⟩
  | .and f => some ⟨0x2D, 0x00, 0, f, .none⟩
  | .andImm f => some ⟨0x2D, 0x00, 1, f, .none⟩
  | .andExt f x => some ⟨0x2D, 0x00, 2, f, (.x x)⟩
  | .andPort f => some ⟨0x2D, 0x00, 3, f, .none⟩
  | .or f => some ⟨0x2E, 0x00, 0, f, .none⟩
  | .orImm f => some ⟨0x2E, 0x00, 1, f, .none⟩
  | .orExt f x => some ⟨0x2E, 0x00, 2, f, (.x x)⟩
  | .orPort f => some ⟨0x2E, 0x00, 3, f, .none⟩
  | .xor f => some ⟨0x2F, 0x00, 0, f, .none⟩
  | .xorImm f => some ⟨0x2F, 0x00, 1, f, .none⟩
  | .xorExt f x => some ⟨0x2F, 0x00, 2, f, (.x x)⟩
  | .xorPort f => some ⟨0x2F, 0x00, 3, f, .none⟩
  | .not f => some ⟨0x30, 0x00, 0, f, .none⟩
  | .notExt f x => some ⟨0x30, 0x00, 2, f, (.x x)⟩
  | .notPort f => some ⟨0x30, 0x00, 3, f, .none⟩
  | .abs f => some ⟨0x30, 0x01, 0, f, .none⟩
  | .absExt f x => some ⟨0x30, 0x01, 2, f, (.x x)⟩
  | .absPort f => some ⟨0x30, 0x01, 3, f, .none⟩
  | .neg f => some ⟨0x30, 0x02, 0, f, .none⟩
  | .negExt f x => some ⟨0x30, 0x02, 2, f, (.x x)⟩
  | .negPort f => some ⟨0x30, 0x02, 3, f, .none⟩
  | .clz f => some ⟨0x30, 0x03, 0, f, .none⟩
  | .clzExt f x => some ⟨0x30, 0x03, 2, f, (.x x)⟩
  | .clzPort f => some ⟨0x30, 0x03, 3, f, .none⟩
  | .popc f => some ⟨0x30, 0x04, 0, f, .none⟩
  | .popcExt f x => some ⟨0x30, 0x04, 2, f, (.x x)⟩
  | .popcPort f => some ⟨0x30, 0x04, 3, f, .none⟩
  | .brev f => some ⟨0x30, 0x05, 0, f, .none⟩
  | .brevExt f x => some ⟨0x30, 0x05, 2, f, (.x x)⟩
  | .brevPort f => some ⟨0x30, 0x05, 3, f, .none⟩
  | .fadd f => some ⟨0x31, 0x00, 0, f, .none⟩
  | .faddExt f x => some ⟨0x31, 0x00, 2, f, (.x x)⟩
  | .faddPort f => some ⟨0x31, 0x00, 3, f, .none⟩
  | .fsub f => some ⟨0x32, 0x00, 0, f, .none⟩
  | .fsubExt f x => some ⟨0x32, 0x00, 2, f, (.x x)⟩
  | .fsubPort f => some ⟨0x32, 0x00, 3, f, .none⟩
  | .fmul f => some ⟨0x33, 0x00, 0, f, .none⟩
  | .fmulExt f x => some ⟨0x33, 0x00, 2, f, (.x x)⟩
  | .fmulPort f => some ⟨0x33, 0x00, 3, f, .none⟩
  | .fma f => some ⟨0x34, 0x00, 0, f, .none⟩
  | .fmaExt f x => some ⟨0x34, 0x00, 2, f, (.x x)⟩
  | .fmaPort f => some ⟨0x34, 0x00, 3, f, .none⟩
  | .fmin f => some ⟨0x35, 0x00, 0, f, .none⟩
  | .fminExt f x => some ⟨0x35, 0x00, 2, f, (.x x)⟩
  | .fminPort f => some ⟨0x35, 0x00, 3, f, .none⟩
  | .fmax f => some ⟨0x36, 0x00, 0, f, .none⟩
  | .fmaxExt f x => some ⟨0x36, 0x00, 2, f, (.x x)⟩
  | .fmaxPort f => some ⟨0x36, 0x00, 3, f, .none⟩
  | .fcmp f => some ⟨0x37, 0x00, 0, f, .none⟩
  | .fcmpExt f x => some ⟨0x37, 0x00, 2, f, (.x x)⟩
  | .fcmpPort f => some ⟨0x37, 0x00, 3, f, .none⟩
  | .cvt f x => some ⟨0x38, 0x00, 2, f, (.x x)⟩
  | .frnd f => some ⟨0x39, 0x00, 0, f, .none⟩
  | .frndExt f x => some ⟨0x39, 0x00, 2, f, (.x x)⟩
  | .frndPort f => some ⟨0x39, 0x00, 3, f, .none⟩
  | .rcp f => some ⟨0x3A, 0x00, 0, f, .none⟩
  | .rcpExt f x => some ⟨0x3A, 0x00, 2, f, (.x x)⟩
  | .rcpPort f => some ⟨0x3A, 0x00, 3, f, .none⟩
  | .rsq f => some ⟨0x3A, 0x01, 0, f, .none⟩
  | .rsqExt f x => some ⟨0x3A, 0x01, 2, f, (.x x)⟩
  | .rsqPort f => some ⟨0x3A, 0x01, 3, f, .none⟩
  | .sqrt f => some ⟨0x3A, 0x02, 0, f, .none⟩
  | .sqrtExt f x => some ⟨0x3A, 0x02, 2, f, (.x x)⟩
  | .sqrtPort f => some ⟨0x3A, 0x02, 3, f, .none⟩
  | .exp2 f => some ⟨0x3A, 0x03, 0, f, .none⟩
  | .exp2Ext f x => some ⟨0x3A, 0x03, 2, f, (.x x)⟩
  | .exp2Port f => some ⟨0x3A, 0x03, 3, f, .none⟩
  | .log2 f => some ⟨0x3A, 0x04, 0, f, .none⟩
  | .log2Ext f x => some ⟨0x3A, 0x04, 2, f, (.x x)⟩
  | .log2Port f => some ⟨0x3A, 0x04, 3, f, .none⟩
  | .sin f => some ⟨0x3A, 0x05, 0, f, .none⟩
  | .sinExt f x => some ⟨0x3A, 0x05, 2, f, (.x x)⟩
  | .sinPort f => some ⟨0x3A, 0x05, 3, f, .none⟩
  | .cos f => some ⟨0x3A, 0x06, 0, f, .none⟩
  | .cosExt f x => some ⟨0x3A, 0x06, 2, f, (.x x)⟩
  | .cosPort f => some ⟨0x3A, 0x06, 3, f, .none⟩
  | .tanh f => some ⟨0x3A, 0x07, 0, f, .none⟩
  | .tanhExt f x => some ⟨0x3A, 0x07, 2, f, (.x x)⟩
  | .tanhPort f => some ⟨0x3A, 0x07, 3, f, .none⟩
  | .shl f => some ⟨0x3B, 0x00, 0, f, .none⟩
  | .shlImm f => some ⟨0x3B, 0x00, 1, f, .none⟩
  | .shlExt f x => some ⟨0x3B, 0x00, 2, f, (.x x)⟩
  | .shlPort f => some ⟨0x3B, 0x00, 3, f, .none⟩
  | .shr f => some ⟨0x3C, 0x00, 0, f, .none⟩
  | .shrImm f => some ⟨0x3C, 0x00, 1, f, .none⟩
  | .shrExt f x => some ⟨0x3C, 0x00, 2, f, (.x x)⟩
  | .shrPort f => some ⟨0x3C, 0x00, 3, f, .none⟩
  | .sra f => some ⟨0x3D, 0x00, 0, f, .none⟩
  | .sraImm f => some ⟨0x3D, 0x00, 1, f, .none⟩
  | .sraExt f x => some ⟨0x3D, 0x00, 2, f, (.x x)⟩
  | .sraPort f => some ⟨0x3D, 0x00, 3, f, .none⟩
  | .rot f => some ⟨0x3E, 0x00, 0, f, .none⟩
  | .rotImm f => some ⟨0x3E, 0x00, 1, f, .none⟩
  | .rotExt f x => some ⟨0x3E, 0x00, 2, f, (.x x)⟩
  | .rotPort f => some ⟨0x3E, 0x00, 3, f, .none⟩
  | .min f => some ⟨0x3F, 0x00, 0, f, .none⟩
  | .minImm f => some ⟨0x3F, 0x00, 1, f, .none⟩
  | .minExt f x => some ⟨0x3F, 0x00, 2, f, (.x x)⟩
  | .minPort f => some ⟨0x3F, 0x00, 3, f, .none⟩
  | .max f => some ⟨0x40, 0x00, 0, f, .none⟩
  | .maxImm f => some ⟨0x40, 0x00, 1, f, .none⟩
  | .maxExt f x => some ⟨0x40, 0x00, 2, f, (.x x)⟩
  | .maxPort f => some ⟨0x40, 0x00, 3, f, .none⟩
  | .bfe f => some ⟨0x41, 0x00, 0, f, .none⟩
  | .bfeExt f x => some ⟨0x41, 0x00, 2, f, (.x x)⟩
  | .bfePort f => some ⟨0x41, 0x00, 3, f, .none⟩
  | .bfi f => some ⟨0x42, 0x00, 0, f, .none⟩
  | .bfiExt f x => some ⟨0x42, 0x00, 2, f, (.x x)⟩
  | .bfiPort f => some ⟨0x42, 0x00, 3, f, .none⟩
  | .cmp f => some ⟨0x43, 0x00, 0, f, .none⟩
  | .cmpImm f => some ⟨0x43, 0x00, 1, f, .none⟩
  | .cmpExt f x => some ⟨0x43, 0x00, 2, f, (.x x)⟩
  | .cmpPort f => some ⟨0x43, 0x00, 3, f, .none⟩
  | .sel f => some ⟨0x44, 0x00, 0, f, .none⟩
  | .selExt f x => some ⟨0x44, 0x00, 2, f, (.x x)⟩
  | .selPort f => some ⟨0x44, 0x00, 3, f, .none⟩
  | .mov f => some ⟨0x45, 0x00, 0, f, .none⟩
  | .movExt f x => some ⟨0x45, 0x00, 2, f, (.x x)⟩
  | .movPort f => some ⟨0x45, 0x00, 3, f, .none⟩
  | .movi f imm => some ⟨0x46, 0x00, 2, f, (.i imm)⟩
  | .dp4 f => some ⟨0x47, 0x00, 0, f, .none⟩
  | .dp4Ext f x => some ⟨0x47, 0x00, 2, f, (.x x)⟩
  | .dp4Port f => some ⟨0x47, 0x00, 3, f, .none⟩
  | .perm f => some ⟨0x48, 0x00, 0, f, .none⟩
  | .permExt f x => some ⟨0x48, 0x00, 2, f, (.x x)⟩
  | .permPort f => some ⟨0x48, 0x00, 3, f, .none⟩
  | .shfl f => some ⟨0x49, 0x00, 0, f, .none⟩
  | .shflImm f => some ⟨0x49, 0x00, 1, f, .none⟩
  | .shflExt f x => some ⟨0x49, 0x00, 2, f, (.x x)⟩
  | .shflPort f => some ⟨0x49, 0x00, 3, f, .none⟩
  | .vote f => some ⟨0x4A, 0x00, 0, f, .none⟩
  | .voteExt f x => some ⟨0x4A, 0x00, 2, f, (.x x)⟩
  | .votePort f => some ⟨0x4A, 0x00, 3, f, .none⟩
  | .scan f => some ⟨0x4B, 0x00, 0, f, .none⟩
  | .scanExt f x => some ⟨0x4B, 0x00, 2, f, (.x x)⟩
  | .scanPort f => some ⟨0x4B, 0x00, 3, f, .none⟩
  | .red f => some ⟨0x4C, 0x00, 0, f, .none⟩
  | .redExt f x => some ⟨0x4C, 0x00, 2, f, (.x x)⟩
  | .redPort f => some ⟨0x4C, 0x00, 3, f, .none⟩
  | .bcast f => some ⟨0x4D, 0x00, 0, f, .none⟩
  | .bcastImm f => some ⟨0x4D, 0x00, 1, f, .none⟩
  | .bcastExt f x => some ⟨0x4D, 0x00, 2, f, (.x x)⟩
  | .bcastPort f => some ⟨0x4D, 0x00, 3, f, .none⟩
  | .sample f => some ⟨0x4E, 0x00, 0, f, .none⟩
  | .sampleExt f x => some ⟨0x4E, 0x00, 2, f, (.x x)⟩
  | .xmov f => some ⟨0x4F, 0x00, 0, f, .none⟩
  | .ld f => some ⟨0x50, 0x00, 0, f, .none⟩
  | .ldExt f m => some ⟨0x50, 0x00, 2, f, (.m m)⟩
  | .st f => some ⟨0x51, 0x00, 0, f, .none⟩
  | .stExt f m => some ⟨0x51, 0x00, 2, f, (.m m)⟩
  | .atom f => some ⟨0x52, 0x00, 0, f, .none⟩
  | .atomExt f m => some ⟨0x52, 0x00, 2, f, (.m m)⟩
  | .redm f => some ⟨0x53, 0x00, 0, f, .none⟩
  | .redmExt f m => some ⟨0x53, 0x00, 2, f, (.m m)⟩
  | .pexport f => some ⟨0x54, 0x00, 0, f, .none⟩
  | .binit f => some ⟨0x55, 0x00, 0, f, .none⟩
  | .binitExt f m => some ⟨0x55, 0x00, 2, f, (.m m)⟩
  | .barr f => some ⟨0x56, 0x00, 0, f, .none⟩
  | .barrExt f m => some ⟨0x56, 0x00, 2, f, (.m m)⟩
  | .barrx f => some ⟨0x57, 0x00, 0, f, .none⟩
  | .barrxExt f m => some ⟨0x57, 0x00, 2, f, (.m m)⟩
  | .bwait f => some ⟨0x58, 0x00, 0, f, .none⟩
  | .bwaitExt f m => some ⟨0x58, 0x00, 2, f, (.m m)⟩
  | .btest f => some ⟨0x59, 0x00, 0, f, .none⟩
  | .fence f => some ⟨0x5A, 0x00, 0, f, .none⟩
  | .fenceExt f m => some ⟨0x5A, 0x00, 2, f, (.m m)⟩
  | .acq f => some ⟨0x5A, 0x01, 0, f, .none⟩
  | .acqExt f m => some ⟨0x5A, 0x01, 2, f, (.m m)⟩
  | .rel f => some ⟨0x5A, 0x02, 0, f, .none⟩
  | .relExt f m => some ⟨0x5A, 0x02, 2, f, (.m m)⟩
  | .drain f => some ⟨0x5A, 0x03, 0, f, .none⟩
  | .drainExt f m => some ⟨0x5A, 0x03, 2, f, (.m m)⟩
  | .pfence f => some ⟨0x5A, 0x04, 0, f, .none⟩
  | .pfenceExt f m => some ⟨0x5A, 0x04, 2, f, (.m m)⟩
  | .tbar f => some ⟨0x5B, 0x00, 0, f, .none⟩
  | .tbarExt f m => some ⟨0x5B, 0x00, 2, f, (.m m)⟩
  | .pbar f => some ⟨0x5C, 0x00, 0, f, .none⟩
  | .pbarExt f m => some ⟨0x5C, 0x00, 2, f, (.m m)⟩
  | .mma f => some ⟨0x5D, 0x00, 0, f, .none⟩
  | .mmaExt f x => some ⟨0x5D, 0x00, 2, f, (.x x)⟩
  | .mmaq f x => some ⟨0x5E, 0x00, 2, f, (.x x)⟩
  | .mzero f => some ⟨0x5F, 0x00, 0, f, .none⟩
  | .mld f => some ⟨0x60, 0x00, 0, f, .none⟩
  | .mldExt f m => some ⟨0x60, 0x00, 2, f, (.m m)⟩
  | .mst f => some ⟨0x61, 0x00, 0, f, .none⟩
  | .mstExt f m => some ⟨0x61, 0x00, 2, f, (.m m)⟩
  | .mplane f => some ⟨0x62, 0x00, 0, f, .none⟩
  | .mplaneExt f x => some ⟨0x62, 0x00, 2, f, (.x x)⟩
  | .munplane f => some ⟨0x63, 0x00, 0, f, .none⟩
  | .munplaneExt f x => some ⟨0x63, 0x00, 2, f, (.x x)⟩
  | .mtr f => some ⟨0x64, 0x00, 0, f, .none⟩
  | .madd f => some ⟨0x65, 0x00, 0, f, .none⟩
  | .maddExt f x => some ⟨0x65, 0x00, 2, f, (.x x)⟩
  | .mscale f => some ⟨0x66, 0x00, 0, f, .none⟩
  | .mscaleExt f x => some ⟨0x66, 0x00, 2, f, (.x x)⟩
  | .scl f => some ⟨0x67, 0x00, 0, f, .none⟩
  | .sclExt f m => some ⟨0x67, 0x00, 2, f, (.m m)⟩
  | .mbatch f => some ⟨0x68, 0x00, 0, f, .none⟩
  | .mwait f => some ⟨0x69, 0x00, 0, f, .none⟩
  | .mwaitImm f => some ⟨0x69, 0x00, 1, f, .none⟩
  | .cpy f => some ⟨0x6A, 0x00, 0, f, .none⟩
  | .cpyPlane f x => some ⟨0x6A, 0x00, 2, f, (.x x)⟩
  | .cpyl f => some ⟨0x6B, 0x00, 0, f, .none⟩
  | .gat f => some ⟨0x6C, 0x00, 0, f, .none⟩
  | .gatPlane f x => some ⟨0x6C, 0x00, 2, f, (.x x)⟩
  | .sct f => some ⟨0x6D, 0x00, 0, f, .none⟩
  | .gpl f => some ⟨0x6E, 0x00, 0, f, .none⟩
  | .coll f x => some ⟨0x6F, 0x00, 2, f, (.x x)⟩
  | .qfence f => some ⟨0x70, 0x00, 0, f, .none⟩
  | .qfenceImm f => some ⟨0x70, 0x00, 1, f, .none⟩
  | .qstat f => some ⟨0x71, 0x00, 0, f, .none⟩
  | .send f => some ⟨0x72, 0x00, 0, f, .none⟩
  | .launch f => some ⟨0x73, 0x00, 0, f, .none⟩
  | .tend f => some ⟨0x74, 0x00, 0, f, .none⟩
  | .tabort f => some ⟨0x75, 0x00, 0, f, .none⟩
  | .tabortExt f x => some ⟨0x75, 0x00, 2, f, (.x x)⟩
  | .vgrow f => some ⟨0x76, 0x00, 0, f, .none⟩
  | .vgrowImm f => some ⟨0x76, 0x00, 1, f, .none⟩
  | .sgrow f => some ⟨0x77, 0x00, 0, f, .none⟩
  | .sgrowImm f => some ⟨0x77, 0x00, 1, f, .none⟩
  | .svc f imm => some ⟨0x78, 0x00, 2, f, (.i imm)⟩
  | .trap f => some ⟨0x79, 0x00, 0, f, .none⟩
  | .trapExt f imm => some ⟨0x79, 0x00, 2, f, (.i imm)⟩
  | .brk f => some ⟨0x7A, 0x00, 0, f, .none⟩
  | .uiret f => some ⟨0x7B, 0x00, 0, f, .none⟩
  | .uimask f => some ⟨0x7C, 0x00, 0, f, .none⟩
  | .uimaskImm f => some ⟨0x7C, 0x00, 1, f, .none⟩
  | .trc f => some ⟨0x7D, 0x00, 0, f, .none⟩
  | .trcImm f => some ⟨0x7D, 0x00, 1, f, .none⟩
  | .trcExt f imm => some ⟨0x7D, 0x00, 2, f, (.i imm)⟩
  | .powerCapWrite _ => none
  | .powerOverCap => none
  | .powerBelowCap => none
  | .thermal95 => none
  | .thermal105 => none
  | .thermalTrip110 => none
  | .thermalResume => none
  | .firmwareUpdate _ _ _ => none
  | .raiseFusedMinimum _ _ => none
  | .managementReset => none
  | .deviceReset => none
  | .getVersion => none
  | .getCapabilities => none
  | .negotiateAlgorithms => none
  | .getDigests => none
  | .getCertificate => none
  | .challenge => none
  | .getMeasurements => none
  | .logFlashCopy => none
  | .logOverrunClear _ => none
  | .hbmStackReady _ => none
  | .sectionSelfTestPass _ => none
  | .portTrained _ => none
  | .hostComplexRelease _ => none
  | .wyundPortTrained _ _ => none
  | .wyundIdWrite _ => none
  | .darnVerdict _ _ _ _ => none
  | .partKeyGenerate _ => none
  | .partKeyErase _ => none
  | .partitionReset _ => none
  | .partitionResetComplete _ => none
  | .vfEnable _ _ => none
  | .vfDisable _ => none
  | .functionLevelReset _ => none
  | .ldLinkDown _ => none
  | .vfResetComplete _ => none
  | .batchSlotActivate _ _ => none
  | .batchSlotFree _ => none
  | .cxlMemAccess _ _ _ _ => none
  | .inboundPeerRequest _ _ _ _ => none
  | .flitCrcRetry _ => none
  | .wyundPortFail _ => none
  | .rdmaInbound _ _ _ => none
  | .queueFeedTail _ _ => none
  | .activeMessage _ _ => none
  | .handlerStart _ => none
  | .doorbell _ _ _ => none
  | .qcSliceWrite _ => none
  | .qcSliceExpiry => none
  | .queueReplace _ => none
  | .packetDispatch _ => none
  | .marker _ => none
  | .teamStart _ => none
  | .taskStart _ => none
  | .pendingTaskStart _ => none
  | .gridEnd _ => none
  | .coreSchedWrite _ _ => none
  | .flowBoost _ _ _ => none
  | .claimGrant _ => none
  | .taskCommit _ _ => none
  | .taskAbort _ _ => none
  | .budgetEvent _ _ => none
  | .cycleBudgetExpiry _ _ => none
  | .intervalAgeClose _ _ => none
  | .pageWalk _ _ _ _ => none
  | .enginePartLanded _ _ _ => none
  | .engineFault _ _ _ => none
  | .collectiveEnd _ _ => none
  | .launchAppend _ _ => none
  | .matrixOpComplete _ => none
  | .windowArrival _ _ _ _ => none
  | .uiRaise _ _ _ _ => none
  | .uiDelivery _ _ => none
  | .tlbInval _ _ _ _ => none
  | .invalDone _ => none
  | .trapqHeadWrite _ _ => none
  | .replay _ _ => none
  | .skip _ _ => none
  | .park _ _ => none
  | .restore _ _ => none
  | .destroy _ _ => none
  | .faultGrid _ _ => none
  | .requeue _ _ => none
  | .step _ _ _ => none
  | .singleStepComplete _ _ _ => none
  | .stop _ _ => none
  | .stopReached _ _ => none
  | .flush _ _ => none
  | .ctxCmdInvalid _ _ => none
  | .codeWinWrite _ _ _ => none
  | .istoreWrite _ _ _ => none
  | .sramSplitWrite _ _ => none
  | .sramSplitDone _ => none
  | .barWinCfgWrite _ _ _ => none
  | .trcSizeWrite _ _ => none
  | .uncorrectableError _ _ _ => none
  | .rerunVerdict _ _ _ => none
  | .correctedError _ _ => none
  | .registerWrite _ _ => none
  | .patternReference _ => none
  | .bwaitDone _ _ _ => none
  | .barrierComplete _ _ _ => none
  | .vliwBundle _ => none
  | .powerLoss => none
  | .loadValueReturned _ _ => none
  | .grantNak _ _ _ => none
  | .serviceEntryDone _ _ _ _ => none
  | .firmwareInterfaceCommand _ _ _ => none
  | .queueCtlReady => none
  | .ldBinding _ _ _ => none

/-- The instruction of an encoding (13 R257, R260). It is kept apart from the decoder because Lean's code generator
writes no constructor whose number exceeds 244; the kernel evaluates it. (log 88, DEDUCED) -/
noncomputable def instrOf (n : Info) : Option Instr :=
  let f := n.f
  match n.major.toNat with
  | 0x00 =>
    match n.form.toNat with
    | 0 => some (.nop f)
    | _ => none
  | 0x01 =>
    match n.form.toNat with
    | 0 => some (.sadd f)
    | 1 => some (.saddImm f)
    | 2 => match n.ext with | .x x => some (.saddExt f x) | _ => none
    | _ => none
  | 0x02 =>
    match n.form.toNat with
    | 0 => some (.ssub f)
    | 1 => some (.ssubImm f)
    | 2 => match n.ext with | .x x => some (.ssubExt f x) | _ => none
    | _ => none
  | 0x03 =>
    match n.form.toNat with
    | 0 => some (.smul f)
    | 1 => some (.smulImm f)
    | 2 => match n.ext with | .x x => some (.smulExt f x) | _ => none
    | _ => none
  | 0x04 =>
    match n.form.toNat with
    | 0 => some (.smulh f)
    | 2 => match n.ext with | .x x => some (.smulhExt f x) | _ => none
    | _ => none
  | 0x05 =>
    match n.form.toNat with
    | 0 => some (.sand f)
    | 1 => some (.sandImm f)
    | 2 => match n.ext with | .x x => some (.sandExt f x) | _ => none
    | _ => none
  | 0x06 =>
    match n.form.toNat with
    | 0 => some (.sor f)
    | 1 => some (.sorImm f)
    | 2 => match n.ext with | .x x => some (.sorExt f x) | _ => none
    | _ => none
  | 0x07 =>
    match n.form.toNat with
    | 0 => some (.sxor f)
    | 1 => some (.sxorImm f)
    | 2 => match n.ext with | .x x => some (.sxorExt f x) | _ => none
    | _ => none
  | 0x08 =>
    match n.form.toNat with
    | 0 => some (.sshl f)
    | 1 => some (.sshlImm f)
    | 2 => match n.ext with | .x x => some (.sshlExt f x) | _ => none
    | _ => none
  | 0x09 =>
    match n.form.toNat with
    | 0 => some (.sshr f)
    | 1 => some (.sshrImm f)
    | 2 => match n.ext with | .x x => some (.sshrExt f x) | _ => none
    | _ => none
  | 0x0A =>
    match n.form.toNat with
    | 0 => some (.ssra f)
    | 1 => some (.ssraImm f)
    | 2 => match n.ext with | .x x => some (.ssraExt f x) | _ => none
    | _ => none
  | 0x0B =>
    match n.form.toNat with
    | 0 => some (.smin f)
    | 1 => some (.sminImm f)
    | 2 => match n.ext with | .x x => some (.sminExt f x) | _ => none
    | _ => none
  | 0x0C =>
    match n.form.toNat with
    | 0 => some (.smax f)
    | 1 => some (.smaxImm f)
    | 2 => match n.ext with | .x x => some (.smaxExt f x) | _ => none
    | _ => none
  | 0x0D =>
    match n.form.toNat with
    | 0 => some (.scmp f)
    | 1 => some (.scmpImm f)
    | 2 => match n.ext with | .x x => some (.scmpExt f x) | _ => none
    | _ => none
  | 0x0E =>
    match n.form.toNat with
    | 0 => some (.ssel f)
    | 2 => match n.ext with | .x x => some (.sselExt f x) | _ => none
    | _ => none
  | 0x0F =>
    match n.form.toNat with
    | 0 => some (.smov f)
    | 2 => match n.ext with | .x x => some (.smovExt f x) | _ => none
    | _ => none
  | 0x10 =>
    match n.form.toNat with
    | 2 => match n.ext with | .i imm => some (.sli f imm) | _ => none
    | _ => none
  | 0x11 =>
    match n.form.toNat with
    | 2 => match n.ext with | .i imm => some (.slih f imm) | _ => none
    | _ => none
  | 0x12 =>
    match n.form.toNat with
    | 0 => some (.sadda f)
    | 1 => some (.saddaImm f)
    | 2 => match n.ext with | .x x => some (.saddaExt f x) | _ => none
    | _ => none
  | 0x13 =>
    match n.form.toNat with
    | 0 => some (.sgets f)
    | _ => none
  | 0x14 =>
    match n.form.toNat with
    | 0 => some (.ssets f)
    | _ => none
  | 0x18 =>
    match n.form.toNat with
    | 2 => match n.ext with | .i imm => some (.bra f imm) | _ => none
    | _ => none
  | 0x19 =>
    match n.form.toNat with
    | 0 => some (.brx f)
    | _ => none
  | 0x1A =>
    match n.form.toNat with
    | 2 => match n.ext with | .i imm => some (.call f imm) | _ => none
    | _ => none
  | 0x1B =>
    match n.form.toNat with
    | 0 => some (.callx f)
    | _ => none
  | 0x1C =>
    match n.form.toNat with
    | 0 => some (.ret f)
    | _ => none
  | 0x1D =>
    match n.sel.toNat with
    | 0x00 =>
      match n.form.toNat with
      | 0 => some (.lpadC f)
      | _ => none
    | 0x01 =>
      match n.form.toNat with
      | 0 => some (.lpadJ f)
      | _ => none
    | _ => none
  | 0x1E =>
    match n.form.toNat with
    | 0 => some (.seam f)
    | _ => none
  | 0x1F =>
    match n.form.toNat with
    | 2 => match n.ext with | .i imm => some (.loop f imm) | _ => none
    | _ => none
  | 0x20 =>
    match n.form.toNat with
    | 0 => some (.lexit f)
    | _ => none
  | 0x21 =>
    match n.form.toNat with
    | 0 => some (.collapse f)
    | 1 => some (.collapseN f)
    | _ => none
  | 0x22 =>
    match n.form.toNat with
    | 0 => some (.expand f)
    | _ => none
  | 0x23 =>
    match n.form.toNat with
    | 0 => some (.yield f)
    | _ => none
  | 0x24 =>
    match n.form.toNat with
    | 0 => some (.exit f)
    | _ => none
  | 0x25 =>
    match n.form.toNat with
    | 0 => some (.tack f)
    | _ => none
  | 0x26 =>
    match n.form.toNat with
    | 0 => some (.ptload f)
    | _ => none
  | 0x28 =>
    match n.form.toNat with
    | 0 => some (.add f)
    | 1 => some (.addImm f)
    | 2 => match n.ext with | .x x => some (.addExt f x) | _ => none
    | 3 => some (.addPort f)
    | _ => none
  | 0x29 =>
    match n.form.toNat with
    | 0 => some (.sub f)
    | 1 => some (.subImm f)
    | 2 => match n.ext with | .x x => some (.subExt f x) | _ => none
    | 3 => some (.subPort f)
    | _ => none
  | 0x2A =>
    match n.form.toNat with
    | 0 => some (.mul f)
    | 1 => some (.mulImm f)
    | 2 => match n.ext with | .x x => some (.mulExt f x) | _ => none
    | 3 => some (.mulPort f)
    | _ => none
  | 0x2B =>
    match n.form.toNat with
    | 0 => some (.mulh f)
    | 2 => match n.ext with | .x x => some (.mulhExt f x) | _ => none
    | 3 => some (.mulhPort f)
    | _ => none
  | 0x2C =>
    match n.form.toNat with
    | 0 => some (.mad f)
    | 2 => match n.ext with | .x x => some (.madExt f x) | _ => none
    | 3 => some (.madPort f)
    | _ => none
  | 0x2D =>
    match n.form.toNat with
    | 0 => some (.and f)
    | 1 => some (.andImm f)
    | 2 => match n.ext with | .x x => some (.andExt f x) | _ => none
    | 3 => some (.andPort f)
    | _ => none
  | 0x2E =>
    match n.form.toNat with
    | 0 => some (.or f)
    | 1 => some (.orImm f)
    | 2 => match n.ext with | .x x => some (.orExt f x) | _ => none
    | 3 => some (.orPort f)
    | _ => none
  | 0x2F =>
    match n.form.toNat with
    | 0 => some (.xor f)
    | 1 => some (.xorImm f)
    | 2 => match n.ext with | .x x => some (.xorExt f x) | _ => none
    | 3 => some (.xorPort f)
    | _ => none
  | 0x30 =>
    match n.sel.toNat with
    | 0x00 =>
      match n.form.toNat with
      | 0 => some (.not f)
      | 2 => match n.ext with | .x x => some (.notExt f x) | _ => none
      | 3 => some (.notPort f)
      | _ => none
    | 0x01 =>
      match n.form.toNat with
      | 0 => some (.abs f)
      | 2 => match n.ext with | .x x => some (.absExt f x) | _ => none
      | 3 => some (.absPort f)
      | _ => none
    | 0x02 =>
      match n.form.toNat with
      | 0 => some (.neg f)
      | 2 => match n.ext with | .x x => some (.negExt f x) | _ => none
      | 3 => some (.negPort f)
      | _ => none
    | 0x03 =>
      match n.form.toNat with
      | 0 => some (.clz f)
      | 2 => match n.ext with | .x x => some (.clzExt f x) | _ => none
      | 3 => some (.clzPort f)
      | _ => none
    | 0x04 =>
      match n.form.toNat with
      | 0 => some (.popc f)
      | 2 => match n.ext with | .x x => some (.popcExt f x) | _ => none
      | 3 => some (.popcPort f)
      | _ => none
    | 0x05 =>
      match n.form.toNat with
      | 0 => some (.brev f)
      | 2 => match n.ext with | .x x => some (.brevExt f x) | _ => none
      | 3 => some (.brevPort f)
      | _ => none
    | _ => none
  | 0x31 =>
    match n.form.toNat with
    | 0 => some (.fadd f)
    | 2 => match n.ext with | .x x => some (.faddExt f x) | _ => none
    | 3 => some (.faddPort f)
    | _ => none
  | 0x32 =>
    match n.form.toNat with
    | 0 => some (.fsub f)
    | 2 => match n.ext with | .x x => some (.fsubExt f x) | _ => none
    | 3 => some (.fsubPort f)
    | _ => none
  | 0x33 =>
    match n.form.toNat with
    | 0 => some (.fmul f)
    | 2 => match n.ext with | .x x => some (.fmulExt f x) | _ => none
    | 3 => some (.fmulPort f)
    | _ => none
  | 0x34 =>
    match n.form.toNat with
    | 0 => some (.fma f)
    | 2 => match n.ext with | .x x => some (.fmaExt f x) | _ => none
    | 3 => some (.fmaPort f)
    | _ => none
  | 0x35 =>
    match n.form.toNat with
    | 0 => some (.fmin f)
    | 2 => match n.ext with | .x x => some (.fminExt f x) | _ => none
    | 3 => some (.fminPort f)
    | _ => none
  | 0x36 =>
    match n.form.toNat with
    | 0 => some (.fmax f)
    | 2 => match n.ext with | .x x => some (.fmaxExt f x) | _ => none
    | 3 => some (.fmaxPort f)
    | _ => none
  | 0x37 =>
    match n.form.toNat with
    | 0 => some (.fcmp f)
    | 2 => match n.ext with | .x x => some (.fcmpExt f x) | _ => none
    | 3 => some (.fcmpPort f)
    | _ => none
  | 0x38 =>
    match n.form.toNat with
    | 2 => match n.ext with | .x x => some (.cvt f x) | _ => none
    | _ => none
  | 0x39 =>
    match n.form.toNat with
    | 0 => some (.frnd f)
    | 2 => match n.ext with | .x x => some (.frndExt f x) | _ => none
    | 3 => some (.frndPort f)
    | _ => none
  | 0x3A =>
    match n.sel.toNat with
    | 0x00 =>
      match n.form.toNat with
      | 0 => some (.rcp f)
      | 2 => match n.ext with | .x x => some (.rcpExt f x) | _ => none
      | 3 => some (.rcpPort f)
      | _ => none
    | 0x01 =>
      match n.form.toNat with
      | 0 => some (.rsq f)
      | 2 => match n.ext with | .x x => some (.rsqExt f x) | _ => none
      | 3 => some (.rsqPort f)
      | _ => none
    | 0x02 =>
      match n.form.toNat with
      | 0 => some (.sqrt f)
      | 2 => match n.ext with | .x x => some (.sqrtExt f x) | _ => none
      | 3 => some (.sqrtPort f)
      | _ => none
    | 0x03 =>
      match n.form.toNat with
      | 0 => some (.exp2 f)
      | 2 => match n.ext with | .x x => some (.exp2Ext f x) | _ => none
      | 3 => some (.exp2Port f)
      | _ => none
    | 0x04 =>
      match n.form.toNat with
      | 0 => some (.log2 f)
      | 2 => match n.ext with | .x x => some (.log2Ext f x) | _ => none
      | 3 => some (.log2Port f)
      | _ => none
    | 0x05 =>
      match n.form.toNat with
      | 0 => some (.sin f)
      | 2 => match n.ext with | .x x => some (.sinExt f x) | _ => none
      | 3 => some (.sinPort f)
      | _ => none
    | 0x06 =>
      match n.form.toNat with
      | 0 => some (.cos f)
      | 2 => match n.ext with | .x x => some (.cosExt f x) | _ => none
      | 3 => some (.cosPort f)
      | _ => none
    | 0x07 =>
      match n.form.toNat with
      | 0 => some (.tanh f)
      | 2 => match n.ext with | .x x => some (.tanhExt f x) | _ => none
      | 3 => some (.tanhPort f)
      | _ => none
    | _ => none
  | 0x3B =>
    match n.form.toNat with
    | 0 => some (.shl f)
    | 1 => some (.shlImm f)
    | 2 => match n.ext with | .x x => some (.shlExt f x) | _ => none
    | 3 => some (.shlPort f)
    | _ => none
  | 0x3C =>
    match n.form.toNat with
    | 0 => some (.shr f)
    | 1 => some (.shrImm f)
    | 2 => match n.ext with | .x x => some (.shrExt f x) | _ => none
    | 3 => some (.shrPort f)
    | _ => none
  | 0x3D =>
    match n.form.toNat with
    | 0 => some (.sra f)
    | 1 => some (.sraImm f)
    | 2 => match n.ext with | .x x => some (.sraExt f x) | _ => none
    | 3 => some (.sraPort f)
    | _ => none
  | 0x3E =>
    match n.form.toNat with
    | 0 => some (.rot f)
    | 1 => some (.rotImm f)
    | 2 => match n.ext with | .x x => some (.rotExt f x) | _ => none
    | 3 => some (.rotPort f)
    | _ => none
  | 0x3F =>
    match n.form.toNat with
    | 0 => some (.min f)
    | 1 => some (.minImm f)
    | 2 => match n.ext with | .x x => some (.minExt f x) | _ => none
    | 3 => some (.minPort f)
    | _ => none
  | 0x40 =>
    match n.form.toNat with
    | 0 => some (.max f)
    | 1 => some (.maxImm f)
    | 2 => match n.ext with | .x x => some (.maxExt f x) | _ => none
    | 3 => some (.maxPort f)
    | _ => none
  | 0x41 =>
    match n.form.toNat with
    | 0 => some (.bfe f)
    | 2 => match n.ext with | .x x => some (.bfeExt f x) | _ => none
    | 3 => some (.bfePort f)
    | _ => none
  | 0x42 =>
    match n.form.toNat with
    | 0 => some (.bfi f)
    | 2 => match n.ext with | .x x => some (.bfiExt f x) | _ => none
    | 3 => some (.bfiPort f)
    | _ => none
  | 0x43 =>
    match n.form.toNat with
    | 0 => some (.cmp f)
    | 1 => some (.cmpImm f)
    | 2 => match n.ext with | .x x => some (.cmpExt f x) | _ => none
    | 3 => some (.cmpPort f)
    | _ => none
  | 0x44 =>
    match n.form.toNat with
    | 0 => some (.sel f)
    | 2 => match n.ext with | .x x => some (.selExt f x) | _ => none
    | 3 => some (.selPort f)
    | _ => none
  | 0x45 =>
    match n.form.toNat with
    | 0 => some (.mov f)
    | 2 => match n.ext with | .x x => some (.movExt f x) | _ => none
    | 3 => some (.movPort f)
    | _ => none
  | 0x46 =>
    match n.form.toNat with
    | 2 => match n.ext with | .i imm => some (.movi f imm) | _ => none
    | _ => none
  | 0x47 =>
    match n.form.toNat with
    | 0 => some (.dp4 f)
    | 2 => match n.ext with | .x x => some (.dp4Ext f x) | _ => none
    | 3 => some (.dp4Port f)
    | _ => none
  | 0x48 =>
    match n.form.toNat with
    | 0 => some (.perm f)
    | 2 => match n.ext with | .x x => some (.permExt f x) | _ => none
    | 3 => some (.permPort f)
    | _ => none
  | 0x49 =>
    match n.form.toNat with
    | 0 => some (.shfl f)
    | 1 => some (.shflImm f)
    | 2 => match n.ext with | .x x => some (.shflExt f x) | _ => none
    | 3 => some (.shflPort f)
    | _ => none
  | 0x4A =>
    match n.form.toNat with
    | 0 => some (.vote f)
    | 2 => match n.ext with | .x x => some (.voteExt f x) | _ => none
    | 3 => some (.votePort f)
    | _ => none
  | 0x4B =>
    match n.form.toNat with
    | 0 => some (.scan f)
    | 2 => match n.ext with | .x x => some (.scanExt f x) | _ => none
    | 3 => some (.scanPort f)
    | _ => none
  | 0x4C =>
    match n.form.toNat with
    | 0 => some (.red f)
    | 2 => match n.ext with | .x x => some (.redExt f x) | _ => none
    | 3 => some (.redPort f)
    | _ => none
  | 0x4D =>
    match n.form.toNat with
    | 0 => some (.bcast f)
    | 1 => some (.bcastImm f)
    | 2 => match n.ext with | .x x => some (.bcastExt f x) | _ => none
    | 3 => some (.bcastPort f)
    | _ => none
  | 0x4E =>
    match n.form.toNat with
    | 0 => some (.sample f)
    | 2 => match n.ext with | .x x => some (.sampleExt f x) | _ => none
    | _ => none
  | 0x4F =>
    match n.form.toNat with
    | 0 => some (.xmov f)
    | _ => none
  | 0x50 =>
    match n.form.toNat with
    | 0 => some (.ld f)
    | 2 => match n.ext with | .m m => some (.ldExt f m) | _ => none
    | _ => none
  | 0x51 =>
    match n.form.toNat with
    | 0 => some (.st f)
    | 2 => match n.ext with | .m m => some (.stExt f m) | _ => none
    | _ => none
  | 0x52 =>
    match n.form.toNat with
    | 0 => some (.atom f)
    | 2 => match n.ext with | .m m => some (.atomExt f m) | _ => none
    | _ => none
  | 0x53 =>
    match n.form.toNat with
    | 0 => some (.redm f)
    | 2 => match n.ext with | .m m => some (.redmExt f m) | _ => none
    | _ => none
  | 0x54 =>
    match n.form.toNat with
    | 0 => some (.pexport f)
    | _ => none
  | 0x55 =>
    match n.form.toNat with
    | 0 => some (.binit f)
    | 2 => match n.ext with | .m m => some (.binitExt f m) | _ => none
    | _ => none
  | 0x56 =>
    match n.form.toNat with
    | 0 => some (.barr f)
    | 2 => match n.ext with | .m m => some (.barrExt f m) | _ => none
    | _ => none
  | 0x57 =>
    match n.form.toNat with
    | 0 => some (.barrx f)
    | 2 => match n.ext with | .m m => some (.barrxExt f m) | _ => none
    | _ => none
  | 0x58 =>
    match n.form.toNat with
    | 0 => some (.bwait f)
    | 2 => match n.ext with | .m m => some (.bwaitExt f m) | _ => none
    | _ => none
  | 0x59 =>
    match n.form.toNat with
    | 0 => some (.btest f)
    | _ => none
  | 0x5A =>
    match n.sel.toNat with
    | 0x00 =>
      match n.form.toNat with
      | 0 => some (.fence f)
      | 2 => match n.ext with | .m m => some (.fenceExt f m) | _ => none
      | _ => none
    | 0x01 =>
      match n.form.toNat with
      | 0 => some (.acq f)
      | 2 => match n.ext with | .m m => some (.acqExt f m) | _ => none
      | _ => none
    | 0x02 =>
      match n.form.toNat with
      | 0 => some (.rel f)
      | 2 => match n.ext with | .m m => some (.relExt f m) | _ => none
      | _ => none
    | 0x03 =>
      match n.form.toNat with
      | 0 => some (.drain f)
      | 2 => match n.ext with | .m m => some (.drainExt f m) | _ => none
      | _ => none
    | 0x04 =>
      match n.form.toNat with
      | 0 => some (.pfence f)
      | 2 => match n.ext with | .m m => some (.pfenceExt f m) | _ => none
      | _ => none
    | _ => none
  | 0x5B =>
    match n.form.toNat with
    | 0 => some (.tbar f)
    | 2 => match n.ext with | .m m => some (.tbarExt f m) | _ => none
    | _ => none
  | 0x5C =>
    match n.form.toNat with
    | 0 => some (.pbar f)
    | 2 => match n.ext with | .m m => some (.pbarExt f m) | _ => none
    | _ => none
  | 0x5D =>
    match n.form.toNat with
    | 0 => some (.mma f)
    | 2 => match n.ext with | .x x => some (.mmaExt f x) | _ => none
    | _ => none
  | 0x5E =>
    match n.form.toNat with
    | 2 => match n.ext with | .x x => some (.mmaq f x) | _ => none
    | _ => none
  | 0x5F =>
    match n.form.toNat with
    | 0 => some (.mzero f)
    | _ => none
  | 0x60 =>
    match n.form.toNat with
    | 0 => some (.mld f)
    | 2 => match n.ext with | .m m => some (.mldExt f m) | _ => none
    | _ => none
  | 0x61 =>
    match n.form.toNat with
    | 0 => some (.mst f)
    | 2 => match n.ext with | .m m => some (.mstExt f m) | _ => none
    | _ => none
  | 0x62 =>
    match n.form.toNat with
    | 0 => some (.mplane f)
    | 2 => match n.ext with | .x x => some (.mplaneExt f x) | _ => none
    | _ => none
  | 0x63 =>
    match n.form.toNat with
    | 0 => some (.munplane f)
    | 2 => match n.ext with | .x x => some (.munplaneExt f x) | _ => none
    | _ => none
  | 0x64 =>
    match n.form.toNat with
    | 0 => some (.mtr f)
    | _ => none
  | 0x65 =>
    match n.form.toNat with
    | 0 => some (.madd f)
    | 2 => match n.ext with | .x x => some (.maddExt f x) | _ => none
    | _ => none
  | 0x66 =>
    match n.form.toNat with
    | 0 => some (.mscale f)
    | 2 => match n.ext with | .x x => some (.mscaleExt f x) | _ => none
    | _ => none
  | 0x67 =>
    match n.form.toNat with
    | 0 => some (.scl f)
    | 2 => match n.ext with | .m m => some (.sclExt f m) | _ => none
    | _ => none
  | 0x68 =>
    match n.form.toNat with
    | 0 => some (.mbatch f)
    | _ => none
  | 0x69 =>
    match n.form.toNat with
    | 0 => some (.mwait f)
    | 1 => some (.mwaitImm f)
    | _ => none
  | 0x6A =>
    match n.form.toNat with
    | 0 => some (.cpy f)
    | 2 => match n.ext with | .x x => some (.cpyPlane f x) | _ => none
    | _ => none
  | 0x6B =>
    match n.form.toNat with
    | 0 => some (.cpyl f)
    | _ => none
  | 0x6C =>
    match n.form.toNat with
    | 0 => some (.gat f)
    | 2 => match n.ext with | .x x => some (.gatPlane f x) | _ => none
    | _ => none
  | 0x6D =>
    match n.form.toNat with
    | 0 => some (.sct f)
    | _ => none
  | 0x6E =>
    match n.form.toNat with
    | 0 => some (.gpl f)
    | _ => none
  | 0x6F =>
    match n.form.toNat with
    | 2 => match n.ext with | .x x => some (.coll f x) | _ => none
    | _ => none
  | 0x70 =>
    match n.form.toNat with
    | 0 => some (.qfence f)
    | 1 => some (.qfenceImm f)
    | _ => none
  | 0x71 =>
    match n.form.toNat with
    | 0 => some (.qstat f)
    | _ => none
  | 0x72 =>
    match n.form.toNat with
    | 0 => some (.send f)
    | _ => none
  | 0x73 =>
    match n.form.toNat with
    | 0 => some (.launch f)
    | _ => none
  | 0x74 =>
    match n.form.toNat with
    | 0 => some (.tend f)
    | _ => none
  | 0x75 =>
    match n.form.toNat with
    | 0 => some (.tabort f)
    | 2 => match n.ext with | .x x => some (.tabortExt f x) | _ => none
    | _ => none
  | 0x76 =>
    match n.form.toNat with
    | 0 => some (.vgrow f)
    | 1 => some (.vgrowImm f)
    | _ => none
  | 0x77 =>
    match n.form.toNat with
    | 0 => some (.sgrow f)
    | 1 => some (.sgrowImm f)
    | _ => none
  | 0x78 =>
    match n.form.toNat with
    | 2 => match n.ext with | .i imm => some (.svc f imm) | _ => none
    | _ => none
  | 0x79 =>
    match n.form.toNat with
    | 0 => some (.trap f)
    | 2 => match n.ext with | .i imm => some (.trapExt f imm) | _ => none
    | _ => none
  | 0x7A =>
    match n.form.toNat with
    | 0 => some (.brk f)
    | _ => none
  | 0x7B =>
    match n.form.toNat with
    | 0 => some (.uiret f)
    | _ => none
  | 0x7C =>
    match n.form.toNat with
    | 0 => some (.uimask f)
    | 1 => some (.uimaskImm f)
    | _ => none
  | 0x7D =>
    match n.form.toNat with
    | 0 => some (.trc f)
    | 1 => some (.trcImm f)
    | 2 => match n.ext with | .i imm => some (.trcExt f imm) | _ => none
    | _ => none
  | _ => none

/-- The forms a major accepts, one bit a form (13 R257). -/
def majorForms (major : Nat) : BitVec 4 :=
  match major with
  | 0x00 => 0b0001
  | 0x01 => 0b0111
  | 0x02 => 0b0111
  | 0x03 => 0b0111
  | 0x04 => 0b0101
  | 0x05 => 0b0111
  | 0x06 => 0b0111
  | 0x07 => 0b0111
  | 0x08 => 0b0111
  | 0x09 => 0b0111
  | 0x0A => 0b0111
  | 0x0B => 0b0111
  | 0x0C => 0b0111
  | 0x0D => 0b0111
  | 0x0E => 0b0101
  | 0x0F => 0b0101
  | 0x10 => 0b0100
  | 0x11 => 0b0100
  | 0x12 => 0b0111
  | 0x13 => 0b0001
  | 0x14 => 0b0001
  | 0x18 => 0b0100
  | 0x19 => 0b0001
  | 0x1A => 0b0100
  | 0x1B => 0b0001
  | 0x1C => 0b0001
  | 0x1D => 0b0001
  | 0x1E => 0b0001
  | 0x1F => 0b0100
  | 0x20 => 0b0001
  | 0x21 => 0b0011
  | 0x22 => 0b0001
  | 0x23 => 0b0001
  | 0x24 => 0b0001
  | 0x25 => 0b0001
  | 0x26 => 0b0001
  | 0x28 => 0b1111
  | 0x29 => 0b1111
  | 0x2A => 0b1111
  | 0x2B => 0b1101
  | 0x2C => 0b1101
  | 0x2D => 0b1111
  | 0x2E => 0b1111
  | 0x2F => 0b1111
  | 0x30 => 0b1101
  | 0x31 => 0b1101
  | 0x32 => 0b1101
  | 0x33 => 0b1101
  | 0x34 => 0b1101
  | 0x35 => 0b1101
  | 0x36 => 0b1101
  | 0x37 => 0b1101
  | 0x38 => 0b0100
  | 0x39 => 0b1101
  | 0x3A => 0b1101
  | 0x3B => 0b1111
  | 0x3C => 0b1111
  | 0x3D => 0b1111
  | 0x3E => 0b1111
  | 0x3F => 0b1111
  | 0x40 => 0b1111
  | 0x41 => 0b1101
  | 0x42 => 0b1101
  | 0x43 => 0b1111
  | 0x44 => 0b1101
  | 0x45 => 0b1101
  | 0x46 => 0b0100
  | 0x47 => 0b1101
  | 0x48 => 0b1101
  | 0x49 => 0b1111
  | 0x4A => 0b1101
  | 0x4B => 0b1101
  | 0x4C => 0b1101
  | 0x4D => 0b1111
  | 0x4E => 0b0101
  | 0x4F => 0b0001
  | 0x50 => 0b0101
  | 0x51 => 0b0101
  | 0x52 => 0b0101
  | 0x53 => 0b0101
  | 0x54 => 0b0001
  | 0x55 => 0b0101
  | 0x56 => 0b0101
  | 0x57 => 0b0101
  | 0x58 => 0b0101
  | 0x59 => 0b0001
  | 0x5A => 0b0101
  | 0x5B => 0b0101
  | 0x5C => 0b0101
  | 0x5D => 0b0101
  | 0x5E => 0b0100
  | 0x5F => 0b0001
  | 0x60 => 0b0101
  | 0x61 => 0b0101
  | 0x62 => 0b0101
  | 0x63 => 0b0101
  | 0x64 => 0b0001
  | 0x65 => 0b0101
  | 0x66 => 0b0101
  | 0x67 => 0b0101
  | 0x68 => 0b0001
  | 0x69 => 0b0011
  | 0x6A => 0b0101
  | 0x6B => 0b0001
  | 0x6C => 0b0101
  | 0x6D => 0b0001
  | 0x6E => 0b0001
  | 0x6F => 0b0100
  | 0x70 => 0b0011
  | 0x71 => 0b0001
  | 0x72 => 0b0001
  | 0x73 => 0b0001
  | 0x74 => 0b0001
  | 0x75 => 0b0101
  | 0x76 => 0b0011
  | 0x77 => 0b0011
  | 0x78 => 0b0100
  | 0x79 => 0b0101
  | 0x7A => 0b0001
  | 0x7B => 0b0001
  | 0x7C => 0b0011
  | 0x7D => 0b0111
  | _ => 0

/-- Is the major assigned (13 R257, R258)? -/
def majorAssigned (major : Nat) : Bool := majorForms major != 0

/-- The number of selector values of a grouped major (13 R260); 0 for a major that is not grouped. -/
def selectorCount (major : Nat) : Nat :=
  match major with
  | 0x1D => 2 | 0x30 => 6 | 0x3A => 8 | 0x5A => 5
  | _ => 0

/-- The layout of a major's extended word (13 R257). -/
inductive Layout where
  | x | m | i
  deriving DecidableEq, Repr

def majorLayout (major : Nat) : Layout :=
  match major with
  | 0x10 | 0x11 | 0x18 | 0x1A | 0x1F | 0x46 | 0x78 | 0x79 | 0x7D => .i
  | 0x50 | 0x51 | 0x52 | 0x53 | 0x55 | 0x56 | 0x57 | 0x58 | 0x5A | 0x5B | 0x5C | 0x60 | 0x61 | 0x67 => .m
  | _ => .x

/-- The number of SUB codes of a layout-X or layout-M major, counted from 0x0 (13 R261, R262). -/
def subCount (major : Nat) : Nat :=
  match major with
  | 0x03 => 3 | 0x2A => 3
  | 0x0D => 6 | 0x43 => 6
  | 0x37 => 8
  | 0x49 => 4 | 0x4A => 4
  | 0x4B => 6 | 0x4C => 6
  | 0x4E => 2
  | 0x5E => 3
  | 0x6A => 2 | 0x6C => 2
  | 0x6F => 5
  | 0x75 => 2
  | 0x52 => 11
  | 0x53 => 11
  | 0x58 => 2
  | _ => 1

/-- Is SUB assigned for the major (13 R261 to R263)? -/
def subAssigned (major sub : Nat) : Bool :=
  sub < subCount major && !(major == 0x53 && (sub == 8 || sub == 9))

/-- The extended word read in a layout (11 R228). -/
def extOf (l : Layout) (w : Word) : Ext :=
  match l with
  | .x => .x (extX w)
  | .m => .m (extM w)
  | .i => .i w

/-- The instruction of an op word and the word after it, by MAJOR, selector, FORM and SUB; the extended word is read
under form 10 only (11 R225, R228; 13 R258, R260, R263). (log 20, DEDUCED) -/
def parse (w x : Word) : Except DecodeError Info :=
  let major := (fMajor w).toNat
  let form := (fForm w).toNat
  let grouped := selectorCount major != 0
  if !majorAssigned major then .error .unassignedMajor
  else if grouped && selectorCount major ≤ (fB w).toNat then .error .selector
  else
    let f := if grouped then { opF w with b := 0 } else opF w
    let n : Info :=
      { major := fMajor w, sel := if grouped then fB w else 0, form := fForm w, f := f
        ext := if form = 2 then extOf (majorLayout major) x else .none }
    if !(majorForms major).getLsbD form then .error (.form { n with ext := .none })
    else if subAssigned major n.sub then .ok n else .error .sub

/-- Does the op word take an extended word (11 R220)? -/
def hasExt (w : Word) : Bool := fForm w == 2

/-! ### Bytes -/

/-- Two bytes, the first the low one (00 R4). -/
def parcelOf (a b : Byte) : Parcel := b ++ a

/-- Four bytes, the first the lowest (00 R4). -/
def wordOf (a b c d : Byte) : Word := d ++ c ++ b ++ a

/-- The four bytes of a word as the SIMT stream stores it (11 R220). -/
def wordBytes (w : Word) : List Byte :=
  [w.extractLsb' 0 8, w.extractLsb' 8 8, w.extractLsb' 16 8, w.extractLsb' 24 8]

/-- The four bytes of a unit as the VLIW stream stores it: the parcel with bits 31 to 16 first (11 R221). -/
def unitBytes (w : Word) : List Byte :=
  [w.extractLsb' 16 8, w.extractLsb' 24 8, w.extractLsb' 0 8, w.extractLsb' 8 8]

/-- The first 32-bit word of a byte list. -/
def takeWord (bs : List Byte) : Option (Word × List Byte) :=
  match bs with
  | a :: b :: c :: d :: r => some (wordOf a b c d, r)
  | _ => none

/-- The first 32-bit unit of a VLIW byte list (11 R221). -/
def takeUnit (bs : List Byte) : Option (Word × List Byte) :=
  match bs with
  | a :: b :: c :: d :: r => some (wordOf c d a b, r)
  | _ => none

/-- The encoding of one instruction of the SIMT stream with the bytes after it (11 R220). -/
def decodeSimt (bs : List Byte) : Except DecodeError (Info × List Byte) :=
  match takeWord bs with
  | none => .error .short
  | some (w, r) =>
    if hasExt w then
      match takeWord r with
      | none => .error .short
      | some (x, r') => (parse w x).map (fun i => (i, r'))
    else (parse w 0).map (fun i => (i, r))

/-- The words of `n` ops of a bundle: each op word, and its extended word where its form is 10 (11 R222). -/
def takeOps (n : Nat) (bs : List Byte) : Option (List Word × List Byte) :=
  match n with
  | 0 => some ([], bs)
  | n + 1 =>
    match takeUnit bs with
    | none => none
    | some (w, r) =>
      if hasExt w then
        match takeUnit r with
        | none => none
        | some (x, r') => (takeOps n r').map (fun p => (w :: x :: p.1, p.2))
      else (takeOps n r).map (fun p => (w :: p.1, p.2))

/-- The slots of a mask in ascending order. -/
def slotList (m : BitVec 16) : List Nat := (List.range 16).filter (fun n => m.getLsbD n)

/-- What stands at a place of the VLIW stream where a bundle may begin (11 R221). -/
inductive VliwItem where
  | pad
  | bundle (b : Bundle)
  | reference (i : BitVec 9)
  deriving DecidableEq, Repr

/-- One item of the VLIW stream with the bytes after it (11 R221, R222). -/
def decodeVliw (bs : List Byte) : Except DecodeError (VliwItem × List Byte) :=
  match bs with
  | a :: b :: r =>
    let p := parcelOf a b
    match (p.extractLsb' 14 2).toNat with
    | 0 => if p.extractLsb' 0 14 = 0 then .ok (.pad, r) else .error .parcel
    | 1 => .error .parcel
    | 2 =>
      match takeUnit bs with
      | none => .error .short
      | some (h, r') =>
        let slots := h.extractLsb' 12 16
        match takeOps (slotList slots).length r' with
        | none => .error .short
        | some (ws, r'') =>
          if h.extractLsb' 28 2 ≠ 0 ∨ h.extractLsb' 0 12 ≠ 0 then .error .header else .ok (.bundle ⟨slots, ws⟩, r'')
    | _ =>
      if p.extractLsb' 0 5 = 0 then .ok (.reference (p.extractLsb' 5 9), r) else .error .parcel
  | _ => .error .short

/-- The bundle whose header has reserved bits set: its slots and words, for the causes of its ops (10 R204). -/
def headerBundle (bs : List Byte) : Option Bundle :=
  match takeUnit bs with
  | none => none
  | some (h, r) => (takeOps (slotList (h.extractLsb' 12 16)).length r).map (fun p => ⟨h.extractLsb' 12 16, p.1⟩)

/-- The ops of a bundle's words with their slots; an error stands beside the slot it is met in. -/
def bundleOps (slots : List Nat) (ws : List Word) : List (Nat × Except DecodeError Info) :=
  match slots, ws with
  | n :: ns, w :: rest =>
    if hasExt w then
      match rest with
      | x :: rest' => (n, parse w x) :: bundleOps ns rest'
      | [] => [(n, .error .short)]
    else (n, parse w 0) :: bundleOps ns rest
  | n :: _, [] => [(n, .error .short)]
  | [], _ => []

/-! ### Encoder -/

/-- The op word and the extended word of an instruction (11 R224, R228; 13 R257). -/
def Info.words (i : Info) : List Word :=
  let f := if selectorCount i.major.toNat != 0 then { i.f with b := i.sel } else i.f
  encOp i.major f i.form ::
    match i.ext with
    | .none => []
    | .x v => [encX v]
    | .m v => [encM v]
    | .i v => [v]

/-- The header unit of a bundle (11 R222). -/
def encHeader (slots : BitVec 16) : Word := (0b10 : BitVec 2) ++ (0 : BitVec 2) ++ slots ++ (0 : BitVec 12)

/-- The parcel of a pattern reference (11 R221). -/
def encReference (i : BitVec 9) : Parcel := (0b11 : BitVec 2) ++ i ++ (0 : BitVec 5)

/-- The bytes of an instruction in the stream it belongs to: the SIMT stream for an op, the VLIW stream for a bundle
and a pattern reference; none for an event. -/
def encode (i : Instr) : List Byte :=
  match info i with
  | some n => (n.words.map wordBytes).flatten
  | none =>
    match i with
    | .vliwBundle b => (unitBytes (encHeader b.slots)) ++ (b.words.map unitBytes).flatten
    | .patternReference n =>
      let p := encReference n
      [p.extractLsb' 0 8, p.extractLsb' 8 8]
    | _ => []

/-- The bytes of a number, the lowest first. -/
def natBytes (n v : Nat) : List Byte :=
  match n with
  | 0 => []
  | n + 1 => BitVec.ofNat 8 v :: natBytes n (v / 256)

/-- One instruction of the SIMT stream (11 R220), as a constructor. -/
noncomputable def decodeInstr (bs : List Byte) : Option (Instr × List Byte) :=
  match decodeSimt bs with
  | .ok (n, r) => (instrOf n).map (fun i => (i, r))
  | .error _ => none

/-- One bundle or pattern reference of the VLIW stream (11 R221, R222), as a constructor. -/
noncomputable def decodeVliwInstr (bs : List Byte) : Option (Instr × List Byte) :=
  match decodeVliw bs with
  | .ok (.bundle b, r) => some (.vliwBundle b, r)
  | .ok (.reference i, r) => some (.patternReference i, r)
  | _ => none

/-- The instruction that the decoder reads from a row's bits, numbered as the opcode table numbers them: a 16-bit row
is a parcel of the VLIW stream, every other row an op word of the SIMT stream with zeros after it. -/
noncomputable def decodeTableWord (nbits w : Nat) : Option Instr :=
  if nbits ≤ 16 then (decodeVliwInstr (natBytes 8 w)).map Prod.fst
  else (decodeInstr (natBytes 8 w)).map Prod.fst

end Sys2Proof
end

