-- ==== Sys2Proof/Machine/Operands.lean ====
section
/-! DEFINITION. Operands.lean: the operands of every op with the defaults of its form, what each field names, and the
encoding causes that follow from it (11 R224 to R231; 13 R257 to R265). -/

namespace Sys2Proof.Machine

/-- An op with the defaults of its form filled in (11 R228, 13 R257). -/
structure Opd where
  major : Nat
  sel : Nat
  form : Nat
  /-- bit 31: stop, or port-only destination -/
  s : Bool
  /-- NEG -/
  n : Bool
  /-- GUARD -/
  g : Nat
  d : Nat
  a : Nat
  b : Nat
  /-- third source: the C field in form 10, D in the one-word forms (11 R226) -/
  c : Nat
  /-- layout I -/
  imm : Word
  sub : Nat
  ty : Nat
  ty2 : Nat
  rnd : Nat
  sat : Bool
  lge : Bool
  lg : Nat
  lgn : Bool
  space : Nat
  scope : Nat
  width : Nat
  mx : Bool
  off : Int
  deriving DecidableEq, Repr

/-- The TYPE that the one-word forms imply (13 R257). (log 98, DEDUCED) -/
def defaultType (major sel : Nat) : Nat :=
  match major with
  | 0x05 | 0x06 | 0x07 | 0x08 | 0x09 | 0x0E | 0x0F => 5
  | 0x12 => 7
  | 0x2D | 0x2E | 0x2F => 5
  | 0x30 => if sel = 1 ∨ sel = 2 then 4 else 5
  | 0x31 | 0x32 | 0x33 | 0x34 | 0x35 | 0x36 | 0x37 | 0x39 | 0x3A => 8
  | 0x3B | 0x3C | 0x3E | 0x41 | 0x42 | 0x44 | 0x45 => 5
  | 0x47 | 0x4A => 0
  | 0x48 | 0x49 | 0x4D => 5
  | 0x4E => 8
  | 0x5D | 0x62 | 0x63 => 10
  | 0x65 | 0x66 => 8
  | _ => 4

/-- The SPACE, SCOPE and WIDTH that the one-word forms imply (13 R257, 16 R316). -/
def defaultSpace (major : Nat) : Nat := if 0x50 ≤ major ∧ major ≤ 0x53 then 2 else 0

def defaultScope (major sel : Nat) : Nat :=
  match major with
  | 0x52 | 0x53 => 4
  | 0x56 | 0x57 | 0x58 | 0x5C => 3
  | 0x5A => if sel ≤ 2 then 4 else 0
  | 0x5B => 1
  | _ => 0

def defaultWidth (major : Nat) : Nat :=
  match major with
  | 0x50 | 0x51 | 0x52 | 0x53 => 2
  | 0x67 => 3
  | _ => 0

/-- The operands of an op. -/
def opd (n : Info) : Opd :=
  let major := n.major.toNat
  let sel := n.sel.toNat
  let base : Opd :=
    { major := major, sel := sel, form := n.form.toNat, s := n.f.s, n := n.f.n, g := n.f.g.toNat
      d := n.f.d.toNat, a := n.f.a.toNat, b := n.f.b.toNat, c := n.f.d.toNat, imm := 0
      sub := 0, ty := defaultType major sel, ty2 := if major = 0x5D then 10 else 0, rnd := 0, sat := false
      lge := false, lg := 0, lgn := false
      space := defaultSpace major, scope := defaultScope major sel, width := defaultWidth major, mx := false, off := 0 }
  match n.ext with
  | .none => base
  | .x v =>
    { base with sub := v.sub.toNat, ty := v.ty.toNat, ty2 := v.ty2.toNat, rnd := v.rnd.toNat, sat := v.sat
                lge := v.lge, lg := v.lg.toNat, lgn := v.lgn, c := v.c.toNat }
  | .m v =>
    { base with sub := v.sub.toNat, space := v.space.toNat, scope := v.scope.toNat, width := v.width.toNat
                c := 0, mx := v.mx, lge := v.lge, lg := v.lg.toNat, lgn := v.lgn, off := v.off.toInt }
  | .i v => { base with c := 0, imm := v }

namespace Opd

/-- The immediate of form 01 as the instruction extends it (14 R266, 15 R291). -/
def imm6 (o : Opd) : Word := BitVec.signExtend 32 (BitVec.ofNat 6 o.b)
def imm6u (o : Opd) : Word := BitVec.ofNat 32 o.b

/-- Is the TYPE a 64-bit one? -/
def wide (o : Opd) : Bool := o.ty == 6 || o.ty == 7

/-- Registers of one operand of the TYPE. -/
def pairs (o : Opd) : Nat := if o.wide then 2 else 1

/-- Bytes of a WIDTH code (11 R228). -/
def bytes (o : Opd) : Nat := 2 ^ o.width

/-- Registers that the data of a WIDTH take (16 R315). -/
def dataRegs (o : Opd) : Nat := if o.width ≤ 2 then 1 else if o.width = 3 then 2 else 4

end Opd

/-! ### Classes (13 R257, 11 R230) -/

inductive Class where
  | k | c | ld | st | mx | sc | aq | br
  deriving DecidableEq, Repr

def classOf (major : Nat) : Class :=
  if major = 0 then .br
  else if major ≤ 0x14 then .k
  else if major ≤ 0x26 then .br
  else if major ≤ 0x4F then .c
  else if major = 0x51 ∨ major = 0x53 then .st
  else if major ≤ 0x5C then .ld
  else if major = 0x67 then .sc
  else if major ≤ 0x69 then .mx
  else if major ≤ 0x73 then .aq
  else .br

/-- The slots of a class in VLIW mode (11 R230). -/
def slotAccepts (slot : Nat) (c : Class) : Bool :=
  match c with
  | .c => slot < 8
  | .ld => slot == 8
  | .st => slot == 9
  | .k => slot == 10 || slot == 11
  | .mx => slot == 12
  | .aq => slot == 13
  | .sc => slot == 14
  | .br => slot == 15

/-- The slot that an op of a class takes beside the clusters in SIMT mode (05 R105). -/
def unitSlot (c : Class) : Option Nat :=
  match c with
  | .c | .k => none
  | .ld => some 8
  | .st => some 9
  | .mx => some 12
  | .aq => some 13
  | .sc => some 14
  | .br => some 15

/-- A member of the control family (majors 0x00 and 0x18 to 0x26). (log 17, DEDUCED) -/
def isControl (major : Nat) : Bool := major == 0 || (0x18 ≤ major && major ≤ 0x26)

def isScalar (major : Nat) : Bool := 1 ≤ major && major ≤ 0x14

/-- SIMT-only and VLIW-only majors (13 R257). -/
def simtOnly (major : Nat) : Bool := major == 0x1E || major == 0x21
def vliwOnly (major : Nat) : Bool := major == 0x1F || major == 0x20 || major == 0x22 || major == 0x26

/-- How GUARD and NEG act in SIMT mode (11 R227). -/
inductive GuardUse where
  | lane | uniform
  deriving DecidableEq, Repr

/-- (log 34, DEDUCED) -/
def guardUse (major : Nat) : GuardUse :=
  if 0x28 ≤ major ∧ major ≤ 0x54 then .lane
  else if major = 0x18 ∨ major = 0x19 ∨ major = 0x24 ∨ major = 0x78 ∨ major = 0x79 ∨ major = 0x7A then .lane
  else .uniform

/-! ### What the fields name -/

/-- What an operand field names (11 R226); the number is of registers, to whose multiple the field is aligned. -/
inductive Role where
  /-- unused: must be zero -/
  | zero
  /-- an immediate or a field with checks of its own -/
  | free
  | vr (n : Nat)
  | vw (n : Nat)
  | vrw (n : Nat)
  | sr (n : Nat)
  | sw (n : Nat)
  | srw (n : Nat)
  /-- the odd register of an even field -/
  | swOdd
  | pr
  | pw
  | tile
  | layout
  | scale
  | quarter
  | special
  deriving DecidableEq, Repr

structure Shape where
  d : Role := .zero
  a : Role := .zero
  b : Role := .zero
  c : Role := .zero
  /-- TYPE codes accepted; none where the op has no TYPE -/
  types : List Nat := []
  sat : Bool := false
  rnd : Bool := false
  deriving DecidableEq, Repr

def intTypes8to32 : List Nat := [0, 1, 2, 3, 4, 5]
def intTypesAll : List Nat := [0, 1, 2, 3, 4, 5, 6, 7]
def floatTypes : List Nat := [8, 9, 10]

/-- The source in B: an immediate in form 01. -/
def srcB (o : Opd) (r : Role) : Role := if o.form = 1 then .free else r

/-- A destination that is also the third source in the one-word forms; with the role of C in form 10. -/
def third (o : Opd) (n : Nat) (s : Shape) : Shape :=
  if o.form = 2 then { s with d := .vw n, c := .vr n } else { s with d := .vrw n }

/-- The fields of every major (14, 15, 16, 17, 18; TYPE, SAT and RND by 14 R266, 15 R291 and R302). (log 37, DEDUCED) -/
def shape (o : Opd) (simt : Bool) : Shape :=
  let w := o.pairs
  match o.major with
  | 0x01 | 0x02 => { d := .sw 1, a := .sr 1, b := srcB o (.sr 1), types := intTypes8to32, sat := true }
  | 0x03 => { d := .sw 1, a := .sr 1, b := srcB o (.sr 1), types := intTypes8to32, sat := o.sub == 0 }
  | 0x04 | 0x05 | 0x06 | 0x07 | 0x08 | 0x09 | 0x0A | 0x0B | 0x0C | 0x0D =>
    { d := .sw 1, a := .sr 1, b := srcB o (.sr 1), types := intTypes8to32 }
  | 0x0E => if o.form = 2 then { d := .sw 1, a := .sr 1, b := .sr 1, c := .sr 1, types := [4, 5] }
            else { d := .srw 1, a := .sr 1, b := .sr 1, types := [4, 5] }
  | 0x0F => { d := .sw w, a := .sr w, types := [4, 5, 6, 7] }
  | 0x10 => { d := .sw 1 }
  | 0x11 => { d := .swOdd }
  | 0x12 => { d := .sw 2, a := .sr 2, b := srcB o (.sr w), types := [4, 5, 6, 7] }
  | 0x13 => { d := if o.a ≤ 1 then .vw 1 else .sw 1, a := .special }
  | 0x14 => { d := .special, a := .sr 1 }
  | 0x18 => if simt then { d := .free, a := .free, b := .free }
            else { a := if o.b = 0 then .zero else .sr 1, b := .free }
  | 0x19 => if simt then { a := .vr 1, b := .sr 1 } else { a := .sr 1 }
  | 0x1B => if simt then { a := .vr 1 } else { a := .sr 1 }
  | 0x1F => { a := .sr 1 }
  | 0x21 => { b := if o.form = 1 then .free else .zero }
  | 0x26 => { a := .sr 1, b := .sr 1 }
  | 0x28 | 0x29 => { d := .vw w, a := .vr w, b := srcB o (.vr w), types := intTypesAll, sat := true }
  | 0x2A => { d := .vw 1, a := .vr 1, b := srcB o (.vr 1), types := intTypes8to32, sat := o.sub == 0 }
  | 0x2B => { d := .vw 1, a := .vr 1, b := .vr 1, types := intTypes8to32 }
  | 0x2C => third o 1 { a := .vr 1, b := .vr 1, types := intTypes8to32, sat := true }
  | 0x2D | 0x2E | 0x2F => { d := .vw w, a := .vr w, b := srcB o (.vr w), types := intTypesAll }
  | 0x30 =>
    if o.sel ≤ 2 then { d := .vw w, a := .vr w, types := intTypesAll, sat := o.sel != 0 }
    else { d := .vw 1, a := .vr 1, types := intTypes8to32 }
  | 0x31 | 0x32 | 0x33 => { d := .vw 1, a := .vr 1, b := .vr 1, types := floatTypes, sat := true, rnd := true }
  | 0x34 => third o 1 { a := .vr 1, b := .vr 1, types := floatTypes, sat := true, rnd := true }
  | 0x35 | 0x36 => { d := .vw 1, a := .vr 1, b := .vr 1, types := floatTypes }
  | 0x37 => { d := .pw, a := .vr 1, b := .vr 1, types := floatTypes }
  | 0x38 => { d := .vw w, a := .vr (if o.ty2 = 6 ∨ o.ty2 = 7 then 2 else 1), types := intTypesAll ++ floatTypes
              sat := true
              rnd := (isFloatCode o.ty2 && isIntCode o.ty) || (isIntCode o.ty2 && isFloatCode o.ty) ||
                (isFloatCode o.ty2 && isFloatCode o.ty && o.ty != o.ty2 && o.ty != 8) }
  | 0x39 | 0x3A => { d := .vw 1, a := .vr 1, types := floatTypes, sat := true, rnd := true }
  | 0x3B | 0x3C | 0x3D => { d := .vw w, a := .vr w, b := srcB o (.vr 1), types := intTypesAll }
  | 0x3E => { d := .vw 1, a := .vr 1, b := srcB o (.vr 1), types := intTypes8to32 }
  | 0x3F | 0x40 => { d := .vw w, a := .vr w, b := srcB o (.vr w), types := intTypesAll }
  | 0x41 => { d := .vw 1, a := .vr 1, b := .vr 1, types := [4, 5] }
  | 0x42 => third o 1 { a := .vr 1, b := .vr 1, types := [4, 5] }
  | 0x43 => { d := .pw, a := .vr w, b := srcB o (.vr w), types := intTypesAll }
  | 0x44 => if o.form = 2 then { d := .vw w, a := .vr w, b := .vr w, c := .pr, types := intTypesAll }
            else { d := .vrw w, a := .vr w, b := .vr w, types := intTypesAll }
  | 0x45 => { d := .vw w, a := .vr w, types := intTypesAll }
  | 0x46 => { d := .vw 1 }
  | 0x47 => third o 1 { a := .vr 1, b := .vr 1, types := [0, 1], sat := true }
  | 0x48 => third o w { a := .vr w, b := .vr 1, types := [5, 7] }
  | 0x49 | 0x4D => third o w { a := .vr w, b := srcB o (.vr 1), types := [5, 7] }
  | 0x4A => { d := if o.sub = 0 then .vw 1 else .pw, a := if o.form = 3 then .vr 1 else .pr, types := [0] }
  | 0x4B | 0x4C =>
    { d := .vw 1, a := .vr 1, types := intTypes8to32 ++ (if o.sub ≤ 2 then [8] else [])
      sat := o.sub == 0 && o.ty != 8, rnd := o.sub == 0 && o.ty == 8 }
  | 0x4E => { d := .vw 2, a := .vr 1, b := .sr 1, c := if o.sub = 1 then .vr 2 else .zero, types := [8] }
  | 0x4F => { d := .vw 1, a := .vr 1, b := .free }
  | 0x50 => { d := .vw o.dataRegs, a := .vr (if o.space = 2 then 2 else 1) }
  | 0x51 => { d := .vr o.dataRegs, a := .vr (if o.space = 2 then 2 else 1) }
  | 0x52 => { d := if o.sub = 9 then .vrw o.dataRegs else .vw o.dataRegs, a := .vr (if o.space = 2 then 2 else 1)
              b := .vr o.dataRegs }
  | 0x53 => { a := .vr (if o.space = 2 then 2 else 1), b := .vr o.dataRegs }
  | 0x54 => { d := .vw 2, a := .vr 1 }
  | 0x55 => { a := .sr 1, b := .sr 2 }
  | 0x56 => { d := .sw 1, a := .sr 1, b := .sr 1 }
  | 0x57 => { d := .sw 1, a := .sr 1, b := .sr 2 }
  | 0x58 => { d := .sw 1, a := .sr 1, b := .sr (if o.sub = 1 then 2 else 1) }
  | 0x59 => { d := .sw 1, a := .sr 1, b := .sr 1 }
  | 0x5D | 0x5E => { d := .tile, a := .layout, b := .layout, types := if o.major = 0x5D then [9, 10] else [11] }
  | 0x5F => { d := .tile }
  | 0x60 | 0x61 => { d := .tile, a := .layout }
  | 0x62 | 0x63 => { d := .layout, a := .layout, types := [9, 10, 11, 12, 13] }
  | 0x64 => { d := .tile, a := .tile }
  | 0x65 => { d := .tile, a := .tile, b := .tile, types := [8], sat := true, rnd := true }
  | 0x66 => { d := .tile, a := .tile, b := .sr 1, types := [8], sat := true, rnd := true }
  | 0x67 => { d := .scale, a := .sr 1, b := .quarter }
  | 0x68 => { d := .sw 1 }
  | 0x69 => if o.form = 1 then { b := .free } else { a := .sr 1 }
  | 0x6A | 0x6C => { a := .sr 1, types := [0] }
  | 0x6D | 0x6E => { a := .sr 1 }
  | 0x6B => { d := .sr 2, a := .sr 2, b := .sr 2 }
  | 0x6F => { a := .sr 1, types := [8, 9, 10, 4, 5] }
  | 0x70 => if o.form = 1 then { b := .free } else { a := .sr 1 }
  | 0x71 => { d := .sw 1, a := .sr 1 }
  | 0x72 => { a := .sr 1, b := .sr 2 }
  | 0x73 => { d := .sr 1, a := .sr 2, b := .sr 2 }
  | 0x75 => { types := [0] }
  | 0x76 | 0x77 => if o.form = 1 then { d := .sw 1, b := .free } else { d := .sw 1, a := .sr 1 }
  | 0x78 => { a := .vr (if o.b % 2 = 0 then 2 else 1), b := .free }
  | 0x79 => if o.form = 2 then {} else { a := .sr 1 }
  | 0x7C => if o.form = 1 then { d := .sw 1, b := .free } else { d := .sw 1, a := .sr 1 }
  | 0x7D => if o.form = 0 then { a := .sr 1 } else if o.form = 1 then { b := .free } else {}
  | _ => {}

/-! ### Read and write sets (09 R190, R191) -/

/-- A register as R191 compares it: lane register, lane predicate, scalar register, stage predicates, setting, scale
register. -/
inductive Reg where
  | v (r : Nat)
  | p (n : Nat)
  | s (r : Nat)
  | ps
  | setting (n : Nat)
  | scale (g : Nat)
  deriving DecidableEq, Repr

def regRun (f : Nat → Reg) (r n : Nat) : List Reg := (List.range n).map (fun k => f (r + k))

def Role.reads (r : Role) (x : Nat) (special : Bool) : List Reg :=
  match r with
  | .vr n | .vrw n => regRun .v x n
  | .sr n | .srw n => regRun .s x n
  | .pr => [.p x]
  | .layout => regRun .s x 3
  | .special => if special then [.setting x] else []
  | _ => []

def Role.writes (r : Role) (x : Nat) (special : Bool) : List Reg :=
  match r with
  | .vw n | .vrw n => regRun .v x n
  | .sw n | .srw n => regRun .s x n
  | .swOdd => [.s (x + 1)]
  | .pw => if x = 0 then [] else [.p x]
  | .scale => [.scale x]
  | .special => if special then [.setting x] else []
  | _ => []

/-- What an op reads; in form 11 a field above 0x3B names a port. (log 38, DEDUCED) -/
def opReads (o : Opd) (simt : Bool) : List Reg :=
  let sh := shape o simt
  let portA := o.form == 3 && 0x3C ≤ o.a
  let portB := o.form == 3 && 0x3C ≤ o.b
  sh.d.reads o.d false ++ (if portA then [] else sh.a.reads o.a (o.major == 0x13))
    ++ (if portB then [] else sh.b.reads o.b false) ++ (if o.form = 2 then sh.c.reads o.c false else [])
    ++ (if simt && guardUse o.major == .lane && o.g != 0 then [.p o.g] else [])
    ++ (if o.major = 0x5E then [.scale 0, .scale 1, .scale 2, .scale 3] else [])
    ++ (if o.major = 0x7C then [.setting 0x1E] else [])

/-- What an op writes. -/
def opWrites (o : Opd) (simt : Bool) : List Reg :=
  let sh := shape o simt
  sh.d.writes o.d (o.major == 0x14) ++ (if o.major = 0x4E then [.p 7] else [])
    ++ (if o.major = 0x7C then [.setting 0x1E] else [])
    ++ (if o.major = 0x13 ∧ o.a = 0x15 then [.setting 0x16] else [])

/-- Does an op of a stop group touch what an earlier one writes (09 R191, cause 0x04)? -/
def dependsOn (later earlier : Opd) : Bool :=
  let w := opWrites earlier true
  (opReads later true ++ opWrites later true).any (fun r => w.contains r)

/-! ### Encoding causes (11 R231) -/

/-- Where an op stands: the mode, its slot, N, and the clusters of a VLIW thread. -/
structure Place where
  simt : Bool
  half : Bool
  slot : Nat
  nregs : Nat
  clusters : Nat
  deriving DecidableEq, Repr

/-- Are the reserved bits of a field clear? -/
def Role.clear (r : Role) (x : Nat) : Bool :=
  match r with
  | .zero => x == 0
  | .pr | .pw | .tile => x < 8
  | .scale | .quarter => x < 4
  | _ => true

/-- Does a field name an even register, or a multiple of four, where its operand needs one (11 R226, 16 R315)? -/
def Role.aligned (r : Role) (x : Nat) : Bool :=
  match r with
  | .vr n | .vw n | .vrw n | .sr n | .sw n | .srw n => x % n == 0
  | .swOdd => x % 2 == 0
  | .layout => x % 4 == 0
  | _ => true

/-- Do the lane registers of a field lie below N (09 R183)? -/
def Role.below (r : Role) (x nregs : Nat) : Bool :=
  match r with
  | .vr n | .vw n | .vrw n => x + n ≤ nregs
  | _ => true

/-- The unused and reserved bits of an extended word are zero (11 R228; 13 R264; 16 R316). (log 35, DEDUCED) -/
def extClear (n : Info) (o : Opd) (sh : Shape) (simt : Bool) : Bool :=
  let laneGuarded := classOf o.major == .c || (0x50 ≤ o.major && o.major ≤ 0x53)
  let noLane := !o.lge && o.lg == 0 && !o.lgn
  match n.ext with
  | .none => true
  | .x v =>
    v.rsv == 0 && (o.major == 0x38 || o.major == 0x5D || o.major == 0x5E || v.ty2 == 0)
      && (sh.sat || !v.sat) && (sh.rnd || v.rnd == 0) && (sh.c != .zero || v.c == 0)
      && ((laneGuarded && !simt) || noLane)
      && (sh.types != [0] || v.ty == 0 || o.major == 0x4A)
      && !((o.major == 0x6A || o.major == 0x6C || o.major == 0x75) && v.ty != 0)
  | .m v =>
    let m := o.major
    v.rsv == 0 && (m == 0x56 || m == 0x57 || m == 0x5B || m == 0x5C || !v.mx)
      && ((laneGuarded && !simt) || noLane)
      && (m != 0x5A && m != 0x5B && m != 0x5C || v.off == 0)
      && (m ≤ 0x5C || m == 0x67 || v.width == 0)
      && (m != 0x60 && m != 0x61 && m != 0x67 || v.scope == 0)
  | .i v =>
    match o.major with
    | 0x18 | 0x1A => v.extractLsb' 18 14 == 0
    | 0x1F => v.extractLsb' 27 5 == 0 && v.extractLsb' 18 6 == 0
    | 0x78 => v.extractLsb' 16 16 == 0
    | _ => true

/-- The codes of TYPE, TYPE2, SPACE, SCOPE and WIDTH are among those the major takes (11 R228; 13 R264; 16 R316). -/
def codesAccepted (n : Info) (o : Opd) (sh : Shape) : Bool :=
  match n.ext with
  | .x _ =>
    let m := o.major
    (sh.types == [] || sh.types.contains o.ty || m == 0x6A || m == 0x6C || m == 0x75)
      && (m != 0x38 || isIntCode o.ty2 || isFloatCode o.ty2)
      && (m != 0x5D || o.ty2 == 9 || o.ty2 == 10)
      && (m != 0x5E || o.ty2 == 11 || o.ty2 == 12 || o.ty2 == 13)
  | .m v =>
    let m := o.major
    let sc := v.scope.toNat
    let sp := v.space.toNat
    let wd := v.width.toNat
    match m with
    | 0x50 | 0x51 => sc == 0 && wd ≤ 4
    | 0x52 | 0x53 => sc ≤ 5 && (wd == 2 || wd == 3) && !(o.sub == 10 && wd != 2)
    | 0x55 => sp == 0 && sc == 0 && wd == 0
    | 0x56 | 0x57 | 0x58 => sp ≤ 1 && sc ≤ 5 && wd == 0
    | 0x5A => sp == 0 && wd == 0 && (if o.sel ≤ 2 then sc ≤ 5 else sc == 0)
    | 0x5B | 0x5C => sp == 0 && wd == 0 && sc ≤ 5
    | 0x60 | 0x61 => sp == 0
    | 0x67 => sp == 0 && (wd == 1 || wd == 2 || wd == 3)
    | _ => true
  | _ => true

/-- Checks of single instructions that raise DETAIL 0x01 (14 R259, R273, R280, R283, R312; 18 R367, R374, R377). -/
def ownBitsClear (o : Opd) (p : Place) : Bool :=
  match o.major with
  | 0x00 => o.form == 0 && o.g == 0 && !o.n && o.d == 0 && o.a == 0 && o.b == 0
  | 0x18 =>
    if p.simt then (o.g != 0 || o.n) || (o.d == 0 && o.a == 0 && o.b == 0)
    else o.b ≤ 2 && (o.b != 0 || o.a == 0)
  | 0x21 => o.form != 1 || (1 ≤ o.b && o.b ≤ 3)
  | 0x4F => if p.simt then o.b < 2 else o.b < 8
  | 0x70 => o.form != 1 || o.b < 16
  | 0x78 => o.b < 2
  | 0x7C => o.form != 1 || o.b < 2
  | _ => true

/-- SEAM of a SIMT `bra`: bits [23:6] of the op word (14 R273). -/
def Opd.seamField (o : Opd) : Nat := o.d * 4096 + o.a * 64 + o.b

/-- Is an operand a result port, which form 11 names (11 R229)? -/
def Opd.portOperand (o : Opd) (r : Role) (f : Nat) : Bool :=
  o.form == 3 && (match r with
    | .vr _ | .vw _ | .vrw _ => true
    | _ => false) && 0x3C ≤ f

/-- Are the operand fields that an instruction does not use zero (11 R226)? -/
def fieldsClear (n : Info) (simt : Bool) : Bool :=
  let o := opd n
  let sh := shape o simt
  sh.d.clear o.d && (o.portOperand sh.a o.a || sh.a.clear o.a) && (o.portOperand sh.b o.b || sh.b.clear o.b)
    && (o.form != 2 || sh.c.clear o.c)

/-- The encoding cause of an op in its place: the lowest DETAIL of cause 0x03 that applies (13 R265, 11 R231). Form,
selector and SUB are the decoder's; the causes of whole bundles and stop groups are the issue's. -/
def encodingCause (n : Info) (p : Place) : Option Nat :=
  let o := opd n
  let sh := shape o p.simt
  let port11 := o.form == 3
  let portA := o.portOperand sh.a o.a
  let portB := o.portOperand sh.b o.b
  let wPort := !p.simt && o.s
  let aligned := sh.d.aligned o.d && (portA || sh.a.aligned o.a) && (portB || sh.b.aligned o.b)
    && (o.form != 2 || sh.c.aligned o.c)
  let below := sh.d.below o.d p.nregs && (portA || sh.a.below o.a p.nregs) && (portB || sh.b.below o.b p.nregs)
    && (o.form != 2 || sh.c.below o.c p.nregs)
  let slotBad := !p.simt && !slotAccepts p.slot (classOf o.major)
  if !fieldsClear n p.simt || !extClear n o sh p.simt || !ownBitsClear o p then some 0x01
  else if port11 && (p.simt || 8 ≤ p.slot) then some 0x02
  else if slotBad then some 0x03
  else if !p.simt && p.slot < 8 && p.clusters ≤ p.slot then some 0x05
  else if o.major == 0x4F && (if p.simt then p.half && o.b == 1 else p.clusters ≤ o.b) then some 0x05
  else if (portA && o.a == 0x3F) || (portB && o.b == 0x3F) then some 0x07
  else if wPort && (classOf o.major != .c || o.major == 0x4F || o.d != 0) then some 0x07
  else if !codesAccepted n o sh then some 0x08
  else if (o.major == 0x13 && 0x21 ≤ o.a) || (o.major == 0x14 && (0x21 ≤ o.d || o.d < 0x17 || o.d == 0x20)) then
    some 0x08
  else if (if p.simt then guardUse o.major == .uniform && (o.g != 0 || o.n) else !o.n && o.g != 0) then some 0x09
  else if (o.major == 0x18 || o.major == 0x1A) && o.imm.toNat % 4 != 0 then some 0x0B
  else if o.major == 0x18 && p.simt && o.seamField % 4 != 0 then some 0x0B
  else if !aligned then some 0x0D
  else if (p.simt && vliwOnly o.major) || (!p.simt && simtOnly o.major) then some 0x0E
  else if !below then some 0x10
  else none

/-! ### Units, latencies and ports (09 R185) -/

/-- The result port of a lane op: 0 alu, 1 mul, 2 sfu; none for `xmov`. -/
def portOf (major : Nat) : Option Nat :=
  match major with
  | 0x2A | 0x2B | 0x2C | 0x47 | 0x31 | 0x32 | 0x33 | 0x34 => some 1
  | 0x3A | 0x48 | 0x49 | 0x4A | 0x4B | 0x4C | 0x4D | 0x4E => some 2
  | 0x4F => none
  | _ => some 0

/-- The latency of an op's results. -/
def latencyOf (o : Opd) : Nat :=
  if o.major = 0x4F then 3
  else if 0x28 ≤ o.major ∧ o.major ≤ 0x4E then
    match portOf o.major with
    | some 0 => 2
    | some 1 => 4
    | _ => if o.major = 0x3A then 8 else 6
  else if o.major = 0x67 then 5
  else if o.major = 0x50 ∨ o.major = 0x52 ∨ o.major = 0x54 ∨ o.major = 0x56 ∨ o.major = 0x57 ∨ o.major = 0x59 then 6
  else 1

end Sys2Proof.Machine
end

