-- ==== Sys2Proof/Machine/Ops.lean ====
section
/-! DEFINITION. Ops.lean: the trace stream, the close of an interval, results and their timing, taking a trap and
ending one, and the frame in which every op of a context is issued (08 R157 to R159; 09 R185 to R191; 10). -/

namespace Sys2Proof.Machine

/-! ### The trace stream (10 R217 to R219, 23 R411) -/

/-- Is a context traced? -/
def State.traced (s : State) (c x : Nat) : Bool :=
  let t := (s.core c).trc
  t.enable && t.mask.getLsbD x && t.part == (s.ctx c x).part

/-- Bytes written at the write pointer; a write that crosses a multiple of 2^(SYNC_LOG2 + 8) makes every traced flow
owe a sync (10 R219). -/
def State.traceWrite (s : State) (c : Nat) (bs : List Byte) : State :=
  let t := (s.core c).trc
  let at_ := t.wptr.toNat
  let size := 2 ^ t.size
  let put : State → Nat × Byte → State := fun s p =>
    let pa := t.base + (at_ + p.1) % size
    match s.physCheck t.part pa true with
    | .ok => s.homeWrite pa [p.2]
    | a => s.logPhys t.part pa a
  let s := (List.zip (List.range bs.length) bs).foldl put s
  let step := 2 ^ (t.syncLog2 + 8)
  let crossed := at_ / step != (at_ + bs.length) / step
  s.updCore c (fun co =>
    let owe : Ctx → Ctx := fun k => { k with flows := k.flows.map (fun p => (p.1, { p.2 with syncOwed := true })) }
    { co with trc := { co.trc with wptr := co.trc.wptr + BitVec.ofNat 32 bs.length, last := s.cycle }
              ctxs := if crossed then co.ctxs.map (fun p => (p.1, owe p.2)) else co.ctxs })

/-- Bytes free in the trace buffer. -/
def traceRoom (t : TraceUnit) : Nat := 2 ^ t.size - (t.wptr - t.rptr).toNat

/-- A packet is lost and counted (10 R217). -/
def State.traceLose (s : State) (c : Nat) : State :=
  s.updCore c (fun co =>
    let sat : Word → Word := fun w => if w = 0xFFFFFFFF then w else w + 1
    { co with trc := { co.trc with lost := sat co.trc.lost, owedLoss := sat co.trc.owedLoss } })

def byteOf (n : Nat) : Byte := BitVec.ofNat 8 n

/-- A packet's header (10 R218). -/
def traceHead (kind ctx flow dtime : Nat) : List Byte := [byteOf kind, byteOf ctx, byteOf flow, byteOf dtime]

/-- The body of a sync (10 R218, 23 R411). -/
def syncBody (pc : Word) (cycle : Nat) (masks : SMap Word) : List Byte :=
  leBytes 4 pc.toNat ++ leBytes 8 cycle ++ leBytes 4 (groupValid masks).toNat
    ++ (masks.map (fun p => leBytes 4 p.2.toNat)).flatten

/-- A packet written where it fits; else it is lost alone. Answers whether it was written. -/
def State.tracePut (s : State) (c : Nat) (bs : List Byte) : State × Bool :=
  if bs.length ≤ traceRoom (s.core c).trc then (s.traceWrite c bs, true) else (s.traceLose c, false)

/-- A flow's sync is written: it owes none for what came before (10 R219). -/
def State.syncPaid (s : State) (c x f : Nat) : State :=
  s.updCtx c x (fun k => k.updFlow f (fun fl => { fl with syncOwed := false }))

/-- One packet of a flow, with the time, loss and sync packets that must precede it. Once one of them is lost, what follows
stands behind a loss: it needs a loss packet and a sync, for which there is no room either (23 R411). -/
def State.emit (s : State) (c x f kind : Nat) (payload : List Byte) (pc : Word) (masks : SMap Word) : State :=
  if !s.traced c x then s
  else
    let masks := if (s.ctx c x).vliw then [] else masks
    let s := s.updCtx c x (fun k => { k with emitted := k.emitted ++ [⟨f, kind, payload, pc, masks⟩] })
    let t := (s.core c).trc
    let delta := s.cycle - t.last
    let late := decide (254 < delta)
    let time := traceHead 0x09 0x1F 0xFF 0 ++ leBytes 4 delta
    let dt := if late then 0 else delta
    let sync : Nat → List Byte := fun d => traceHead 0x01 x f d ++ syncBody pc s.cycle masks
    let packet : Nat → List Byte := fun d => traceHead kind x f d ++ payload
    if t.owedLoss ≠ 0 then
      let before := (if late then time else []) ++ traceHead 0x0A 0x1F 0xFF dt ++ leBytes 4 t.owedLoss.toNat ++ sync 0
      if (before ++ packet 0).length ≤ traceRoom t then
        let s := ((s.traceWrite c before).syncPaid c x f).traceWrite c (packet 0)
        s.updCore c (fun co => { co with trc := { co.trc with owedLoss := 0 } })
      else s.traceLose c
    else
      let r := if late then s.tracePut c time else (s, true)
      if !r.2 then r.1.traceLose c
      else if ((r.1.ctx c x).flow f).syncOwed then
        let q := r.1.tracePut c (sync dt)
        if q.2 then ((q.1.syncPaid c x f).tracePut c (packet 0)).1 else q.1.traceLose c
      else (r.1.tracePut c (packet dt)).1

/-- An event packet (10 R218); a sync before it gives the PC of what produced it, which is not the event's code address for
`uiret` (23 R411). -/
def State.emitEvent (s : State) (c x f event info : Nat) (pc : Word) (at_ : Option Word := none) : State :=
  s.emit c x f 0x08 ([byteOf event, byteOf info, 0, 0] ++ leBytes 4 pc.toNat) (at_.getD pc) ((s.ctx c x).flow f).masks

/-- The code address of the instruction at a flow's position. -/
def Flow.here (f : Flow) : Word :=
  match f.group with
  | some g => match g.ops.drop g.pos with
    | o :: _ => o.addr
    | [] => f.pc
  | none => f.pc

/-! ### Loads that return -/

/-- The pending marks of a tag end. -/
def Ctx.clearTag (k : Ctx) (tag : Nat) : Ctx := { k with pend := k.pend.filter (fun p => p.till.isSome || p.tag != tag) }

/-- Every outstanding load whose value is good returns (10 R212: a close waits for them). -/
def Ctx.returnLoads (k : Ctx) : Ctx :=
  let good := k.loads.filter (fun l => l.trap.isNone)
  let k := good.foldl (fun k l => (k.writes l.writes).clearTag l.tag) k
  { k with loads := k.loads.filter (fun l => l.trap.isSome) }

/-! ### Closing an interval (08 R157, R158; 10 R212) -/

/-- The queues an entry enters (08 R171, R172). -/
def EngCmd.queues (e : EngCmd) : List Nat :=
  match e.op with
  | .fence m => (List.range 4).filter (fun q => m.getLsbD q)
  | _ => [e.queue]

/-- A held command is released to its queues (08 R173). -/
def Ctx.release (k : Ctx) (e : EngCmd) : Ctx :=
  { k with eq := e.queues.foldl (fun m q => SMap.set [] m q (SMap.get [] m q ++ [e])) k.eq }

/-- A fault of an engine's access (18 R357). -/
structure EngFault where
  cause : Nat
  detail : Nat
  fault : Nat
  write : Bool := false
  deriving DecidableEq, Repr

/-- Global bytes as a context's engine reads them, page by page, each translated once (03 R65): a translation that fails,
reaches the register space, meets refused, early or poisoned data, or names a peer that no port reaches is a fault (18 R357;
02 R39; 07 R147, R148). -/
def State.engineRead (s : State) (c x va n : Nat) : Nat → State × Except EngFault (List Byte)
  | 0 => (s, .ok [])
  | fuel + 1 =>
    if n = 0 then (s, .ok [])
    else
      let k := s.ctx c x
      let m := min n (4096 - va % 4096)
      match s.translate c k.asid va false with
      | (s, .error f) => (s, .error { cause := f.cause, detail := f.detail, fault := f.addr va })
      | (s, .ok p) =>
        let rest : State → List Byte → State × Except EngFault (List Byte) := fun s bs =>
          match s.engineRead c x ((va + m) % 2 ^ 64) (n - m) fuel with
          | (s, .ok r) => (s, .ok (bs ++ r))
          | e => e
        match p.peer with
        | some d =>
          if s.peerReached d then rest s (s.freeBytes (va % 2 ^ 40) m)
          else (s, .error { cause := 0x16, detail := 0, fault := va })
        | none =>
          if Config.regSpace ≤ p.pa then (s, .error { cause := 0x06, detail := 0, fault := va })
          else match s.rangeCheck k.part p.pa m false with
            | none => rest s (match k.task with
                | some t => s.taskBytes t p.pa m
                | none => s.mem.readBytes p.pa m)
            | some (a, .media) => (s, .error { cause := 0x15, detail := 0x1, fault := a / 128 * 128 })
            | some (a, x) => (s.logPhys k.part a x, .error { cause := 0x08, detail := 0x1, fault := va + (a - p.pa) })

/-- The lines that a run of bytes can touch. -/
def lineCount (n : Nat) : Nat := n / 128 + 2

/-- A `send` reads its message from scratchpad at its release, the header and LEN bytes (18 R369); a `launch` reads its
packet from global memory (18 R370), and reads it at its turn where that read faults. (log 59, DEDUCED) -/
def State.readHeld (s : State) (c x : Nat) (e : EngCmd) : State × EngCmd :=
  let k := s.ctx c x
  match e.op with
  | .send off _ =>
    let spad := (s.core c).spad
    let len := fieldAt (spad.readBytes (k.spadBase + off) 4) 2 2
    (s, { e with msg := spad.readBytes (k.spadBase + off) (min (32 + len) (k.spadLen - off)) })
  | .launch _ addr _ =>
    match s.engineRead c x addr 256 (lineCount 256) with
    | (s', .ok bs) => (s', { e with msg := bs })
    | (_, .error _) => (s, e)
  | _ => (s, e)

/-- The stores of a context that have been sent and are not done. -/
def State.undone (s : State) (k : Ctx) : List Nat := k.sent.filter (fun t => s.sent.any (fun e => e.tag == t))

/-- The held commands of a context are released in issue order; each of them comes after the context's stores that are sent
and not done (08 R173). -/
def State.releaseHeld (s : State) (c x : Nat) : State :=
  let after := s.undone (s.ctx c x)
  let r := (s.ctx c x).held.foldl (fun (r : State × List EngCmd) e =>
    let q := r.1.readHeld c x e
    (q.1, r.2 ++ [{ q.2 with after := after }])) (s, [])
  r.1.updCtx c x (fun k => r.2.foldl Ctx.release k)

/-- The close: outstanding loads return, buffered stores perform in buffer order, held engine commands are released
in issue order, and the checkpoint is recorded with the tile shadows (08 R157, R173; 09 R200; 10 R212). Its event names
the flow whose instruction closes the interval, the main flow where no instruction does, and the address at which that
flow stands: a closing instruction begins the next interval, since its close comes before its own effect (08 R158). (log 104, DEDUCED) -/
def State.closeInterval (s : State) (c x : Nat) (f : Nat := 255) : State :=
  let k := (s.ctx c x).returnLoads
  let s := k.tack.foldl (fun s t => (s.performStore c x k t).noteBudget c x t.flow) (s.setCtx c x k)
  let s := s.releaseHeld c x
  let k := s.ctx c x
  let k := { k.clearInterval with shadows := k.tiles, spillClosed := k.spilled }
  let s := s.updCore c (fun co =>
    { co with ctxs := SMap.insert co.ctxs x k
              mxQ := co.mxQ.map (fun o => if o.ctx = x then { o with closed := true } else o)
              ckpt := SMap.insert co.ckpt x { ctx := k, spad := co.spad.slice k.spadBase k.spadLen } })
  if (s.core c).trc.closes then
    (s.emitEvent c x f 0x7 0 (k.flow f).here).updCtx c x (fun k => { k with emitted := [] })
  else s

/-- The checkpoint of a context as it stands (10 R212); a rollback to it makes no earlier trace packet void. -/
def State.checkpoint (s : State) (c x : Nat) : State :=
  let s := s.updCtx c x (fun k => { k with emitted := [] })
  let k := s.ctx c x
  s.updCore c (fun co => { co with ckpt := SMap.insert co.ckpt x { ctx := k, spad := co.spad.slice k.spadBase k.spadLen } })

/-- The close for the context whose instruction issues. -/
def State.closeCur (s : State) : State := s.closeInterval s.cur.core s.cur.ctx s.cur.flow

/-- The old values of scratchpad words with those of a grant among undo-log keys. -/
def oldWords (spad : Memory) (base : Nat) (keys : List Nat) (old : SMap Word) : SMap Word :=
  (keys.filter (fun n => n % 3 == 1)).foldl (fun m n =>
    SMap.insert m (n / 3) (BitVec.ofNat 32 (leNat (spad.readBytes (base + n / 3 * 4) 4)))) old

/-- A close where the undo log would overflow by new first writes (08 R158, 10 R212), and the entries they make: those of
scratchpad words take the old values. -/
def State.noteUndo (s : State) (keys : List Nat) : State :=
  let fresh : Ctx → List Nat := fun k => (keys.filter (fun n => !k.undo.contains n)).eraseDups
  let s := if Config.undoMax < s.cc.undo.length + (fresh s.cc).length then s.closeCur else s
  let spad := (s.core s.cur.core).spad
  s.updCc (fun k => { k with undo := k.undo ++ fresh k, undoVals := oldWords spad k.spadBase (fresh k) k.undoVals })

/-- Undo-log keys: a lane register of a group or cluster, a scratchpad word, a pattern entry (10 R212). -/
def undoReg (k : Ctx) (r lane : Nat) : Nat := 3 * (r * 64 + (if k.vliw then lane / 16 else lane / 32))
def undoWord (off : Nat) : Nat := 3 * (off / 4) + 1
def undoPat (i : Nat) : Nat := 3 * i + 2

/-! ### Results (09 R185 to R187, R190; 23 R409) -/

/-- The scoreboard's name of a written register. -/
def Dst.pendName (d : Dst) : Option RegName :=
  match d with
  | .v r l => some (.v r (l / 32))
  | .p n l => if n = 0 then none else some (.p n (l / 32))
  | .s r => some (.s r)
  | .scale g _ => some (.scale g)
  | .port _ _ => none

/-- The names of the registers that a list of writes pends. -/
def pendNames (ws : List Write) : List RegName := (ws.filterMap (fun w => w.dst.pendName)).eraseDups

/-- A result of latency `lat`: in SIMT mode written at once and pending for that many core cycles; in VLIW mode
written for the bundles of issue cycle i + lat and later. -/
def Ctx.deliver (k : Ctx) (cycle lat : Nat) (ws : List Write) : Ctx :=
  if k.vliw then { k with flight := k.flight ++ [⟨k.icyc + lat, ws⟩] }
  else
    { k.writes ws with pend := k.pend ++ (pendNames ws).map (fun n => ⟨n, some (cycle + lat), 0⟩) }

def State.deliver (s : State) (lat : Nat) (ws : List Write) : State := s.updCc (fun k => k.deliver s.cycle lat ws)

/-- The values that a load's writes make, a lane's together. -/
def loadValues (lanes : List Nat) (ws : List Write) : List (List Word) :=
  lanes.map (fun l => (ws.filter (fun w => match w.dst with
    | .v _ l' => l' == l
    | _ => false)).map Write.val)

/-- The result of a global, private or peer load or atomic of some lanes: it is written when its value returns, its
registers are pending or interlocked until then, and each lane takes an entry of the load log (09 R188; 10 R212; 23
R409). -/
def State.deliverLoad (s : State) (lanes : List Nat) (ws : List Write) (trap : Option Trap)
    (peer : Option (Nat × Trap) := none) : State :=
  s.updCc (fun k =>
    { k with loads := k.loads ++ [⟨k.nextTag, ws, trap, s.cur.slot, peer, s.cur.flow⟩]
             pend := k.pend ++ (pendNames ws).map (fun n => ⟨n, none, k.nextTag⟩)
             nextTag := k.nextTag + 1
             loadLog := k.loadLog ++ loadValues lanes ws })

/-! ### Taking a trap (03 R51, R52; 10 R202 to R206) -/

/-- The AGE of a context: its task's stamp, 0 for a plain team (06 R117, R118). -/
def State.ageOf (s : State) (k : Ctx) : Nat :=
  match k.task with
  | none => 0
  | some t => match SMap.find? s.tasks.list t with
    | some x => x.stamp
    | none => 0

/-- Is a cause replayable (10 R202, 03 R53)? -/
def replayable (cause detail : Nat) : Bool :=
  match cause with
  | 0x01 => detail == 2
  | 0x07 => detail == 0
  | 0x08 => detail == 0
  | 0x13 | 0x17 => true
  | _ => false

/-- The lowest slot of a mask. -/
def lowestSlot (m : BitVec 16) : Nat := ((List.range 16).find? (fun n => m.getLsbD n)).getD 0

/-- The key of a write's late-write entry (10 R206): one for each register, port, predicate or scale quarter of a cluster. -/
def lateKey (w : Write) : Nat :=
  match w.dst with
  | .v r l => 5 * (r * 64 + l / 16)
  | .s r => 5 * r + 1
  | .p n l => 5 * (n * 64 + l / 16) + 2
  | .port p l => 5 * (p * 64 + l / 16) + 3
  | .scale g e => 5 * (g * 64 + e / 16) + 4

/-- LWB_COUNT: the entries of the results in flight and of those that wait for `uiret`; a register that its port receives
as well makes one entry with it (10 R206, R210). -/
def Ctx.lateCount (k : Ctx) : Nat :=
  ((k.lwb ++ k.flight).map (fun f =>
    let ks := (f.writes.map lateKey).eraseDups
    let regs := (ks.filter (fun n => n % 5 == 0)).map (fun n => n / 5 % 64)
    (ks.filter (fun n => !(n % 5 == 3 && regs.contains (n / 5 % 64)))).length)).sum

/-- Causes that stop a context between instructions, or for no pass of its own (10 R202, R215, R216). -/
def betweenCause (cause detail : Nat) : Bool :=
  cause == 0x13 || cause == 0x14 || cause == 0x15 || cause == 0x17 || (cause == 0x01 && detail == 2)

/-- The record of a trap of a context's flow (03 R52); a cause of several passes is reported by the first one in issue
order (10 R204). FAULT_ADDR is a faulting virtual address: a bounds fault and an irrevocable operation have none
(07 R138; 06 R127). (log 14, DEDUCED) (log 33, DEDUCED) -/
def State.record (s : State) (c x f : Nat) (t : Trap) : TrapRecord :=
  let k := s.ctx c x
  let fl := k.flow f
  { cause := t.cause
    flags := BitVec.ofNat 8 ((if k.vliw then 1 else 0) + (if replayable t.cause t.detail then 2 else 0)
      + (if t.write then 4 else 0) + (if t.fetch then 8 else 0) + (if k.task.isSome then 16 else 0)
      + (if f ≠ 255 then 32 else 0) + (if t.peer then 64 else 0))
    context := x
    firstSlot := lowestSlot t.slots
    slots := t.slots
    lwb := if k.vliw then k.lateCount else 0
    pass := t.pass.getD (if k.vliw || betweenCause t.cause t.detail then 0xFF else match fl.group with
      | some g => g.pass
      | none => (fl.masks.map Prod.fst).headD 0xFF)
    codeAddr := t.addr.getD fl.here
    window := k.window
    core := c
    part := k.part
    groupValid := if k.vliw then 0 else groupValid fl.masks
    lanes := t.lanes
    fault := if t.cause = 0x0E ∨ t.cause = 0x0B then 0 else if t.cause = 0x07 ∧ t.detail = 0x3 then t.fault else t.fault &&& 0x01FFFFFFFFFFFFFF
    age := s.ageOf k
    fragment := if f = 255 then 0xFFFF else f
    detail := t.detail
    time := s.cycle }

/-- Has the trap queue of a core's section no slot for a record that comes now (03 R51)? -/
def State.ringFull (s : State) (c : Nat) : Bool :=
  let q := s.sect (State.sectOf c)
  decide (Config.trapMax ≤ q.trapQ.length) || q.owed != []

/-- A trap waits for a slot, behind those that came before it. -/
def State.oweTrap (s : State) (c : Nat) (o : OwedTrap) : State :=
  s.updSect (State.sectOf c) (fun q => { q with owed := q.owed ++ [o] })

/-- A record enters its section's trap queue; a machine check logs a class 0x09 event (10 R216). -/
def State.enterRecord (s : State) (r : TrapRecord) : State :=
  let s := s.updSect (State.sectOf r.core) (fun q => { q with trapQ := q.trapQ ++ [r], trapTail := q.trapTail + 1 })
  if r.cause = 0x15 then s.logEvent 0x09 (SMap.get r.core s.mgmt.remap r.core) (Config.logCode s.tick) r.detail else s

/-- The section's external interrupt of its supervisor is raised while the ring is not empty (03 R51). -/
def State.supervisorInterrupt (s : State) (n : Nat) : Bool := (s.sect n).trapQ != []

/-- A record for which nothing closes: it enters the ring, or waits where the ring is full. -/
def State.queueRecord (s : State) (r : TrapRecord) : State :=
  if s.ringFull r.core then s.oweTrap r.core (.record r) else s.enterRecord r

/-- The event of data that an access met and its home slice refused (02 R23). -/
def State.logTrap (s : State) (t : Trap) : State :=
  match t.logs with
  | some (part, a) => s.logPhys part a (s.physCheck part a false)
  | none => s

/-- A context stops with its record: a stop request, or a user interrupt without a handler, is over once its record is written
(10 R207, R210). -/
def Ctx.stopWith (k : Ctx) (r : TrapRecord) : Ctx :=
  { k with stopped := some r, stepping := none, stopPending := k.stopPending && r.cause != 0x17
           uipend := if r.cause = 0x13 then k.uipend &&& ~~~(1#16 <<< r.detail) else k.uipend }

/-- The stop of a context at a trap of a flow, once the ring has a slot: its interval closes, the record is written, and it
waits for the supervisor. -/
def State.stopNow (s : State) (c x f : Nat) (t : Trap) : State :=
  let s := s.logTrap t
  let s := s.closeInterval c x f
  let r := s.record c x f t
  let s := s.enterRecord r
  let s := s.updCtx c x (fun k => k.stopWith r)
  s.emitEvent c x f 0x1 r.cause r.codeAddr

/-- A context stops at a trap of a flow (08 R158; 03 R51, R54; 10 R205); where the ring is full it stands at the trap point
with no state changed. Nothing of the trapping instruction performs. -/
def State.stopContext (s : State) (c x f : Nat) (t : Trap) : State :=
  if s.ringFull c then s.oweTrap c (.stop c x f t) else s.stopNow c x f t

/-- Does a context stand at a trap point that waits for a slot of the ring? -/
def State.trapOwed (s : State) (c x : Nat) : Bool :=
  (s.sect (State.sectOf c)).owed.any (fun o => match o with
    | .stop a b _ _ => a == c && b == x
    | .park a p => a == c && p.ctx == x
    | .record _ => false)

/-- Traps of a context that is no more take no slot. -/
def State.dropOwed (s : State) (c x : Nat) : State :=
  if s.trapOwed c x then
    s.updSect (State.sectOf c) (fun q => { q with owed := q.owed.filter (fun o => match o with
      | .stop a b _ _ => !(a == c && b == x)
      | .park a p => !(a == c && p.ctx == x)
      | .record _ => true) })
  else s

/-- TAKING AN EXCEPTION: the context whose instruction issues traps. -/
def takeTrap (t : Trap) (s : State) : State := s.stopContext s.cur.core s.cur.ctx s.cur.flow t

/-- ENDING ONE: the context continues at its stopped point (03 R54: replay). -/
def endTrap (c x : Nat) (s : State) : State := s.updCtx c x (fun k => { k with stopped := none })

/-! ### The frame of an issue -/

/-- Where an op issues and what it sees: the registers as they stood before its stop group or bundle. -/
structure Env where
  core : Nat
  ctx : Nat
  flow : Nat
  slot : Nat
  simt : Bool
  /-- group of the pass -/
  group : Nat
  /-- first and last pass that are not skipped -/
  first : Bool
  last : Bool
  /-- lanes of the pass or of the slot's elements that the op acts on, as lane numbers of the context -/
  lanes : List Nat
  /-- code address of the instruction or bundle -/
  addr : Word
  info : Info
  o : Opd
  /-- the context with the values that reads see -/
  k : Ctx
  /-- of a parked pass that is performed again: its tag, and bytes as they stood before its stop group wrote them (03 R66; 08
  R154) -/
  parked : Option (Nat × SMap Byte) := none
  deriving DecidableEq, Repr

/-- What an op does once its operands are read: it traps; it takes effect; it takes effect and sets the flow's
position itself; or it holds, and issues again when its wait ends. -/
inductive Plan where
  | trap (t : Trap)
  | go (effect : State → State)
  /-- it takes effect with new entries of the undo log (10 R212); one that performs exactly once across a rollback is held
  by a new checkpoint (16 R323; 07 R147) -/
  | record (undo : List Nat) (once : Bool) (effect : State → State)
  | jump (effect : State → State)
  | hold (effect : State → State)

/-- A plan with what stays in place even where the bundle traps: closes, walks (10 R205). -/
abbrev Planned := State × Plan

/-- The context as reads see it: shadow values over the registers (10 R415). -/
def applyShadow (k : Ctx) (sh : List Shadow) : Ctx :=
  sh.foldl (fun k e =>
    if e.kind = 1 then { k with sr := SMap.set 0 k.sr e.num e.val }
    else if e.kind = 2 then { k with ps := e.val.setWidth 8 }
    else
      match e.num with
      | 0x17 => { k with privHi := e.val }
      | 0x18 => { k with privLo := e.val }
      | 0x19 => { k with privSz := e.val }
      | 0x1A => { k with tileHi := e.val }
      | 0x1B => { k with tileLo := e.val }
      | 0x1C => { k with uivec := e.val }
      | 0x1D => { k with uipend := e.val.setWidth 16 }
      | 0x1E => { k with uimask := e.val.setWidth 16 }
      | 0x1F => { k with uipc := e.val }
      | 0x16 => { k with cycleHi := e.val }
      | _ => k) k

/-- Lanes of a SIMT pass that the guard lets act (11 R227, 15 R289). -/
def passLanes (k : Ctx) (mask : Word) (g : Nat) (o : Opd) : List Nat :=
  ((laneList mask).map (fun l => 32 * g + l)).filter (fun l =>
    guardUse o.major == .uniform || (k.readP o.g l != o.n))

/-- Elements of a VLIW op that act: those of its cluster, or of every owned cluster for a unit slot (11 R226, R228);
the lane guard of an extended word applies. -/
def slotLanes (k : Ctx) (slot : Nat) (o : Opd) : List Nat :=
  let all := if slot < 8 then (List.range 16).map (fun i => 16 * slot + i) else List.range (16 * k.clusters)
  all.filter (fun l => !o.lge || (k.readP o.lg l != o.lgn))

/-- Does a VLIW op's stage guard hold (11 R227)? -/
def stageGuard (k : Ctx) (o : Opd) : Bool := !o.n || k.ps.getLsbD o.g

/-- The cluster slots of a SIMT context: those of its slice, or the half-group's cluster. -/
def simtClusters (k : Ctx) : BitVec 16 :=
  if k.mode == .half then 1#16 <<< k.base else (1#16 <<< k.base) ||| (1#16 <<< (k.base + 1))

/-- The slots of a SIMT instruction: the clusters and the slot of its unit; k0 for a scalar (05 R105). -/
def simtSlots (k : Ctx) (o : Opd) : BitVec 16 :=
  let cl := simtClusters k
  match classOf o.major with
  | .k => 1#16 <<< 10
  | c => match unitSlot c with
    | some n => cl ||| (1#16 <<< n)
    | none => cl

/-- A trap of an op, with the slots it stands in. -/
def Env.trapAt (e : Env) (t : Trap) : Trap :=
  { t with slots := if e.simt then simtSlots e.k e.o else 1#16 <<< e.slot }

def Env.trap (e : Env) (cause detail : Nat) (s : State) : Planned :=
  (s, .trap (e.trapAt { cause := cause, detail := detail }))

/-- The lanes of a mask word of the trapping pass; a bundle has no pass and names none. (log 136, DEDUCED) -/
def Env.laneWord (e : Env) (ls : List Nat) : Word := if e.simt then laneMask ls else 0

/-- Operand reads: a lane register or, in form 11, a port (11 R229). -/
def Env.readA (e : Env) (l : Nat) : Word :=
  if e.o.form = 3 ∧ 0x3C ≤ e.o.a then e.k.readPort (e.o.a - 0x3C) l else e.k.readV e.o.a l

def Env.readB (e : Env) (l : Nat) : Word :=
  if e.o.form = 3 ∧ 0x3C ≤ e.o.b then e.k.readPort (e.o.b - 0x3C) l else e.k.readV e.o.b l

/-- The value of one or two registers as a number. -/
def Env.wideA (e : Env) (l n : Nat) : Nat := if n = 2 then e.k.readV64 e.o.a l else (e.readA l).toNat
def Env.wideB (e : Env) (l n : Nat) : Nat := if n = 2 then e.k.readV64 e.o.b l else (e.readB l).toNat
def Env.wideC (e : Env) (l n : Nat) : Nat := if n = 2 then e.k.readV64 e.o.c l else (e.k.readV e.o.c l).toNat

/-- The writes of a number to one register or a pair of a lane. -/
def laneWrites (r l n x : Nat) : List Write :=
  if n = 2 then [⟨.v r l, loWord x⟩, ⟨.v (r + 1) l, hiWord x⟩] else [⟨.v r l, loWord x⟩]

/-- The writes of a number to a scalar register or pair. -/
def scalarWrites (r n x : Nat) : List Write :=
  if n = 2 then [⟨.s r, loWord x⟩, ⟨.s (r + 1), hiWord x⟩] else [⟨.s r, loWord x⟩]

/-- All elements of the op's cluster, whose inactive ones get 0 in the port (15 R290). -/
def Env.clusterLanes (e : Env) : List Nat := (List.range 16).map (fun i => 16 * e.slot + i)

/-- The port writes of a lane op in VLIW mode (09 R187, 15 R290). -/
def Env.portWrites (e : Env) (val : Nat → Word) : List Write :=
  if e.simt then []
  else match portOf e.o.major with
    | none => []
    | some p => e.clusterLanes.map (fun l => ⟨.port p l, if e.lanes.contains l then val l else 0⟩)

/-- The effect of a lane op whose active lanes have results: registers (unless W = 1 sends them to the port alone)
and the unit's port. -/
def Env.laneResult (e : Env) (regs : Nat → List Write) (port : Nat → Word) (s : State) : Planned :=
  let ws := if !e.simt && e.o.s then [] else (e.lanes.map regs).flatten
  (s, .go (fun s => s.deliver (latencyOf e.o) (ws ++ e.portWrites port)))

/-- The effect of a scalar op. -/
def Env.scalarResult (e : Env) (ws : List Write) (s : State) : Planned :=
  (s, .go (fun s => s.deliver (latencyOf e.o) ws))

/-! ### The close that an instruction makes -/

/-- Has a context nothing in its interval that a close would send or record? -/
def Ctx.intervalEmpty (k : Ctx) : Bool := k.tack == [] && k.loadLog == [] && k.undo == [] && k.held == []

/-- The close that comes before an instruction's own effect (08 R158): once, also where the instruction then waits. -/
def Env.close (e : Env) (s : State) : State :=
  let k := s.ctx e.core e.ctx
  if (k.flow e.flow).closed && k.intervalEmpty then s else s.closeInterval e.core e.ctx e.flow

end Sys2Proof.Machine
end

