-- ==== Sys2Proof/Machine/Scalar.lean ====
section
/-! DEFINITION. Scalar.lean: the scalar family, majors 0x01 to 0x14 (14 R266 to R272; 11 R232). -/

namespace Sys2Proof.Machine

/-- The second source: the B register, or the imm6 sign-extended to 32 bits (14 R266). -/
def Env.scalarB (e : Env) : Nat := if e.o.form = 1 then e.o.imm6.toNat else (e.k.readS e.o.b).toNat

/-- A shift count: the B register as n32, or the zero-extended imm6 (14 R269). -/
def Env.countB (e : Env) : Nat := if e.o.form = 1 then e.o.imm6u.toNat else (e.k.readS e.o.b).toNat

/-- A two-operand integer instruction on the values of its TYPE, with SAT (14 R267). -/
def scalarBin (f : IntType → Int → Int → Int) (e : Env) (s : State) : Planned :=
  let t := intType e.o.ty
  let x := f t (t.read (e.k.readS e.o.a).toNat) (t.read e.scalarB)
  e.scalarResult [⟨.s e.o.d, loWord (t.write e.o.sat x)⟩] s

/-- The high half of a product (14 R267, 15 R292). -/
def mulHigh (t : IntType) (a b : Int) : Int := a * b / ((2 ^ t.bits : Nat) : Int)

/-- A bitwise operation on the low bits of two values (14 R267). -/
def bitwise (f : Nat → Nat → Nat) (t : IntType) (a b : Int) : Int :=
  t.read (f (lowBits t.bits a) (lowBits t.bits b))

/-- The shifts of a value by a count (14 R269): left, right, arithmetic right. -/
def shiftLeft (t : IntType) (a : Nat) (c : Nat) : Int := if c < t.bits then t.read (a % 2 ^ t.bits * 2 ^ c) else 0
def shiftRight (t : IntType) (a : Nat) (c : Nat) : Int :=
  if c < t.bits then t.read (a % 2 ^ t.bits / 2 ^ c) else 0
/-- (log 13, DEDUCED) -/
def shiftArith (t : IntType) (a : Nat) (c : Nat) : Int :=
  let v := sextInt t.bits a
  if c < t.bits then v / ((2 ^ c : Nat) : Int) else if v < 0 then -1 else 0

def scalarShift (f : IntType → Nat → Nat → Int) (e : Env) (s : State) : Planned :=
  let t := intType e.o.ty
  let x := f t (e.k.readS e.o.a).toNat e.countB
  e.scalarResult [⟨.s e.o.d, loWord (t.write false x)⟩] s

/-- `smul`: product, quotient and remainder; a zero divisor is cause 0x12 with DETAIL 0x1 (14 R267, R268). -/
def scalarMul (e : Env) (s : State) : Planned :=
  let t := intType e.o.ty
  if e.o.sub ≠ 0 ∧ t.read e.scalarB = 0 then e.trap 0x12 0x1 s
  else if e.o.sub = 1 then scalarBin (fun _ a b => divTrunc a b) e s
  else if e.o.sub = 2 then scalarBin (fun _ a b => remTrunc a b) e s
  else scalarBin (fun _ a b => a * b) e s

/-- `scmp.cc` (14 R267). -/
def scalarCmp (e : Env) (s : State) : Planned :=
  let t := intType e.o.ty
  let b := cmpInt e.o.sub (t.read (e.k.readS e.o.a).toNat) (t.read e.scalarB)
  e.scalarResult [⟨.s e.o.d, boolWord b⟩] s

/-- `ssel` (14 R270): the third source is the old D, or C in form 10. -/
def scalarSel (e : Env) (s : State) : Planned :=
  let v := if e.k.readS e.o.c ≠ 0 then e.k.readS e.o.a else e.k.readS e.o.b
  e.scalarResult [⟨.s e.o.d, v⟩] s

/-- `smov` (14 R270). -/
def scalarMov (e : Env) (s : State) : Planned :=
  if e.o.wide then e.scalarResult (scalarWrites e.o.d 2 (e.k.readS64 e.o.a)) s
  else e.scalarResult [⟨.s e.o.d, e.k.readS e.o.a⟩] s

/-- `sli` and `slih` (14 R271). -/
def scalarLi (e : Env) (s : State) : Planned := e.scalarResult [⟨.s e.o.d, e.o.imm⟩] s
def scalarLih (e : Env) (s : State) : Planned := e.scalarResult [⟨.s (e.o.d + 1), e.o.imm⟩] s

/-- The offset of `sadda` (14 R271). -/
def Env.saddaOff (e : Env) : Int :=
  if e.o.form = 1 then e.o.imm6.toInt
  else if e.o.wide then ((e.k.readS64 e.o.b : Nat) : Int)
  else if e.o.ty = 4 then (e.k.readS e.o.b).toInt
  else (((e.k.readS e.o.b).toNat : Nat) : Int)

/-- `sadda` (14 R271). -/
def scalarAdda (e : Env) (s : State) : Planned :=
  e.scalarResult (scalarWrites e.o.d 2 (lowBits 64 (((e.k.readS64 e.o.a : Nat) : Int) + e.saddaOff))) s

/-! ### Special registers (11 R232; 14 R272) -/

/-- The task of a context. -/
def State.taskOf (s : State) (k : Ctx) : Option Task := k.task.bind (fun t => SMap.find? s.tasks.list t)

/-- One end of a task's box on an axis: 0 where the axis is not in use, and in a plain grid (06 R116). -/
def State.boxEnd (s : State) (k : Ctx) (axis : Nat) (hi : Bool) : Nat :=
  match s.taskOf k with
  | none => 0
  | some t => match t.box.drop axis with
    | b :: _ => if hi then b.2 else b.1
    | [] => 0

/-- TEAMID: the team index, or the map index of the initial task (11 R232). -/
def State.teamId (s : State) (k : Ctx) : Nat :=
  match s.taskOf k with
  | some t => t.mapIdx
  | none => k.team

/-- Teams per patch of a context's grid (04 R79). -/
def State.patchTeams (s : State) (k : Ctx) : Nat :=
  match SMap.find? s.grids k.grid with
  | some g => max 1 (bitsOf (fieldAt g.pkt.bytes 18 2) 11 8)
  | none => 1

/-- A uniform special register's value (11 R232). -/
def State.special (s : State) (e : Env) (n : Nat) : Word :=
  let k := e.k
  match n with
  | 0x02 => loWord (s.teamId k)
  | 0x03 => loWord e.core
  | 0x04 => loWord e.ctx
  | 0x05 => loWord (if k.mode == .simt then k.groups else 1)
  | 0x06 => loWord (if k.vliw then k.clusters else 0)
  | 0x07 => loWord k.nregs
  | 0x08 => loWord k.spadLen
  | 0x09 => loWord (k.mapIdx % s.patchTeams k)
  | 0x0A => hiWord (s.ageOf k)
  | 0x0B => loWord (s.ageOf k)
  | 0x0C | 0x0D | 0x0E | 0x0F => loWord (s.boxEnd k (n - 0x0C) false)
  | 0x10 | 0x11 | 0x12 | 0x13 => loWord (s.boxEnd k (n - 0x10) true)
  | 0x14 => k.restartWord
  | 0x15 => loWord s.cycle
  | 0x16 => k.cycleHi
  | 0x17 => k.privHi
  | 0x18 => k.privLo
  | 0x19 => k.privSz
  | 0x1A => k.tileHi
  | 0x1B => k.tileLo
  | 0x1C => k.uivec
  | 0x1D => k.uipend.setWidth 32
  | 0x1E => k.uimask.setWidth 32
  | 0x1F => k.uipc
  | 0x20 => k.uisrc
  | _ => 0

/-- A context setting written (11 R232). -/
def Ctx.setSpecial (k : Ctx) (cycle n : Nat) (v : Word) : Ctx :=
  match n with
  | 0x17 => { k with privHi := v }
  | 0x18 => { k with privLo := v &&& ~~~7#32 }
  | 0x19 => { k with privSz := if 2 ^ 20 < (v &&& ~~~7#32).toNat then 0x100000 else v &&& ~~~7#32 }
  | 0x1A => { k with tileHi := v }
  | 0x1B => { k with tileLo := v &&& ~~~0xFFF#32 }
  | 0x1C => { k with uivec := v }
  | 0x1D => { k with uipend := v.setWidth 16 ||| k.raisedIn cycle }
  | 0x1E => { k with uimask := v.setWidth 16 }
  | 0x1F => { k with uipc := v }
  | _ => k

/-- A setting is pending in the scoreboard for the scalar latency (09 R190, 23 R409). -/
def Ctx.pendSetting (k : Ctx) (cycle n : Nat) : Ctx :=
  if k.vliw then k else { k with pend := k.pend ++ [⟨.setting n, some (cycle + 1), 0⟩] }

/-- The lanes that a per-lane special register is written to: every active lane of every group of the flow, or every
element of every owned cluster (14 R272). -/
def Env.flowLanes (e : Env) : List Nat :=
  if e.simt then ((e.k.flow e.flow).masks.map (fun p => (laneList p.2).map (fun l => 32 * p.1 + l))).flatten
  else List.range (16 * e.k.clusters)

/-- LANEID and GROUPID of a lane (11 R232). -/
def Env.laneSpecial (e : Env) (n l : Nat) : Word :=
  let w := if e.simt then 32 else 16
  loWord (if n = 0 then l % w else l / w)

/-- `sgets` (14 R272); a CYCLE read latches the high half for CYCLEHI and enters the load log (11 R232, 10 R212). -/
def scalarGets (e : Env) (s : State) : Planned :=
  let n := e.o.a
  if n ≤ 1 then e.scalarResult (e.flowLanes.map (fun l => ⟨.v e.o.d l, e.laneSpecial n l⟩)) s
  else
    let v := s.special e n
    if n = 0x15 then
      let s := if Config.loadLogMax ≤ (s.ctx e.core e.ctx).loadLog.length then s.closeInterval e.core e.ctx e.flow else s
      (s, .go (fun s =>
        (s.deliver 1 [⟨.s e.o.d, v⟩]).updCc (fun k =>
          { k.pendSetting s.cycle 0x16 with cycleHi := hiWord s.cycle, loadLog := k.loadLog ++ [[loWord s.cycle, hiWord s.cycle]] })))
    else e.scalarResult [⟨.s e.o.d, v⟩] s

/-- What the other slots of the bundle spilled keeps its address when TILEBASE changes (19 R388). -/
def Ctx.keepBase (k : Ctx) (d : Nat) : Ctx :=
  if (d = 0x1A ∨ d = 0x1B) ∧ k.anySpilled then { k with spillBase := some k.spillTo } else k

/-- `ssets` (14 R272): TILEHI and TILELO are refused while anything is spilled (19 R388). -/
def scalarSets (e : Env) (s : State) : Planned :=
  if (e.o.d = 0x1A ∨ e.o.d = 0x1B) ∧ e.k.anySpilled then e.trap 0x03 0x08 s
  else
    let v := e.k.readS e.o.a
    (s, .go (fun s => if !s.cc.live then s else
      s.updCc (fun k => ((k.keepBase e.o.d).setSpecial s.cycle e.o.d v).pendSetting s.cycle e.o.d)))

/-- The scalar family by major. -/
def planScalar (e : Env) (s : State) : Planned :=
  match e.o.major with
  | 0x01 => scalarBin (fun _ a b => a + b) e s
  | 0x02 => scalarBin (fun _ a b => a - b) e s
  | 0x03 => scalarMul e s
  | 0x04 => scalarBin mulHigh e s
  | 0x05 => scalarBin (bitwise Nat.land) e s
  | 0x06 => scalarBin (bitwise Nat.lor) e s
  | 0x07 => scalarBin (bitwise Nat.xor) e s
  | 0x08 => scalarShift shiftLeft e s
  | 0x09 => scalarShift shiftRight e s
  | 0x0A => scalarShift shiftArith e s
  | 0x0B => scalarBin (fun _ a b => min a b) e s
  | 0x0C => scalarBin (fun _ a b => max a b) e s
  | 0x0D => scalarCmp e s
  | 0x0E => scalarSel e s
  | 0x0F => scalarMov e s
  | 0x10 => scalarLi e s
  | 0x11 => scalarLih e s
  | 0x12 => scalarAdda e s
  | 0x13 => scalarGets e s
  | _ => scalarSets e s

end Sys2Proof.Machine
end

