-- ==== Sys2Proof/Machine/Lane.lean ====
section
/-! DEFINITION. Lane.lean: the lane family, majors 0x28 to 0x4F (15 R289 to R313). -/

namespace Sys2Proof.Machine

/-- The second source of a lane: register, port, or the imm6 sign-extended to 32 bits and read as the type (15 R291). -/
def Env.laneB (e : Env) (l : Nat) : Nat :=
  if e.o.form = 1 then (if e.o.wide then lowBits 64 e.o.imm6.toInt else e.o.imm6.toNat) else e.wideB l e.o.pairs

/-- A shift count or lane index: the single register v[B] as n32, or the zero-extended imm6 (15 R295, R306). -/
def Env.laneCountB (e : Env) (l : Nat) : Nat := if e.o.form = 1 then e.o.imm6u.toNat else (e.readB l).toNat

/-- An instruction that works within a single lane and gives a number of one register or a pair. -/
def laneOp (f : Nat → Nat) (e : Env) (s : State) : Planned :=
  e.laneResult (fun l => laneWrites e.o.d l e.o.pairs (f l)) (fun l => loWord (f l)) s

/-- A two-operand integer instruction on the values of its TYPE, with SAT (15 R292). -/
def laneBin (f : IntType → Int → Int → Int) (e : Env) (s : State) : Planned :=
  let t := intType e.o.ty
  laneOp (fun l => t.write e.o.sat (f t (t.read (e.wideA l e.o.pairs)) (t.read (e.laneB l)))) e s

/-- `mul`: product, quotient and remainder; a zero divisor in an active lane is cause 0x12 with DETAIL 0x2 (15 R292,
R293). -/
def laneMul (e : Env) (s : State) : Planned :=
  let t := intType e.o.ty
  let zeros := e.lanes.filter (fun l => t.read (e.laneB l) == 0)
  if e.o.sub ≠ 0 ∧ zeros ≠ [] then
    (s, .trap (e.trapAt { cause := 0x12, detail := 0x2, lanes := e.laneWord zeros }))
  else if e.o.sub = 1 then laneBin (fun _ a b => divTrunc a b) e s
  else if e.o.sub = 2 then laneBin (fun _ a b => remTrunc a b) e s
  else laneBin (fun _ a b => a * b) e s

/-- `mad` (15 R292). -/
def laneMad (e : Env) (s : State) : Planned :=
  let t := intType e.o.ty
  laneOp (fun l => t.write e.o.sat
    (t.read (e.readA l).toNat * t.read (e.readB l).toNat + t.read (e.k.readV e.o.c l).toNat)) e s

/-- `dp4` (15 R292): four byte products added to a 32-bit value. -/
def laneDp4 (e : Env) (s : State) : Planned :=
  let t := intType e.o.ty
  let r : IntType := ⟨32, t.signed⟩
  laneOp (fun l =>
    let a := (e.readA l).toNat
    let b := (e.readB l).toNat
    let dot := ((List.range 4).map (fun k => t.read (a / 256 ^ k) * t.read (b / 256 ^ k))).sum
    r.write e.o.sat (r.read (e.k.readV e.o.c l).toNat + dot)) e s

/-- Leading zero bits, set bits and the reversal of the low n bits (15 R294). -/
def leadingZeros (n x : Nat) : Nat := if x % 2 ^ n = 0 then n else n - 1 - Nat.log2 (x % 2 ^ n)
def popCount (n x : Nat) : Nat := ((List.range n).filter (fun k => x.testBit k)).length
def bitReverse (n x : Nat) : Nat := ((List.range n).map (fun k => if x.testBit k then 2 ^ (n - 1 - k) else 0)).sum

/-- The unary group by selector (15 R294). -/
def laneUnary (e : Env) (s : State) : Planned :=
  let t := intType e.o.ty
  let a := fun l => e.wideA l e.o.pairs
  match e.o.sel with
  | 0 => laneOp (fun l => t.bitsOf (t.read (2 ^ t.bits - 1 - a l % 2 ^ t.bits))) e s
  | 1 => laneOp (fun l => t.write e.o.sat ((t.read (a l)).natAbs : Int)) e s
  | 2 => laneOp (fun l => t.write e.o.sat (-(t.read (a l)))) e s
  | 3 => laneOp (fun l => t.write false (leadingZeros t.bits (a l) : Int)) e s
  | 4 => laneOp (fun l => t.write false (popCount t.bits (a l) : Int)) e s
  | _ => laneOp (fun l => t.write false (t.read (bitReverse t.bits (a l)))) e s

/-- `shl`, `shr`, `sra` (15 R295). -/
def laneShift (f : IntType → Nat → Nat → Int) (e : Env) (s : State) : Planned :=
  let t := intType e.o.ty
  laneOp (fun l => t.write false (f t (e.wideA l e.o.pairs) (e.laneCountB l))) e s

/-- A rotation to the left of the low n bits (15 R295). -/
def rotateLeft (t : IntType) (a c : Nat) : Int :=
  let k := c % t.bits
  let v := a % 2 ^ t.bits
  t.read (v * 2 ^ k % 2 ^ t.bits + v / 2 ^ (t.bits - k))

/-- Position and length of a bit field (15 R296). -/
def fieldPos (b : Nat) : Nat × Nat :=
  let p := min (b % 256) 32
  (p, min (b / 256 % 256) (32 - p))

/-- `bfe` (15 R296). -/
def laneBfe (e : Env) (s : State) : Planned :=
  laneOp (fun l =>
    let pk := fieldPos (e.readB l).toNat
    let x := (e.readA l).toNat / 2 ^ pk.1 % 2 ^ pk.2
    if pk.2 = 0 then 0 else if e.o.ty = 4 then lowBits 32 (sextInt pk.2 x) else x) e s

/-- `bfi` (15 R296). -/
def laneBfi (e : Env) (s : State) : Planned :=
  laneOp (fun l =>
    let pk := fieldPos (e.readB l).toNat
    let c := (e.k.readV e.o.c l).toNat
    let low := c % 2 ^ pk.1
    let high := c / 2 ^ (pk.1 + pk.2) * 2 ^ (pk.1 + pk.2)
    high + (e.readA l).toNat % 2 ^ pk.2 * 2 ^ pk.1 + low) e s

/-- An instruction that writes a lane predicate; its port receives 1 or 0 (15 R290). -/
def lanePred (f : Nat → Bool) (e : Env) (s : State) : Planned :=
  e.laneResult (fun l => [⟨.p e.o.d l, boolWord (f l)⟩]) (fun l => boolWord (f l)) s

/-- `cmp.cc` (15 R297). -/
def laneCmp (e : Env) (s : State) : Planned :=
  let t := intType e.o.ty
  lanePred (fun l => cmpInt e.o.sub (t.read (e.wideA l e.o.pairs)) (t.read (e.laneB l))) e s

/-- `sel` (15 R298): the third source is the old D, or the predicate p[C] in form 10; a narrow value is widened by its
type (12 R238). -/
def laneSel (e : Env) (s : State) : Planned :=
  let t := intType e.o.ty
  laneOp (fun l =>
    let c := if e.o.form = 2 then e.k.readP e.o.c l else decide (t.read (e.wideC l e.o.pairs) ≠ 0)
    t.bitsOf (t.read (if c then e.wideA l e.o.pairs else e.wideB l e.o.pairs))) e s

/-- `mov` and `movi` (15 R298). -/
def laneMov (e : Env) (s : State) : Planned :=
  let t := intType e.o.ty
  laneOp (fun l => t.bitsOf (t.read (e.wideA l e.o.pairs))) e s
def laneMovi (e : Env) (s : State) : Planned :=
  e.laneResult (fun l => [⟨.v e.o.d l, e.o.imm⟩]) (fun _ => e.o.imm) s

/-! ### Floating point (15 R299 to R303) -/

/-- A float instruction rounded once by RND, with SAT (12 R243, R245). -/
def laneFloat (f : FloatFmt → Nat → FVal) (e : Env) (s : State) : Planned :=
  let t := floatFmt e.o.ty
  laneOp (fun l => satFloat t e.o.sat (t.rnd e.o.rnd (f t l))) e s

def Env.fa (e : Env) (t : FloatFmt) (l : Nat) : FVal := t.val (e.readA l).toNat
def Env.fb (e : Env) (t : FloatFmt) (l : Nat) : FVal := t.val (e.readB l).toNat
def Env.fc (e : Env) (t : FloatFmt) (l : Nat) : FVal := t.val (e.k.readV e.o.c l).toNat

def laneFadd (e : Env) (s : State) : Planned :=
  laneFloat (fun t l => exactSum e.o.rnd [e.fa t l, e.fb t l]) e s
def laneFsub (e : Env) (s : State) : Planned :=
  laneFloat (fun t l => exactSum e.o.rnd [e.fa t l, (e.fb t l).neg]) e s
def laneFmul (e : Env) (s : State) : Planned := laneFloat (fun t l => mulExact (e.fa t l) (e.fb t l)) e s
def laneFma (e : Env) (s : State) : Planned :=
  laneFloat (fun t l => exactSum e.o.rnd [mulExact (e.fa t l) (e.fb t l), e.fc t l]) e s

/-- `fmin` and `fmax` (15 R300). -/
def laneFminmax (isMax : Bool) (e : Env) (s : State) : Planned :=
  let t := floatFmt e.o.ty
  laneOp (fun l => fminmax t isMax ((e.readA l).toNat % 2 ^ t.width) ((e.readB l).toNat % 2 ^ t.width)) e s

/-- `fcmp.cc` (15 R300). -/
def laneFcmp (e : Env) (s : State) : Planned :=
  let t := floatFmt e.o.ty
  lanePred (fun l => fcmpHolds t e.o.sub (e.readA l).toNat (e.readB l).toNat) e s

/-- `cvt` (15 R302): source and destination each of its own width. -/
def laneCvt (e : Env) (s : State) : Planned :=
  let w := if e.o.ty2 = 6 ∨ e.o.ty2 = 7 then 2 else 1
  let f := fun l => cvtBits e.o.ty e.o.ty2 e.o.rnd e.o.sat (e.wideA l w)
  e.laneResult (fun l => laneWrites e.o.d l e.o.pairs (f l)) (fun l => loWord (f l)) s

/-- `frnd` (15 R301). -/
def laneFrnd (e : Env) (s : State) : Planned :=
  let t := floatFmt e.o.ty
  laneOp (fun l => frndBits t e.o.rnd ((e.readA l).toNat % 2 ^ t.width)) e s

/-- The special-function group by selector (15 R303). -/
def laneSpecialFn (e : Env) (s : State) : Planned :=
  let t := floatFmt e.o.ty
  laneOp (fun l => satFloat t e.o.sat (specialFn e.o.sel t e.o.rnd ((e.readA l).toNat % 2 ^ t.width))) e s

/-! ### Cross-lane instructions (15 R304 to R312) -/

/-- LANEID of a lane within its span, and the lane of the span with a given number (15 R289). -/
def Env.spanSize (e : Env) : Nat := if e.simt then e.k.groupLanes else 16
def Env.laneId (e : Env) (l : Nat) : Nat := if e.simt then l % 32 else l % 16
def Env.spanBase (e : Env) : Nat := if e.simt then 32 * e.group else 16 * e.slot

/-- A lane by its number in the span, where it is a live source (15 R304). -/
def Env.spanLive (e : Env) (j : Nat) : Option Nat :=
  if j < e.spanSize ∧ e.lanes.contains (e.spanBase + j) then some (e.spanBase + j) else none

/-- The fill of a lane: its old destination, or v[C] in form 10 (15 R304). -/
def Env.fill (e : Env) (l : Nat) : Nat := e.wideC l e.o.pairs

/-- Each lane takes a live source's value, else its fill. -/
def laneGather (src : Nat → Option Nat) (e : Env) (s : State) : Planned :=
  laneOp (fun l => match src l with
    | some j => e.wideA j e.o.pairs
    | none => e.fill l) e s

/-- A lane of the team that is active for a `perm` in this flow: its mask bit and its guard (15 R304, R305). -/
def Env.teamLive (e : Env) (i : Nat) : Bool :=
  let g := i / 32
  (maskOf (e.k.flow e.flow).masks g).getLsbD (i % 32) && (e.k.readP e.o.g i != e.o.n)

/-- `perm` (15 R305): across the team in SIMT mode, within the cluster in VLIW mode. -/
def lanePerm (e : Env) (s : State) : Planned :=
  laneGather (fun l =>
    let i := (e.readB l).toNat
    if e.simt then (if i < e.k.laneCount ∧ e.teamLive i then some i else none) else e.spanLive i) e s

/-- `shfl` (15 R306). -/
def laneShfl (e : Env) (s : State) : Planned :=
  laneGather (fun l =>
    let n := e.laneId l
    let b := e.laneCountB l
    match e.o.sub with
    | 0 => e.spanLive b
    | 1 => if b ≤ n then e.spanLive (n - b) else none
    | 2 => e.spanLive (n + b)
    | _ => e.spanLive (Nat.xor n b)) e s

/-- The lowest active lane of the span. -/
def Env.lowest (e : Env) : Nat := e.lanes.headD 0

/-- `bcast` (15 R307). -/
def laneBcast (e : Env) (s : State) : Planned := laneGather (fun _ => e.spanLive (e.laneCountB e.lowest)) e s

/-- `vote` (15 R308). -/
def laneVote (e : Env) (s : State) : Planned :=
  let v := fun l => if e.o.form = 3 then e.readA l != 0 else e.k.readP e.o.a l
  if e.o.sub = 0 then
    let ballot := laneMask ((e.lanes.filter v).map e.laneId)
    e.laneResult (fun l => [⟨.v e.o.d l, ballot⟩]) (fun _ => ballot) s
  else
    let r := voteHolds e.o.sub (e.lanes.map v)
    lanePred (fun _ => r) e s

/-- The combination of the values of some lanes in ascending order (15 R309, 12 R253). -/
def Env.combine (e : Env) (ls : List Nat) : Nat :=
  let vals := ls.map (fun l => (e.readA l).toNat)
  if e.o.ty = 8 then
    match e.o.sub with
    | 0 => f32.rnd e.o.rnd (exactSum e.o.rnd (vals.map f32.val))
    | n => match vals with
      | [] => 0
      | v :: r => r.foldl (fminmax f32 (n == 2)) (fminmax f32 (n == 2) v v)
  else
    let t := intType e.o.ty
    let xs := vals.map t.read
    match xs with
    | [] => 0
    | x :: r =>
      match e.o.sub with
      | 0 => t.write e.o.sat (r.foldl (· + ·) x)
      | 1 => t.write false (r.foldl min x)
      | 2 => t.write false (r.foldl max x)
      | 3 => t.write false (r.foldl (bitwise Nat.land t) x)
      | 4 => t.write false (r.foldl (bitwise Nat.lor t) x)
      | _ => t.write false (r.foldl (bitwise Nat.xor t) x)

/-- `scan` and `red` (15 R309). -/
def laneScan (e : Env) (s : State) : Planned := laneOp (fun l => e.combine (e.lanes.filter (fun j => j ≤ l))) e s
def laneRed (e : Env) (s : State) : Planned :=
  let r := e.combine e.lanes
  laneOp (fun _ => r) e s

/-- `sample` (15 R310, 12 R254): the chosen span lane, the total and p7. -/
def laneSample (e : Env) (s : State) : Planned :=
  let low := e.lowest
  let cin := e.o.sub == 1
  let c : FVal := if cin then clampWeight (e.k.readV e.o.c low).toNat else .fin false 0 0
  let prefixOf := fun l => f32.rnd 0 (exactSum 0 (c :: (e.lanes.filter (fun j => j ≤ l)).map
    (fun j => clampWeight (e.readA j).toNat)))
  let total := prefixOf (e.lanes.getLastD 0)
  let u := (e.k.readS e.o.b).toNat
  let above := fun t => e.lanes.find? (fun l => cmpVal (f32.val (prefixOf l)) (f32.val t) == .gt)
  let pick : Option Nat :=
    if cin then
      let tb := (e.k.readV (e.o.c + 1) low).toNat
      let t' : FVal := match f32.val tb with
        | .nan => .fin false 0 0
        | .inf neg => if neg then .fin false 0 0 else f32.val (f32.maxFinite false)
        | .fin neg m x => if neg then .fin false 0 0 else .fin false m x
      let t := drawPoint u t'
      if !t'.isZero && cmpVal c (f32.val t) != .gt then above t else none
    else if (f32.val total).isZero then none
    else above (drawPoint u (f32.val total))
  let d : Word := match pick with
    | some l => loWord (e.laneId l)
    | none => 0xFFFFFFFF
  e.laneResult (fun l => [⟨.v e.o.d l, d⟩, ⟨.v (e.o.d + 1) l, loWord total⟩, ⟨.p 7 l, boolWord pick.isSome⟩])
    (fun _ => d) s

/-- `xmov` (15 R312): the source is read whatever its mask bit. -/
def laneXmov (e : Env) (s : State) : Planned :=
  let src := fun l => if e.simt then 32 * e.group + 16 * (e.o.b % 2) + l % 16 else 16 * e.o.b + l % 16
  e.laneResult (fun l => [⟨.v e.o.d l, e.k.readV e.o.a (src l)⟩]) (fun _ => 0) s

/-- The lane family by major. -/
def planLane (e : Env) (s : State) : Planned :=
  match e.o.major with
  | 0x28 => laneBin (fun _ a b => a + b) e s
  | 0x29 => laneBin (fun _ a b => a - b) e s
  | 0x2A => laneMul e s
  | 0x2B => laneBin mulHigh e s
  | 0x2C => laneMad e s
  | 0x2D => laneBin (bitwise Nat.land) e s
  | 0x2E => laneBin (bitwise Nat.lor) e s
  | 0x2F => laneBin (bitwise Nat.xor) e s
  | 0x30 => laneUnary e s
  | 0x31 => laneFadd e s
  | 0x32 => laneFsub e s
  | 0x33 => laneFmul e s
  | 0x34 => laneFma e s
  | 0x35 => laneFminmax false e s
  | 0x36 => laneFminmax true e s
  | 0x37 => laneFcmp e s
  | 0x38 => laneCvt e s
  | 0x39 => laneFrnd e s
  | 0x3A => laneSpecialFn e s
  | 0x3B => laneShift shiftLeft e s
  | 0x3C => laneShift shiftRight e s
  | 0x3D => laneShift shiftArith e s
  | 0x3E => laneShift rotateLeft e s
  | 0x3F => laneBin (fun _ a b => min a b) e s
  | 0x40 => laneBin (fun _ a b => max a b) e s
  | 0x41 => laneBfe e s
  | 0x42 => laneBfi e s
  | 0x43 => laneCmp e s
  | 0x44 => laneSel e s
  | 0x45 => laneMov e s
  | 0x46 => laneMovi e s
  | 0x47 => laneDp4 e s
  | 0x48 => lanePerm e s
  | 0x49 => laneShfl e s
  | 0x4A => laneVote e s
  | 0x4B => laneScan e s
  | 0x4C => laneRed e s
  | 0x4D => laneBcast e s
  | 0x4E => laneSample e s
  | _ => laneXmov e s

end Sys2Proof.Machine
end

