-- ==== Sys2Proof/Machine/Fetch.lean ====
section
/-! DEFINITION. Fetch.lean: fetching and decoding a stop group or a bundle, with the causes that stop it before
anything issues (03 R49; 09 R191, R193; 10 R204; 11 R220 to R223, R231; 14 R274, R276; 19 R391). -/

namespace Sys2Proof.Machine

/-- Up to `n` bytes of a core's code window from a code address on; none beyond its length (03 R47, R49). -/
def State.codeBytes (s : State) (core window addr n : Nat) : List Byte :=
  let w := SMap.get {} (s.core core).codeWin window
  if w.valid then (s.core core).istore.readBytes (w.base * 4096 + addr) (min n (w.len * 4096 - addr)) else []

/-- The cause of a word that is no instruction (13 R258, R260, R263; 11 R231). An operand field that the instruction does not
use comes before a refused form, by the lowest DETAIL (13 R265). (log 12, DESIGN CHOICE) -/
def decodeErrorCause (e : DecodeError) (p : Place) (s : State) : Nat × Nat :=
  match e with
  | .unassignedMajor => (0x02, 0)
  | .selector | .sub => (0x02, Config.unstatedDetail s.tick)
  | .form n => (0x03, if fieldsClear n p.simt && ownBitsClear (opd n) p then 0x02 else 0x01)
  | .parcel => (0x03, 0x04)
  | .header => (0x03, 0x01)
  | .short => (0x07, 0x1)

/-- A trap of the fetch or the decoder at a code address. (log 16, DEDUCED) -/
def decodeTrap (cd : Nat × Nat) (slots : BitVec 16) (addr : Word) : Trap :=
  { cause := cd.1, detail := cd.2, slots := slots, addr := some addr, fetch := cd.1 == 0x07 }

/-- The landing-pad check of an indirect target (14 R276, 19 R391): the kinds found, and the site. -/
def landingTrap (pads : List Nat) (landing : Option (Word × Nat)) (addr : Word) : Option Trap :=
  match landing with
  | none => none
  | some (site, kind) =>
    if pads.contains kind then none
    else some { cause := 0x09, detail := if pads = [] then 1 else 2, addr := some addr, fault := site.setWidth 64 }

/-- The pad kind of an op: 0 for `lpad.c`, 1 for `lpad.j`. -/
def padKind (n : Info) : List Nat := if n.major = 0x1D then [n.sel.toNat] else []

/-! ### SIMT stop groups -/

/-- Where an op of a SIMT context stands. -/
def Ctx.simtPlace (k : Ctx) : Place :=
  { simt := true, half := k.mode == .half, slot := 0, nregs := k.nregs, clusters := 0 }

/-- Where an op of a bundle stands. -/
def Ctx.vliwPlace (k : Ctx) (slot : Nat) : Place :=
  { simt := false, half := false, slot := slot, nregs := k.nregs, clusters := k.clusters }

/-- The trap of a word of the SIMT stream that is no instruction, with the slots of its class. -/
def wordTrap (s : State) (k : Ctx) (bs : List Byte) (e : DecodeError) (addr : Word) : Trap :=
  let major := match takeWord bs with
    | some (w, _) => (fMajor w).toNat
    | none => 0
  decodeTrap (decodeErrorCause e k.simtPlace s) (match e with
    | .short => 0
    | .unassignedMajor => simtClusters k
    | _ => simtSlots k { opd ⟨0, 0, 0, opF 0, .none⟩ with major := major }) addr

/-- The instructions of a stop group from a code address on; `before` are those already decoded, and the fuel is how
many more the group may hold: a seventeenth is decoded for its own causes, which rank with that of the length (09 R191; 10
R204). -/
def decodeGroup (s : State) (core : Nat) (k : Ctx) (addr : Word) (before : List GroupOp) :
    Nat → Except Trap (List GroupOp)
  | 0 =>
    match decodeSimt (s.codeBytes core k.window addr.toNat 8) with
    | .error e => .error (wordTrap s k (s.codeBytes core k.window addr.toNat 8) e addr)
    | .ok (n, _) => .error (decodeTrap (0x03, min 0x12 ((encodingCause n k.simtPlace).getD 0x12)) (simtSlots k (opd n)) addr)
  | fuel + 1 =>
    let bs := s.codeBytes core k.window addr.toNat 8
    match decodeSimt bs with
    | .error e => .error (wordTrap s k bs e addr)
    | .ok (n, _) =>
      let o := opd n
      match encodingCause n k.simtPlace with
      | some d => .error (decodeTrap (0x03, d) (simtSlots k o) addr)
      | none =>
        if isControl o.major && !o.s then .error (decodeTrap (0x03, 0x12) (simtSlots k o) addr)
        else if before.any (fun b => dependsOn o (opd b.op)) then .error (decodeTrap (0x04, 0) (simtSlots k o) addr)
        else
          let ops := before ++ [⟨addr, n⟩]
          if o.s then .ok ops else decodeGroup s core k (addr + BitVec.ofNat 32 n.len) ops fuel

/-- An indirect target where no pad can stand, as it is no multiple of 4; the fetch fault of an address beyond the window
comes first (10 R204; 14 R276). -/
def State.misLanding (s : State) (core : Nat) (k : Ctx) (f : Flow) : Option Trap :=
  if f.landing.isNone || f.pc.toNat % 4 == 0 then none
  else if (s.codeBytes core k.window f.pc.toNat 4).length < 4 then some (decodeTrap (0x07, 0x1) 0 f.pc)
  else landingTrap [] f.landing f.pc

/-- The stop group at a flow's position. Its landing pad is checked when its first instruction issues. -/
def fetchGroup (s : State) (core : Nat) (k : Ctx) (f : Flow) : Except Trap (List GroupOp) :=
  match s.misLanding core k f with
  | some t => .error t
  | none => decodeGroup s core k f.pc [] 16

/-- The groups with lanes, ascending: the passes of a stop group (05 R105). -/
def Flow.passes (f : Flow) : List Nat := f.masks.map Prod.fst

/-- A stop group opened at a flow's position: its first pass is the first one with lanes. -/
def openGroup (f : Flow) (ops : List GroupOp) : StopGroup :=
  { ops := ops, pass := f.passes.headD 0, pos := 0, first := f.passes.headD 0 }

/-! ### VLIW bundles -/

/-- A bundle as it was fetched: the code address of its header or reference, the address after it, and its ops. -/
structure Fetched where
  addr : Word
  next : Word
  ops : List (Nat × Info)
  deriving DecidableEq, Repr

/-- The address of the first item at or after an address that is no pad (11 R221). -/
def State.skipPads (s : State) (core window : Nat) (addr : Word) : Nat → Word
  | 0 => addr
  | fuel + 1 =>
    if s.codeBytes core window addr.toNat 2 = [0, 0] then s.skipPads core window (addr + 2) fuel else addr

/-- Every pad of a window is passed within this many. -/
def padFuel : Nat := 131072

/-- A pattern entry's slot mask and op words (09 R193). -/
def patBundle (words : List Word) : Bundle :=
  let slots := (words.headD 0).setWidth 16
  ⟨slots, (words.drop 1).take (slotList slots).length⟩

/-- What stands at an address where a bundle may begin, pads passed: its address, the address after it, its slot mask
and words. -/
def State.fetchItem (s : State) (core : Nat) (k : Ctx) (pc : Word) : Except Trap (Word × Word × Bundle) :=
  let addr := s.skipPads core k.window pc padFuel
  let bs := s.codeBytes core k.window addr.toNat 132
  match decodeVliw bs with
  | .error e => .error (decodeTrap (decodeErrorCause e (k.vliwPlace 0) s) 0 addr)
  | .ok (.pad, _) => .error (decodeTrap (0x07, 0x1) 0 addr)
  | .ok (.bundle b, r) => .ok (addr, addr + BitVec.ofNat 32 (bs.length - r.length), b)
  | .ok (.reference i, _) =>
    match SMap.find? k.pats i.toNat with
    | none => .error (decodeTrap (0x0F, 0x1) 0 addr)
    | some e =>
      if e.valid then .ok (addr, addr + 2, patBundle e.words) else .error (decodeTrap (0x0F, 0x2) 0 addr)

/-- The bytes that the item at an address takes: a header with reserved bits takes its op and extended words with it, and
a pad or reference with reserved bits, or a parcel of the reserved kind, its one parcel (11 R221, R222). (log 12, DESIGN
CHOICE) -/
def State.itemLength (s : State) (core : Nat) (k : Ctx) (addr : Word) : Nat :=
  let bs := s.codeBytes core k.window addr.toNat 132
  match decodeVliw bs with
  | .ok (_, r) => bs.length - r.length
  | .error .header => 4 + 4 * ((headerBundle bs).map (fun b => b.words.length)).getD 0
  | .error .parcel => 2
  | .error _ => 4

/-- The address of the bundle or reference after the one at an address, pads passed. A reference takes two bytes whatever
its entry holds (11 R221). -/
def State.bundleAfter (s : State) (core : Nat) (k : Ctx) (pc : Word) : Word :=
  let addr := s.skipPads core k.window pc padFuel
  s.skipPads core k.window (addr + BitVec.ofNat 32 (s.itemLength core k addr)) padFuel

/-- The branch ops (14 R274). -/
def isBranchOp (major : Nat) : Bool :=
  (0x18 ≤ major && major ≤ 0x1C) || major == 0x1F || major == 0x20 || major == 0x22 || major == 0x24

/-- The decode cause of one op of a bundle at an address (10 R204, step 2). -/
def Ctx.opCause (k : Ctx) (s : State) (addr : Word) (slot : Nat) (r : Except DecodeError Info) : Option (Nat × Nat) :=
  match r with
  | .error e => some (decodeErrorCause e (k.vliwPlace slot) s)
  | .ok n =>
    match encodingCause n (k.vliwPlace slot) with
    | some d => some (0x03, d)
    | none =>
      if !isBranchOp n.major.toNat then none
      else if k.delay.isSome then some (0x05, 0x1)
      else match k.loops.getLast? with
        | some e => if e.stop = addr then some (0x05, 0x2) else none
        | none => none

/-- The trap of several decode causes: the cause that R204 names first, with its lowest DETAIL (13 R265), and every slot
with a cause. -/
def decodeCauses (cs : List (Nat × Nat × Nat)) (addr : Word) : Option Trap :=
  let slots := cs.foldl (fun m c => m ||| (1#16 <<< c.1)) 0
  match [0x07, 0x0F, 0x02, 0x03, 0x05, 0x04].findSome? (fun cause => cs.find? (fun c => c.2.1 == cause)) with
  | none => none
  | some c =>
    let details := (cs.filter (fun d => d.2.1 == c.2.1)).map (fun d => d.2.2)
    some (decodeTrap (c.2.1, details.foldl min c.2.2) slots addr)

/-- The decode causes of a bundle's words, with their slots. -/
def wordCauses (s : State) (k : Ctx) (addr : Word) (b : Bundle) : List (Nat × Nat × Nat) :=
  (bundleOps (slotList b.slots) b.words).filterMap (fun p => (k.opCause s addr p.1 p.2).map (fun c => (p.1, c)))

/-- The ops of a bundle's words that are well encoded in their slots. -/
def goodOps (k : Ctx) (b : Bundle) : List (Nat × Info) :=
  (bundleOps (slotList b.slots) b.words).filterMap (fun p => match p.2 with
    | .ok n => if (encodingCause n (k.vliwPlace p.1)).isNone then some (p.1, n) else none
    | .error _ => none)

/-- The ops of a bundle's words, every slot checked. -/
def checkBundle (s : State) (k : Ctx) (addr : Word) (b : Bundle) : Except Trap (List (Nat × Info)) :=
  match decodeCauses (wordCauses s k addr b) addr with
  | some t => .error t
  | none => .ok (goodOps k b)

/-- The bundle at a flow's position, with the landing-pad check: the pad stands in slot br (14 R276). -/
def fetchBundle (s : State) (core : Nat) (k : Ctx) (f : Flow) : Except Trap Fetched :=
  match s.misLanding core k f with
  | some t => .error t
  | none =>
    match s.fetchItem core k f.pc with
    | .error t => .error t
    | .ok (addr, next, b) =>
      match checkBundle s k addr b with
      | .error t => .error t
      | .ok ops =>
        match landingTrap ((ops.map (fun p => padKind p.2)).flatten) f.landing addr with
        | some t => .error t
        | none => .ok { addr := addr, next := next, ops := ops }

end Sys2Proof.Machine
end

