-- ==== Sys2Proof/Machine/Spill.lean ====
section
/-! DEFINITION. Spill.lean: the context's own accesses outside its instructions: seam, loop and return-stack entries
that spill to the area at TILEBASE and fill from it (05 R100; 14 R277; 19 R388 to R390; 10 R415). -/

namespace Sys2Proof.Machine

/-! ### Accesses of a context by virtual address -/

/-- The trap of a translation that failed (03 R53). -/
def TransFault.trap (f : TransFault) (part va : Nat) (write : Bool) : Trap :=
  { cause := f.cause, detail := f.detail, fault := dword (f.addr va), write := write, logs := f.table.map (fun t => (part, t.1)) }

/-- Bytes that a context's hardware writes at a virtual address for one of its flows (19 R389): a task's into its write
set; a store to a peer device is irrevocable for a task (06 R127), and that of a plain context stays outstanding, or is lost where
no port reaches the device (02 R39). The register space takes no such access (07 R147). (log 103, DESIGN CHOICE) -/
def State.ctxStore (s : State) (c x f va : Nat) (bs : List Byte) : Except Trap State :=
  let k := s.ctx c x
  match s.translate c k.asid va true with
  | (s, .error e) => .error (e.trap (SMap.get {} s.aspaces k.asid).part va true)
  | (s, .ok p) =>
    match p.peer with
    | some d =>
      if k.task.isSome then .error { cause := 0x0B, detail := 0x7, write := true }
      else if s.peerReached d then
        .ok ((s.reply (.peerWrite d p.pa bs)).sendStore c x ⟨.peer d p.pa, bs, dword va, f⟩)
      else .ok (s.updCtx c x (fun k => k.peerLost (dword va)))
    | none =>
      if Config.regSpace ≤ p.pa then .error { cause := 0x06, fault := dword va, write := true }
      else .ok (s.checkedWrite k.part p.pa (fun s => match k.task with
          | some t => s.taskStore c x t p.pa { dst := .mem p.pa, bytes := bs, va := dword va, flow := f }
          | none => s.homeWrite p.pa bs))

/-- Bytes that a context's hardware reads at a virtual address; data that its home slice refuses or that is poisoned
traps when consumed (02 R23, 07 R148). (log 42, DEDUCED) -/
def State.ctxFetch (s : State) (c x va n : Nat) : Except Trap (State × List Byte) :=
  let k := s.ctx c x
  match s.translate c k.asid va false with
  | (s, .error f) => .error (f.trap (SMap.get {} s.aspaces k.asid).part va false)
  | (s, .ok p) =>
    match p.peer with
    | some d =>
      if s.peerReached d then
        .ok (s, (List.zip (List.range n) (s.freeBytes 0 n)).map (fun q => s.viewPeer c x d (p.pa + q.1) q.2))
      else .error { cause := 0x16, fault := dword va, peer := true }
    | none =>
      if Config.regSpace ≤ p.pa then .error { cause := 0x06, fault := dword va }
      else
        match s.rangeCheck k.part p.pa n false with
        | none => .ok (s, match k.task with
            | some t => s.taskBytes t p.pa n
            | none => s.mem.readBytes p.pa n)
        | some (a, .media) => .error { cause := 0x15, detail := 0x1, fault := dword (a / 128 * 128) }
        | some (a, _) => .error { cause := 0x08, detail := 0x1, fault := dword va, logs := some (k.part, a) }

/-! ### Records of seam and loop entries (10 R415) -/

def maskBytes (m : SMap Word) : List Byte := ((List.range 32).map (fun g => leBytes 4 (maskOf m g).toNat)).flatten

def masksOf (bs : List Byte) (off : Nat) : SMap Word :=
  (List.range 32).foldl (fun m g => setMask m g (BitVec.ofNat 32 (fieldAt bs (off + 4 * g) 4))) []

def padTo (n : Nat) (bs : List Byte) : List Byte := bs ++ List.replicate (n - bs.length) 0

/-- A seam entry's record. A deferred path that runs already has no record of its own in R415: the model writes it as
KIND 0x01 with created index 0xFE and the owner's masks at its arrival (notes/assumptions/23.md). (log 23, DESIGN CHOICE) -/
def Seam.record (e : Seam) : List Byte :=
  let head : Nat → Word → Word → List Byte := fun kind pc gv =>
    padTo 128 ([byteOf kind, byteOf e.owner, byteOf e.created, 0] ++ leBytes 4 e.addr.toNat ++ leBytes 4 pc.toNat
      ++ leBytes 4 gv.toNat)
  match e.deferred with
  | .no => head 1 0 0 ++ maskBytes e.union
  | .waiting pc m _ => head 2 pc (groupValid m) ++ maskBytes m
  | .running m => head 1 0 0 ++ maskBytes m

def Seam.ofRecord (bs : List Byte) : Seam :=
  let kind := fieldAt bs 0 1
  let m := masksOf bs 128
  let created := fieldAt bs 2 1
  { addr := BitVec.ofNat 32 (fieldAt bs 4 4)
    owner := fieldAt bs 1 1
    created := created
    union := m
    deferred := if kind = 2 then .waiting (BitVec.ofNat 32 (fieldAt bs 8 4)) m none
      else if created = 0xFE then .running m else .no }

/-- The iterations begun, which the trace alone asks for (10 R218), have no place in the record; a spilled entry's are kept
beside it. (log 46, DESIGN CHOICE) -/
def LoopEntry.record (e : LoopEntry) : List Byte :=
  padTo 256 ([3, byteOf e.stages, byteOf (if e.drain then 1 else 0), 0] ++ leBytes 4 e.start.toNat
    ++ leBytes 4 e.stop.toNat ++ leBytes 4 e.count.toNat ++ [e.saved])

def LoopEntry.ofRecord (bs : List Byte) : LoopEntry :=
  { start := BitVec.ofNat 32 (fieldAt bs 4 4), stop := BitVec.ofNat 32 (fieldAt bs 8 4)
    count := BitVec.ofNat 32 (fieldAt bs 12 4), stages := fieldAt bs 1 1, drain := fieldAt bs 2 1 % 2 == 1
    saved := BitVec.ofNat 8 (fieldAt bs 16 1) }

/-! ### Seam and loop stack -/

/-- The address of a spilled seam or loop entry, and of a spilled return address (19 R388). -/
def Ctx.seamSpillAt (k : Ctx) (j : Nat) : Nat := (k.spillTo + 0x40000 + 256 * j) % 2 ^ 64
def Ctx.rasSpillAt (k : Ctx) (j : Nat) : Nat := (k.spillTo + 0x50000 + 4 * j) % 2 ^ 64

/-- Does an entry hold lanes back, those of a deferred path or those that wait for one; with the path's unchecked landing. -/
def Seam.away (e : Seam) : Option (Option (Word × Nat)) :=
  match e.deferred with
  | .no => none
  | .waiting _ m l => if m = [] then none else some l
  | .running m => if m = [] then none else some none

/-- The services of `callx` entries on a flow's return stack, innermost first (14 R277). -/
def Ctx.services (k : Ctx) (f : Nat) : List CallService :=
  if f = 255 then k.ras.reverse.filterMap RetEntry.service ++ (k.rasServices.map Prod.snd).reverse
  else (k.flow f).overlay.filterMap RetEntry.service

/-- Lanes that services of `callx` hold aside: in no flow while a callee runs for other targets' lanes (14 R277). -/
def Ctx.aside (k : Ctx) : SMap Word :=
  let held := k.flows.foldl (fun m p => (k.services p.1).foldl (fun m v => maskUnion m v.masks) m) []
  k.flows.foldl (fun m p => maskDiff m p.2.masks) held

/-- Are no lanes of a team in a deferred path, none waiting at its seam for one that runs, and none held aside by a `callx`? -/
def Ctx.noneAway (k : Ctx) : Bool :=
  k.seams.all (fun e => e.away.isNone) && k.awaySpilled == [] && k.aside == []

/-- A filled entry with the landing of its deferred path, which its record has no place for. -/
def Seam.land (e : Seam) (l : Option (Word × Nat)) : Seam :=
  { e with deferred := match e.deferred with
      | .waiting pc m _ => .waiting pc m l
      | d => d }

/-- The flows that an entry names take other numbers. -/
def Seam.renumber (num : Nat → Nat) (e : Seam) : Seam := { e with owner := num e.owner, created := num e.created }

/-- Flows take other numbers: the spilled entries name them by the old ones until they fill. -/
def Ctx.noteNames (k : Ctx) (m : SMap Nat) : Ctx :=
  if k.stackSpilled = 0 then k else { k with spillNames := k.spillNames ++ [(k.stackSpilled, m)] }

/-- A filled entry, as the record in memory and what is kept beside it give it. -/
def Ctx.filled (k : Ctx) (j : Nat) (bs : List Byte) : Seam :=
  k.spillNames.foldl (fun e p => if j < p.1 then e.renumber (fun n => SMap.get n p.2 n) else e)
    { (Seam.ofRecord bs).land (SMap.find? k.awaySpilled j).join with calls := SMap.get 0 k.callsSpilled j }

/-- Room on the seam stack for a flow: the bottom entry spills while the stack is full (05 R100, 19 R390). -/
def State.spillSeam (s : State) (c x f : Nat) : Except Trap State :=
  let k := s.ctx c x
  match k.seams with
  | [] => .ok s
  | e :: rest =>
    if k.seams.length < 16 then .ok s
    else if 256 ≤ k.stackSpilled then .error { cause := 0x0A, detail := 0x4 }
    else (s.ctxStore c x f (k.seamSpillAt k.stackSpilled) e.record).map (fun s =>
      s.updCtx c x (fun k =>
        { k.spillOver with
                 seams := rest
                 callsSpilled := if e.calls = 0 then SMap.erase k.callsSpilled k.stackSpilled
                   else SMap.insert k.callsSpilled k.stackSpilled e.calls
                 awaySpilled := match e.away with
                   | some l => SMap.insert k.awaySpilled k.stackSpilled l
                   | none => SMap.erase k.awaySpilled k.stackSpilled
                 stackSpilled := k.stackSpilled + 1 }))

/-- The most recent spilled seam entry returns to the bottom of the stack. -/
def State.fillSeam (s : State) (c x : Nat) : Except Trap State :=
  let k := s.ctx c x
  if k.stackSpilled = 0 then .ok s
  else (s.ctxFetch c x (k.seamSpillAt (k.stackSpilled - 1)) 256).map (fun p =>
    p.1.updCtx c x (fun k =>
      let j := k.stackSpilled - 1
      { k with seams := k.filled j p.2 :: k.seams, stackSpilled := j, awaySpilled := SMap.erase k.awaySpilled j
               callsSpilled := SMap.erase k.callsSpilled j
               spillNames := (k.spillNames.map (fun p => (min p.1 j, p.2))).filter (fun p => p.1 != 0) }))

/-- A push onto the seam stack. -/
def State.pushSeam (s : State) (c x f : Nat) (e : Seam) : Except Trap State :=
  (s.spillSeam c x f).map (fun s => s.updCtx c x (fun k => { k with seams := k.seams ++ [e] }))

/-- A push onto the loop stack of eight entries (09 R194, 14 R280). -/
def State.pushLoop (s : State) (c x : Nat) (e : LoopEntry) : Except Trap State :=
  let k := s.ctx c x
  let push : State → State := fun s => s.updCtx c x (fun k => { k with loops := k.loops ++ [e] })
  match k.loops with
  | b :: rest =>
    if k.loops.length < 8 then .ok (push s)
    else if 256 ≤ k.stackSpilled then .error { cause := 0x0A, detail := 0x4 }
    else (s.ctxStore c x 255 (k.seamSpillAt k.stackSpilled) b.record).map (fun s =>
      push (s.updCtx c x (fun k =>
        { k.spillOver with
                 loops := rest, begunSpilled := SMap.insert k.begunSpilled k.stackSpilled b.begun
                 drainSpilled := if b.drain then k.drainSpilled ++ [k.stackSpilled] else k.drainSpilled
                 stackSpilled := k.stackSpilled + 1 })))
  | [] => .ok (push s)

/-- The innermost loop entry pops: its saved stage predicates return, and a stack left empty fills (09 R194); a loop that drains
until the context resumes drains also while its entry is spilled, and no longer (09 R196). -/
def State.popLoop (s : State) (c x : Nat) : Except Trap State :=
  let k := s.ctx c x
  match k.loops.getLast? with
  | none => .ok s
  | some e =>
    let s := s.emit c x 255 0x06 (leBytes 4 e.begun.toNat) (k.flow 255).pc (k.flow 255).masks
    let s := s.updCtx c x (fun k => { k with loops := k.loops.dropLast, ps := e.saved })
    let k := s.ctx c x
    if k.loops = [] ∧ k.stackSpilled ≠ 0 then
      (s.ctxFetch c x (k.seamSpillAt (k.stackSpilled - 1)) 256).map (fun p =>
        p.1.updCtx c x (fun k =>
          let j := k.stackSpilled - 1
          { k with loops := [{ LoopEntry.ofRecord p.2 with begun := SMap.get 0 k.begunSpilled j, drain := k.drainSpilled.contains j }]
                   stackSpilled := j, drainSpilled := k.drainSpilled.filter (fun n => n != j)
                   begunSpilled := SMap.erase k.begunSpilled j }))
    else .ok s

/-! ### Return-address stack (14 R277, 05 R102) -/

/-- A push of a return address: the main flow's stack of 16 spills its bottom entry; a fragment's overlay holds four.
A callee's service list of a spilled entry is kept beside it (notes/assumptions/23.md). -/
def State.pushRet (s : State) (c x f : Nat) (e : RetEntry) : Except Trap State :=
  let k := s.ctx c x
  if f = 255 then
    match k.ras with
    | b :: rest =>
      if k.ras.length < 16 then .ok (s.setCtx c x { k with ras := k.ras ++ [e] })
      else if 4096 ≤ k.rasSpilled then .error { cause := 0x0A, detail := 0x5 }
      else (s.ctxStore c x f (k.rasSpillAt k.rasSpilled) (leBytes 4 b.addr.toNat)).map (fun s =>
        s.updCtx c x (fun k =>
          { k.spillOver with
                   ras := rest ++ [e]
                   rasServices := match b.service with
                     | some v => SMap.insert k.rasServices k.rasSpilled v
                     | none => SMap.erase k.rasServices k.rasSpilled
                   rasSpilled := k.rasSpilled + 1 }))
    | [] => .ok (s.setCtx c x { k with ras := [e] })
  else if 4 ≤ (k.flow f).overlay.length then .error { cause := 0x0A, detail := 0x1 }
  else .ok (s.setCtx c x (k.updFlow f (fun fl => { fl with overlay := e :: fl.overlay })))

/-- The top entry of a flow's return stack, filled where the main flow's is empty; nothing is popped. -/
def State.topRet (s : State) (c x f : Nat) : Except Trap (State × RetEntry) :=
  let k := s.ctx c x
  if f = 255 then
    match k.ras.getLast? with
    | some e => .ok (s, e)
    | none =>
      if k.rasSpilled = 0 then .error { cause := 0x0A, detail := 0x3 }
      else
        let j := k.rasSpilled - 1
        (s.ctxFetch c x (k.rasSpillAt j) 4).map (fun p =>
          let e : RetEntry := { addr := BitVec.ofNat 32 (leNat p.2), service := SMap.find? k.rasServices j }
          (p.1.updCtx c x (fun k =>
            { k with ras := [e], rasSpilled := j, rasServices := SMap.erase k.rasServices j }), e))
  else
    match (k.flow f).overlay with
    | e :: _ => .ok (s, e)
    | [] => .error { cause := 0x0A, detail := 0x2 }

/-- The top entry pops, or stands changed. -/
def Ctx.setTop (k : Ctx) (f : Nat) (e : Option RetEntry) : Ctx :=
  let tail : List RetEntry := e.toList
  if f = 255 then { k with ras := k.ras.dropLast ++ tail }
  else k.updFlow f (fun fl => { fl with overlay := tail ++ fl.overlay.drop 1 })

end Sys2Proof.Machine
end

