-- ==== Sys2Proof/Machine/Control.lean ====
section
/-! DEFINITION. Control.lean: flows, seams and the ends of teams, and the control family, majors 0x00 and 0x18 to 0x26
(05 R98 to R102; 09 R194; 14 R273 to R288). -/

namespace Sys2Proof.Machine

/-! ### Ends of contexts -/

/-- A context's resources are released: it is no longer on the core (05 R89). Of its operations in the matrix queue the one that
runs completes, and holds the scratchpad until then (17 R342). -/
def State.freeContext (s : State) (c x : Nat) : State :=
  let k := s.ctx c x
  let s := s.dropOwed c x
  let quit : Message → Message := fun m => if m.sender = some (c, x) then { m with sender := none } else m
  let s : State := { s with cores := s.cores.map (fun (p : Nat × Core) =>
    (p.1, if p.2.messages = [] then p.2 else { p.2 with messages := p.2.messages.map quit })) }
  s.updCore c (fun co =>
    { co with ctxs := SMap.erase co.ctxs x
              parked := co.parked.filter (fun p => p.ctx != x)
              ckpt := SMap.erase co.ckpt x
              rolled := SMap.erase co.rolled x
              mxQ := match co.mxQ with
                | [] => []
                | o :: r => (if o.ctx = x then { o with ctx := 255, holds := some (k.spadBase, k.spadLen) } else o)
                    :: r.filter (fun o => o.ctx != x)
              tilesUse := co.tilesUse.filter (fun p => p.1 != x)
              claims := co.claims.filter (fun q => q.ctx != some x)
              codeWin := match SMap.find? co.codeWin k.window with
                | some w => SMap.insert co.codeWin k.window { w with refs := w.refs - 1 }
                | none => co.codeWin })

/-- Has no flow of the team any lanes (05 R101)? -/
def Ctx.noLanes (k : Ctx) : Bool := k.flows.all (fun p => p.2.masks == []) && k.aside == []

/-- The end of a plain team or a handler, once no flow has lanes and every engine command has completed (14 R286; 18
R357); operations in the matrix queue are waited for as well (notes/assumptions/24.md). A task ends by its commit. (log 24, DEDUCED) -/
def State.tryTeamEnd (s : State) (c x : Nat) : State :=
  let k := s.ctx c x
  if k.live && k.noLanes && k.task.isNone && k.eq.all (fun p => p.2 == []) && (s.core c).mxQ.all (fun o => o.ctx != x)
      && (s.core c).parked.all (fun p => p.ctx != x) then
    let s := s.freeContext c x
    if k.handler then s
    else match SMap.find? s.grids k.grid with
      | some g => { s with grids := SMap.insert s.grids k.grid { g with exited := g.exited ++ [k.team] } }
      | none => s
  else s

/-! ### Fragments (05 R99) -/

/-- The fragment entries in use on a core. -/
def Core.fragmentsUsed (co : Core) : List Nat :=
  (co.ctxs.map (fun p => (p.2.flows.map Prod.fst).filter (fun n => n < 64))).flatten

/-- The lowest free entry that a context may use: its three reserved ones, then the shared ones. -/
def Core.freeFragment (co : Core) (x : Nat) : Option Nat :=
  let used := co.fragmentsUsed
  let own := if x < 16 then [3 * x, 3 * x + 1, 3 * x + 2] else []
  (own ++ (List.range 16).map (fun n => 48 + n)).find? (fun n => !used.contains n)

/-- Does a flow take part in an entry? -/
def Seam.has (e : Seam) (f : Nat) : Bool := e.owner == f || e.created == f

/-- Lanes leave a flow: a fragment with its own PC and masks, or a deferred path, and the seam entry that names them
(05 R98 to R100). Answers the index created. -/
def State.detach (s : State) (c x f : Nat) (seam pc : Word) (masks : SMap Word) (landing : Option (Word × Nat)) :
    Except Trap (State × Nat) :=
  let k := s.ctx c x
  let fl := k.flow f
  let e : Seam := { addr := seam, owner := f, created := 0xFE, union := fl.masks, calls := (k.services f).length }
  match (s.core c).freeFragment x with
  | some n =>
    (s.pushSeam c x f { e with created := n }).map (fun s =>
      (s.updCtx c x (fun k =>
        let k := k.updFlow f (fun fl => { fl with masks := maskDiff fl.masks masks })
        { k.setFlow n { pc := pc, masks := masks, detach := k.detaches + 1, landing := landing } with
          detaches := k.detaches + 1 }), n))
  | none =>
    (s.pushSeam c x f { e with deferred := .waiting pc masks landing }).map (fun s =>
      (s.updCtx c x (fun k => k.updFlow f (fun fl => { fl with masks := maskDiff fl.masks masks })), 0xFE))

/-! ### Merging at a seam (05 R101, 14 R278) -/

/-- Do services of a flow's `callx` entries above the first n hold lanes (14 R277)? -/
def Ctx.serves (k : Ctx) (f n : Nat) : Bool :=
  let vs := k.services f
  (vs.take (vs.length - n)).any (fun v => v.masks != [])

/-- Has a participant of an entry arrived, or no lanes left that could? Lanes that a `callx` which came after the detach holds
aside are left. -/
def Ctx.atRest (k : Ctx) (e : Seam) (f : Nat) : Bool :=
  (k.flow f).wait == .seam || ((k.flow f).masks == [] && !k.serves f (if f = e.owner then e.calls else 0))

/-- The position of the innermost entry that is complete: every participant at rest, with no inner entry in which one
of them takes part; a deferred path that has not run asks only for the owner. -/
def Ctx.completeSeam (k : Ctx) : Option Nat :=
  (List.range k.seams.length).reverse.find? (fun i =>
    match k.seams[i]? with
    | none => false
    | some e =>
      let inner := k.seams.drop (i + 1)
      let parts := if e.created = 0xFE then [e.owner] else [e.owner, e.created]
      parts.all (fun f => k.atRest e f && inner.all (fun j => !j.has f)))

/-- The position of the innermost entry in which a flow takes part. -/
def Ctx.innermost (k : Ctx) (f : Nat) : Option Seam := (k.seams.reverse).find? (fun e => e.has f)

/-- A flow's place in outer entries passes to the flow that continues. (log 45, DEDUCED) -/
def Seam.rename (a b : Nat) (e : Seam) : Seam :=
  { e with owner := if e.owner = a then b else e.owner, created := if e.created = a then b else e.created
           calls := if e.owner = a then 0 else e.calls }

/-- After a merge the flow continues behind the seam, or arrives at its next entry where that one names the same
address. -/
def Ctx.continueFlow (k : Ctx) (f : Nat) (addr : Word) : Ctx :=
  let again := match k.innermost f with
    | some e => e.addr == addr
    | none => false
  if again && (k.flow f).masks != [] then k.updFlow f (fun fl => { fl with pc := addr, wait := .seam, group := none })
  else k.updFlow f (fun fl => { fl with pc := addr + 4, wait := .none, group := none })

/-- One entry that is complete: a deferred path starts in the owner's place, or the parts merge, the fragment entry is
freed and the seam entry popped. Answers the merge packet's flow, which continues at the entry's seam, and the freed index. An
owner whose own `callx` holds other lanes aside stays for them, without lanes. -/
def Ctx.mergeAt (k : Ctx) (i : Nat) : Ctx × Option (Nat × Nat) :=
  match k.seams[i]? with
  | none => (k, none)
  | some e =>
    let owner := k.flow e.owner
    match e.deferred with
    | .waiting pc m landing =>
      let k := { k with seams := k.seams.set i { e with deferred := .running owner.masks } }
      (k.updFlow e.owner (fun fl =>
        { fl with pc := pc, masks := m, wait := .none, group := none, landing := landing }), none)
    | .running m =>
      let k := { k with seams := k.seams.eraseIdx i }
      let k := k.updFlow e.owner (fun fl => { fl with masks := maskUnion m fl.masks })
      (k, some (e.owner, 0xFE))
    | .no =>
      let part := k.flow e.created
      let k := { k with seams := k.seams.eraseIdx i }
      if owner.masks = [] ∧ part.masks ≠ [] then
        let idle := k.updFlow e.owner (fun fl => { fl with wait := .none, group := none })
        if k.serves e.owner 0 then (idle, some (e.created, e.owner))
        else
          let k := if e.owner = 255 then idle else { k with flows := SMap.erase k.flows e.owner }
          ({ k with seams := k.seams.map (Seam.rename e.owner e.created) }.noteNames [(e.owner, e.created)],
            some (e.created, e.owner))
      else
        let k := k.updFlow e.owner (fun fl => { fl with masks := maskUnion fl.masks part.masks })
        let k := { k with flows := SMap.erase k.flows e.created }
        (k, some (e.owner, e.created))

/-- Entries return until the flow's innermost one is resident (notes/assumptions/23.md). -/
def State.fillFor (s : State) (c x f : Nat) : Nat → Except Trap State
  | 0 => .ok s
  | fuel + 1 =>
    let k := s.ctx c x
    if k.stackSpilled = 0 ∨ (k.innermost f).isSome then .ok s
    else match s.fillSeam c x with
      | .error t => .error t
      | .ok s => s.fillFor c x f fuel

/-- What follows a merge: its packet (10 R218, 23 R411); the flow's next entry fills, so that it arrives there where that one names
the same address (14 R278); a stack left empty fills. `old` is the context as it stood when the instruction at `site` issued. -/
def State.merged (s : State) (c x : Nat) (site : Word) (old : Ctx) (addr : Word) (f freed : Nat) : Except Trap State :=
  let s := s.emit c x f 0x05 [byteOf freed, 0, 0, 0] site (old.flow f).masks
  match s.fillFor c x f (s.ctx c x).stackSpilled with
  | .error t => .error t
  | .ok s =>
    let s := s.updCtx c x (fun k => k.continueFlow f addr)
    if (s.ctx c x).seams = [] ∧ (s.ctx c x).stackSpilled ≠ 0 then s.fillSeam c x else .ok s

/-- Every merge of the cycle, innermost first. -/
def State.mergeAll (s : State) (c x : Nat) (site : Word) (old : Ctx) : Nat → Except Trap State
  | 0 => .ok s
  | fuel + 1 =>
    let k := s.ctx c x
    match k.completeSeam with
    | none => .ok s
    | some i =>
      let r := k.mergeAt i
      let s := s.setCtx c x r.1
      match r.2 with
      | none => s.mergeAll c x site old fuel
      | some (f, freed) =>
        match s.merged c x site old ((k.seams[i]?).elim 0 Seam.addr) f freed with
        | .error t => .error t
        | .ok s => s.mergeAll c x site old fuel

/-- Enough rounds for every entry, resident and spilled, to start its deferred path and to merge. -/
def Ctx.mergeFuel (k : Ctx) : Nat := 2 * (k.seams.length + k.stackSpilled) + 2

/-- Entries beyond sixteen spill again. -/
def State.respill (s : State) (c x f : Nat) : Nat → Except Trap State
  | 0 => .ok s
  | fuel + 1 =>
    if (s.ctx c x).seams.length ≤ 16 then .ok s
    else match s.spillSeam c x f with
      | .error t => .error t
      | .ok s => s.respill c x f fuel

/-- What follows when a flow arrives at a seam or loses lanes: entries fill, merge and spill. -/
def State.settle (s : State) (c x f : Nat) (site : Word) (old : Ctx) : Except Trap State :=
  let n := (s.ctx c x).stackSpilled
  match s.fillFor c x f n with
  | .error t => .error t
  | .ok s =>
    match s.mergeAll c x site old (s.ctx c x).mergeFuel with
    | .error t => .error t
    | .ok s => s.respill c x f n

/-! ### Positions -/

/-- A flow's next instruction stands at an address; its stop group is over. -/
def Flow.goto (f : Flow) (pc : Word) (landing : Option (Word × Nat)) : Flow :=
  { f with pc := pc, group := none, landing := landing }

/-- Plans of control instructions: a computation that traps, or a state whose position is set. -/
def Env.jumpOf (e : Env) (f : State → Except Trap State) (s : State) : Planned :=
  match f s with
  | .error t => (s, .trap (e.trapAt t))
  | .ok _ => (s, .jump (fun s => match f s with
      | .ok s' => s'
      | .error _ => s))

/-- The same in VLIW mode, where the issue sets the position. -/
def Env.goOf (e : Env) (f : State → Except Trap State) (s : State) : Planned :=
  match f s with
  | .error t => (s, .trap (e.trapAt t))
  | .ok _ => (s, .go (fun s => match f s with
      | .ok s' => s'
      | .error t => takeTrap (e.trapAt t) s))

/-- The address after the instruction in SIMT code. -/
def Env.after (e : Env) : Word := e.addr + BitVec.ofNat 32 e.info.len

/-- Masks of the flow, and the lanes for which the guard held over all its passes (14 R273): this pass is the last. -/
def Env.flowMasks (e : Env) : SMap Word := (e.k.flow e.flow).masks

def Env.taken (e : Env) : SMap Word :=
  let before := match (e.k.flow e.flow).group with
    | some g => g.taken
    | none => []
  setMask before e.group (maskOf before e.group ||| laneMask e.lanes)

/-- In a pass before the last, the lanes for which the guard holds are kept. -/
def Env.noteTaken (e : Env) (s : State) : Planned :=
  (s, .go (fun s => s.updCtx e.core e.ctx (fun k => k.updFlow e.flow (fun fl =>
    { fl with group := fl.group.map (fun g => { g with taken := e.taken }) }))))

def Env.setFlow (e : Env) (g : Flow → Flow) (s : State) : State :=
  s.updCtx e.core e.ctx (fun k => k.updFlow e.flow g)

/-- The flow is not ready: its issue is tried again (05 R104). -/
def Env.busy (e : Env) : State → State := e.setFlow (fun fl => { fl with wait := .busy })

/-- The wait for the context's parked passes (03 R66). -/
def Env.waitsParked (e : Env) (s : State) : Bool := (s.core e.core).parked.any (fun p => p.ctx == e.ctx)

def Env.awaitParked (e : Env) : State → State := e.setFlow (fun fl => { fl with wait := .parked })

/-- The wait for the flow's own parked passes, its interval closed (14 R286). -/
def Env.ownParked (e : Env) (s : State) : Bool := (s.core e.core).parked.any (fun p => p.ctx == e.ctx && p.flow == e.flow)

def Env.awaitOwn (e : Env) : State → State := e.setFlow (fun fl => { fl with wait := .parked, closed := true })

/-- A trace packet of the instruction (10 R218, 23 R411). -/
def Env.packet (e : Env) (f kind : Nat) (payload : List Byte) (s : State) : State :=
  s.emit e.core e.ctx f kind payload e.addr (e.k.flow f).masks

/-- The mask words of the groups listed. -/
def maskPayload (m : SMap Word) : List Byte := (m.map (fun p => leBytes 4 p.2.toNat)).flatten

/-! ### Branches (14 R273 to R279) -/

/-- A code target of a layout-I word. -/
def Opd.target (o : Opd) : Word := o.imm &&& 0x3FFFF#32

/-- A divergent branch: the majority stays, the taken path on a tie (05 R98). -/
def Env.diverge (e : Env) (t : SMap Word) (s : State) : Except Trap State :=
  let all := e.flowMasks
  let n := maskDiff all t
  let stay := decide (maskCount n ≤ maskCount t)
  let seam := BitVec.ofNat 32 e.o.seamField
  let minor := if stay then n else t
  let minorPc := if stay then e.after else e.o.target
  (s.detach e.core e.ctx e.flow seam minorPc minor none).map (fun r =>
    let s := e.setFlow (fun fl => fl.goto (if stay then e.o.target else e.after) none) r.1
    e.packet e.flow 0x03 ([byteOf r.2, 0, 0, 0] ++ leBytes 4 (groupValid t).toNat ++ maskPayload t) s)

/-- `bra` in SIMT code, once every pass has been judged (14 R273). -/
def braSimt (e : Env) (s : State) : Planned :=
  let t := e.taken
  let guarded := e.o.g != 0 || e.o.n
  let note : Byte → State → State := fun b s => if guarded then e.packet e.flow 0x02 [b] s else s
  if maskCount t = 0 then e.jumpOf (fun s => .ok (note 0 (e.setFlow (fun fl => fl.goto e.after none) s))) s
  else if maskDiff e.flowMasks t = [] then
    e.jumpOf (fun s => .ok (note 1 (e.setFlow (fun fl => fl.goto e.o.target none) s))) s
  else e.jumpOf (e.diverge t) s

/-- A taken branch in VLIW mode: two delay bundles follow (09 R192, 14 R274). -/
def Env.delayTo (e : Env) (target : Word) (landing : Option (Word × Nat)) (s : State) : State :=
  s.updCtx e.core e.ctx (fun k => { k with delay := some { left := 2, target := target, landing := landing } })

/-- Does the stage guard of a VLIW op hold (11 R227)? -/
def Env.stage (e : Env) : Bool := stageGuard e.k e.o

/-- `bra` in VLIW code (14 R273). -/
def braVliw (e : Env) (s : State) : Planned :=
  let v := e.k.readS e.o.a
  let cond := if e.o.b = 1 then v != 0 else if e.o.b = 2 then v == 0 else true
  let conditional := e.o.b != 0 || e.o.n
  let taken := e.stage && cond
  (s, .go (fun s =>
    let s := if conditional then e.packet e.flow 0x02 [if taken then 1 else 0] s else s
    if taken then e.delayTo e.o.target none s else s))

/-- The paths of an indirect jump: targets with their lanes, ascending, and whether a jumping lane is on the path (14
R275). -/
def Env.jumpPaths (e : Env) (t : SMap Word) (target : Nat → Word) : List (Word × SMap Word × Bool) :=
  let rest := maskDiff e.flowMasks t
  let lanes := (t.map (fun p => (laneList p.2).map (fun l => 32 * p.1 + l))).flatten
  let others := (rest.map (fun p => (laneList p.2).map (fun l => 32 * p.1 + l))).flatten
  let pairs := lanes.map (fun l => (target l, l, true)) ++ others.map (fun l => (e.after, l, false))
  let keys := (SMap.keys (pairs.foldl (fun m p => SMap.insert m p.1.toNat ()) ([] : SMap Unit)))
  keys.map (fun a =>
    let mine := pairs.filter (fun p => p.1.toNat == a)
    (BitVec.ofNat 32 a,
     mine.foldl (fun m p => setMask m (p.2.1 / 32) (maskOf m (p.2.1 / 32) ||| (1#32 <<< (p.2.1 % 32)))) [],
     mine.any (fun p => p.2.2)))

/-- The path with the most lanes, the lowest target on a tie (14 R278). -/
def majorPath (ps : List (Word × SMap Word × Bool)) : Option (Word × SMap Word × Bool) :=
  ps.foldl (fun best p => match best with
    | none => some p
    | some b => if maskCount b.2.1 < maskCount p.2.1 then some p else best) none

/-- Every other path is detached, in ascending target address. -/
def Env.detachPaths (e : Env) (seam : Word) (s : State) :
    List (Word × SMap Word × Bool) → Except Trap (State × List (Nat × Word))
  | [] => .ok (s, [])
  | (t, m, jumps) :: r =>
    match s.detach e.core e.ctx e.flow seam t m (if jumps then some (e.addr, 1) else none) with
    | .error x => .error x
    | .ok (s, n) => (e.detachPaths seam s r).map (fun q => (q.1, (n, t) :: q.2))

/-- `brx` in SIMT code, once every pass has been judged (14 R275, R278). -/
def brxSimt (e : Env) (s : State) : Planned :=
  let t := e.taken
  let ps := e.jumpPaths t (fun l => e.k.readV e.o.a l)
  let seam := e.k.readS e.o.b
  match majorPath ps with
  | none => e.jumpOf (fun s => .ok (e.setFlow (fun fl => fl.goto e.after none) s)) s
  | some m =>
    e.jumpOf (fun s =>
      (e.detachPaths seam s (ps.filter (fun p => p.1 != m.1))).map (fun r =>
        let s := e.setFlow (fun fl => fl.goto m.1 (if m.2.2 then some (e.addr, 1) else none)) r.1
        let s := e.packet e.flow 0x04 (leBytes 4 m.1.toNat) s
        r.2.foldl (fun s p => if p.1 = 0xFE then s else e.packet p.1 0x04 (leBytes 4 p.2.toNat) s) s)) s

/-- Lanes of a pass whose jump target is not a multiple of 4 (14 R275, R277). -/
def Env.oddTargets (e : Env) : List Nat := e.lanes.filter (fun l => (e.k.readV e.o.a l).toNat % 4 != 0)

/-- Cause 0x03 with DETAIL 0x0B (11 R223). -/
def Env.misTarget (e : Env) (ls : List Nat) (s : State) : Planned :=
  (s, .trap (e.trapAt { cause := 0x03, detail := 0x0B, lanes := e.laneWord ls }))

def planBrx (e : Env) (s : State) : Planned :=
  if e.simt then
    let seam := (e.k.readS e.o.b).toNat
    if 2 ^ 18 ≤ seam ∨ seam % 4 ≠ 0 then e.misTarget [] s
    else if e.oddTargets ≠ [] then e.misTarget e.oddTargets s
    else if e.last then brxSimt e s else e.noteTaken s
  else
    let t := e.k.readS e.o.a
    if !e.stage then (s, .go id)
    else if t.toNat % 4 ≠ 0 then e.misTarget [] s
    else (s, .go (fun s => e.delayTo t (some (e.addr, 1)) (e.packet e.flow 0x04 (leBytes 4 t.toNat) s)))

/-- The address of the bundle after the second delay bundle (14 R277). -/
def Env.returnBundle (e : Env) (s : State) : Word :=
  let b := s.bundleAfter e.core e.k
  b (b (b e.addr))

def planCall (e : Env) (s : State) : Planned :=
  if e.simt then
    e.jumpOf (fun s => (s.pushRet e.core e.ctx e.flow { addr := e.after }).map
      (e.setFlow (fun fl => fl.goto e.o.target none))) s
  else
    let note : Byte → State → State := fun b s => if e.o.n then e.packet e.flow 0x02 [b] s else s
    if !e.stage then (s, .go (note 0))
    else e.goOf (fun s => (s.pushRet e.core e.ctx e.flow { addr := e.returnBundle s }).map
      (fun s => e.delayTo e.o.target none (note 1 s))) s

/-- `callx` in SIMT code: one target's lanes at a time, ascending (14 R277). -/
def callxSimt (e : Env) (s : State) : Planned :=
  let ps := e.jumpPaths e.flowMasks (fun l => e.k.readV e.o.a l)
  match ps with
  | [] => e.jumpOf (fun s => .ok (e.setFlow (fun fl => fl.goto e.after none) s)) s
  | (t, m, _) :: rest =>
    let service : Option CallService :=
      if rest = [] then none
      else some { rest := rest.map (fun p => (p.1, p.2.1)), masks := e.flowMasks, site := e.addr }
    e.jumpOf (fun s => (s.pushRet e.core e.ctx e.flow { addr := e.after, service := service }).map (fun s =>
      let s := e.setFlow (fun fl => { fl.goto t (some (e.addr, 0)) with masks := m }) s
      e.packet e.flow 0x04 (leBytes 4 t.toNat) s)) s

def planCallx (e : Env) (s : State) : Planned :=
  if e.simt then
    if e.oddTargets ≠ [] then e.misTarget e.oddTargets s
    else if e.last then callxSimt e s else e.noteTaken s
  else
    let t := e.k.readS e.o.a
    if !e.stage then (s, .go id)
    else if t.toNat % 4 ≠ 0 then e.misTarget [] s
    else e.goOf (fun s => (s.pushRet e.core e.ctx e.flow { addr := e.returnBundle s }).map (fun s =>
      e.delayTo t (some (e.addr, 0)) (e.packet e.flow 0x04 (leBytes 4 t.toNat) s))) s

/-- The return from a callee's entry: to the next target of its service, or to the return address (14 R277). -/
def Ctx.serviceReturn (k : Ctx) (f : Nat) (r : RetEntry) : Ctx × Word × Option (Word × Nat) :=
  match r.service with
  | none => (k.setTop f none, r.addr, none)
  | some v =>
    match v.rest with
    | [] => ((k.setTop f none).updFlow f (fun fl => { fl with masks := v.masks }), r.addr, none)
    | (t, m) :: rest =>
      ((k.setTop f (some { r with service := some { v with rest := rest } })).updFlow f
        (fun fl => { fl with masks := maskInter m v.masks }), t, some (v.site, 0))

def planRet (e : Env) (s : State) : Planned :=
  if e.simt || e.stage then
    match s.topRet e.core e.ctx e.flow with
    | .error t => (s, .trap (e.trapAt t))
    | .ok (s', r) =>
      if r.addr.toNat % 4 ≠ 0 then e.misTarget [] s
      else
        (s', if e.simt then .jump (fun s =>
          let q := (s.ctx e.core e.ctx).serviceReturn e.flow r
          let s := s.setCtx e.core e.ctx (q.1.updFlow e.flow (fun fl => fl.goto q.2.1 q.2.2))
          e.packet e.flow 0x04 (leBytes 4 q.2.1.toNat) s)
        else .go (fun s =>
          let s := s.updCtx e.core e.ctx (fun k => k.setTop e.flow none)
          e.delayTo r.addr none (e.packet e.flow 0x04 (leBytes 4 r.addr.toNat) s)))
  else (s, .go id)

/-- `seam` (14 R279, 05 R101): a flow whose innermost entry names this address arrives and waits. -/
def planSeam (e : Env) (s : State) : Planned :=
  let go : State → Except Trap State := fun s =>
    let n := (s.ctx e.core e.ctx).stackSpilled
    match s.fillFor e.core e.ctx e.flow n with
    | .error t => .error t
    | .ok s =>
      match (s.ctx e.core e.ctx).innermost e.flow with
      | none => .ok (e.setFlow (fun fl => fl.goto e.after none) s)
      | some en =>
        if en.addr ≠ e.addr then
          (s.respill e.core e.ctx e.flow n).map (e.setFlow (fun fl => fl.goto e.after none))
        else
          (e.setFlow (fun fl => { fl.goto e.addr none with wait := .seam }) s).settle e.core e.ctx e.flow e.addr e.k
  e.jumpOf go s

/-! ### Loops (09 R194, 14 R280, R281) -/

/-- (log 84, DEDUCED) -/
def planLoop (e : Env) (s : State) : Planned :=
  let stop := e.o.target
  let start := s.bundleAfter e.core e.k e.addr
  let count := e.k.readS e.o.a
  let stages := bitsOf e.o.imm.toNat 26 24 + 1
  if !e.stage then (s, .go id)
  else if stop < start then e.trap 0x03 0x01 s
  else
    let en : LoopEntry :=
      { start := start, stop := stop, count := count - 1, stages := stages, drain := false, saved := e.k.ps, begun := 1 }
    if count = 0 then
      e.jumpOf (fun s => ((s.pushLoop e.core e.ctx { en with count := 0, begun := 0 }).bind (fun s => s.popLoop e.core e.ctx)).map
        (fun s => e.setFlow (fun fl => fl.goto (s.bundleAfter e.core e.k stop) none) s)) s
    else
      e.goOf (fun s => (s.pushLoop e.core e.ctx en).map (fun s => s.updCtx e.core e.ctx (fun k => { k with ps := 1 }))) s

def planLexit (e : Env) (s : State) : Planned :=
  if !e.stage then (s, .go id)
  else match e.k.loops.getLast? with
    | none => e.trap 0x02 0x6 s
    | some en =>
      let target := s.bundleAfter e.core e.k en.stop
      if target.toNat % 4 ≠ 0 then e.misTarget [] s
      else e.goOf (fun s => (s.popLoop e.core e.ctx).map (e.delayTo target none)) s

/-! ### Changing decoders (14 R283 to R285; 05 R94 to R97; 09 R184) -/

/-- Clusters of a context on its core: those of its block, or its slice's pair, or its half-group's one. -/
def Ctx.clusterList (k : Ctx) : List Nat :=
  if !k.live || !k.bound then []
  else match k.mode with
    | .vliw => (List.range k.clusters).map (fun n => k.base + n)
    | .simt => [k.base, k.base + 1]
    | .half => [k.base]

/-- While an AM_PORT entry is valid, c6 and c7 are protected (05 R97). -/
def Core.guarded (co : Core) : Bool := co.amPort.any (fun p => p.2.valid)

/-- Does a claim's block hold a cluster? -/
def Claim.holds (q : Claim) (n : Nat) : Bool := match q.block with
  | some b => b ≤ n && n < b + q.clusters
  | none => false

/-- Is a cluster owned by the VLIW decoder: by a thread, or by a granted claim of one that has not started? -/
def Core.vliwOwned (co : Core) (n : Nat) : Bool :=
  co.ctxs.any (fun p => p.2.mode == .vliw && p.2.clusterList.contains n)
    || co.claims.any (fun q => q.granted && q.holds n)

/-- SIMT teams bound to a cluster, leaving one context out. -/
def Core.bound (co : Core) (n : Nat) (but : Option Nat) : Nat :=
  (co.ctxs.filter (fun p => p.2.mode != .vliw && some p.1 != but && p.2.clusterList.contains n)).length

/-- Does a block of C clusters hold no VLIW-owned and no protected cluster (05 R94, R97)? -/
def Core.blockFree (co : Core) (c b : Nat) : Bool :=
  ((List.range c).map (fun n => b + n)).all (fun n => !co.vliwOwned n && !(co.guarded && 6 ≤ n))

/-- The lowest aligned block of C clusters that holds no VLIW-owned and no protected cluster (05 R94). -/
def Core.eligibleBlock (co : Core) (c : Nat) : Option Nat :=
  ((List.range (8 / max c 1)).map (fun b => b * c)).find? (fun b => co.blockFree c b)

/-- Register blocks granted on a core. -/
def Core.blocksUsed (co : Core) : Nat := (co.ctxs.map (fun p => p.2.blocks)).sum

/-- Register blocks that the core's dormant handlers reserve (04 R82, R86): the largest HREGS of its valid entries for
each of the four handler contexts (notes/assumptions/11.md). (log 11, DEDUCED) -/
def Core.blocksReserved (co : Core) : Nat :=
  4 * (co.amPort.map (fun p => if p.2.valid then p.2.hregs else 0)).foldl max 0

/-- Register blocks free for teams. -/
def Core.blocksFree (co : Core) : Nat :=
  let work := (co.ctxs.map (fun p => if p.2.handler then 0 else p.2.blocks)).sum
  let handlers := (co.ctxs.map (fun p => if p.2.handler then p.2.blocks else 0)).sum
  Config.blocks - work - max handlers co.blocksReserved

/-- The decoders change: lanes become elements of the claimed clusters (14 R283, 09 R184). -/
def Ctx.collapseTo (k : Ctx) (c base : Nat) (after : Word) : Ctx :=
  let half := k.mode == .half
  let limit := if half then 16 else 32
  let grant := max k.blocks (Ctx.blocksFor k.nregs (16 * c))
  let keep : SMap Word → SMap Word := fun m => m.filter (fun p => p.1 % 1024 < limit)
  { k with mode := .vliw, clusters := c, base := base, bound := true, groups := 1
           v := keep k.v
           pr := k.pr.filter (fun p => p.1 % 1024 < limit)
           ports := []
           blocks := grant
           collapsed := some (maskOf (k.flow 255).masks 0, half)
           flight := []
           pend := k.pend.filter (fun p => p.till.isNone)
           icyc := 0
           flows := [(255, { (k.flow 255).goto after none with masks := [(0, 0xFFFFFFFF)], wait := .none })] }

/-- The collapse takes place: it is the claim's grant (05 R95). -/
def State.collapseCtx (s : State) (c x clusters base : Nat) : State :=
  let k := s.ctx c x
  let pc := (k.flow 255).pc
  let s := s.setCtx c x (k.collapseTo clusters base (pc + 4))
  s.updCore c (fun co => { co with claims := co.claims.filter (fun q => q.ctx != some x) })

def planCollapse (e : Env) (s : State) : Planned :=
  let c := if e.o.form = 1 then 2 ^ e.o.b else 2
  let k := s.ctx e.core e.ctx
  if 1 < k.groups then e.trap 0x02 0x1 s
  else if e.flow ≠ 255 ∨ k.flows.length ≠ 1 ∨ k.seams ≠ [] ∨ k.stackSpilled ≠ 0 then e.trap 0x02 0x2 s
  else if k.handler then e.trap 0x02 0x3 s
  else if e.waitsParked s then (s, .hold (e.setFlow (fun fl => { fl with wait := .collapse })))
  else
    (s, .jump (fun s =>
      let s := e.setFlow (fun fl => { fl.goto e.addr none with wait := .claim c }) s
      let co := s.core e.core
      let block := co.eligibleBlock c
      let free := match block with
        | some b => ((List.range c).map (fun n => b + n)).all (fun n => co.bound n (some e.ctx) == 0)
        | none => false
      let need := Ctx.blocksFor k.nregs (16 * c) - k.blocks
      let first := co.claims.all Claim.granted
      let granted := free && first && decide (need ≤ co.blocksFree)
      match block, granted with
      | some b, true => s.collapseCtx e.core e.ctx c b
      | _, _ =>
        let reserve := if first then block else none
        s.updCore e.core (fun co =>
          { co with claims := co.claims ++ [{ ctx := some e.ctx, grid := 0, team := 0, clusters := c, block := reserve }] })))

/-- The eligible slice or cluster that R93 chooses: fewest bound teams, then the lowest number; reserved and
VLIW-owned clusters are left out. -/
def Core.chooseSlice (co : Core) (half : Bool) (but : Option Nat) : Option Nat :=
  let ok : Nat → Bool := fun n => !co.vliwOwned n && !co.claims.any (fun q => q.holds n)
  let cands := if half then (List.range 8).filter ok
    else ((List.range 4).map (fun n => 2 * n)).filter (fun n => ok n && ok (n + 1))
  let load : Nat → Nat := fun n => if half then co.bound n but else max (co.bound n but) (co.bound (n + 1) but)
  cands.foldl (fun best n => match best with
    | none => some n
    | some b => if load n < load b then some n else best) none

/-- The thread becomes a team: elements become lanes, the grant shrinks or grows to what N needs (14 R284, 09
R184). -/
def Ctx.expandTo (k : Ctx) (after : Word) : Ctx :=
  let k := k.landAll
  let (mask, half) := k.collapsed.getD (0xFFFFFFFF, false)
  let limit := if half then 16 else 32
  { k with mode := if half then .half else .simt
           groups := 1, clusters := 0, bound := false, base := 0
           v := k.v.filter (fun p => p.1 % 1024 < limit)
           pr := k.pr.filter (fun p => p.1 % 1024 < limit)
           ports := []
           blocks := Ctx.blocksFor k.nregs limit
           collapsed := none, flight := [], delay := none
           flows := [(255, { (k.flow 255).goto after none with masks := setMask [] 0 mask, wait := .none })] }

/-- A team without a slice is bound to the one R93 chooses, if there is one. -/
def State.bindTeam (s : State) (c x : Nat) : State :=
  let k := s.ctx c x
  if !k.live || k.bound || k.mode == .vliw then s
  else match (s.core c).chooseSlice (k.mode == .half) (some x) with
    | some n => s.setCtx c x { k with base := n, bound := true }
    | none => s

def planExpand (e : Env) (s : State) : Planned :=
  let k := s.ctx e.core e.ctx
  let after := e.addr + (e.info.len : Nat)
  let half := match k.collapsed with
    | some p => p.2
    | none => false
  let need := Ctx.blocksFor k.nregs (if half then 16 else 32)
  if !e.stage then (s, .go id)
  else if k.loops ≠ [] ∨ k.stackSpilled ≠ 0 then e.trap 0x02 0x4 s
  else if k.blocks + (s.core e.core).blocksFree < need then
    (s, .hold (e.setFlow (fun fl => { fl with wait := .expand })))
  else
    let next := match s.fetchItem e.core e.k e.addr with
      | .ok (_, n, _) => n
      | .error _ => after
    if next.toNat % 4 ≠ 0 then e.misTarget [] s
    else (s, .jump (fun s =>
      (s.setCtx e.core e.ctx ((s.ctx e.core e.ctx).expandTo next)).bindTeam e.core e.ctx))

/-! ### Endings, intervals and patterns (14 R286, R287) -/

/-- The lanes that exit leave every list of lanes of the context. -/
def Ctx.dropLanes (k : Ctx) (m : SMap Word) : Ctx :=
  let svc : RetEntry → RetEntry := fun r =>
    { r with service := r.service.map (fun v => { v with masks := maskDiff v.masks m }) }
  { k with ras := k.ras.map svc
           rasServices := k.rasServices.map (fun p => (p.1, { p.2 with masks := maskDiff p.2.masks m }))
           flows := k.flows.map (fun p => (p.1, { p.2 with overlay := p.2.overlay.map svc })) }

/-- Is a lane of the target that a service is at alive: in another flow, in a deferred path or at its seam, or held aside by
another flow's `callx`? -/
def Ctx.targetAlive (k : Ctx) (f : Nat) (v : CallService) : Bool :=
  let target := v.rest.foldl (fun m p => maskDiff m p.2) v.masks
  let meets : SMap Word → Bool := fun m => maskInter target m != []
  k.flows.any (fun p => p.1 != f && (meets p.2.masks || (k.services p.1).any (fun u => meets u.masks)))
    || k.seams.any (fun e => match e.deferred with
        | .no => false
        | .waiting _ m _ => meets m
        | .running m => meets m)

/-- The entries that a callee pushed above its `callx` drop; the entry of the `callx` may stay spilled. -/
def Ctx.dropCallee (k : Ctx) (f : Nat) : Ctx :=
  if f = 255 then
    match k.ras.reverse.dropWhile (fun r => r.service.isNone) with
    | [] => { k with ras := [], rasSpilled := (k.rasServices.getLast?).elim 0 (fun p => p.1 + 1) }
    | r :: rest => { k with ras := (r :: rest).reverse }
  else k.updFlow f (fun fl => { fl with overlay := fl.overlay.dropWhile (fun r => r.service.isNone) })

/-- The innermost service of a flow stands changed, or is over and its entry pops. -/
def Ctx.setService (k : Ctx) (f : Nat) (v : Option CallService) : Ctx :=
  let top : RetEntry → List RetEntry := fun r => (v.map (fun v => { r with service := some v })).toList
  if f = 255 then
    match k.ras.getLast? with
    | some r => { k with ras := k.ras.dropLast ++ top r }
    | none => match v with
      | some v => { k with rasServices := SMap.insert k.rasServices (k.rasSpilled - 1) v }
      | none => { k with rasSpilled := k.rasSpilled - 1, rasServices := SMap.erase k.rasServices (k.rasSpilled - 1) }
  else k.updFlow f (fun fl => { fl with overlay := match fl.overlay with
      | r :: q => top r ++ q
      | [] => [] })

/-- A callee whose lanes have all exited is over: the entries above its `callx` drop and the next target is served; after the last
one the lanes of the call that have not exited go on at the return address (14 R277). -/
def State.serviceEnd (s : State) (c x f : Nat) : Nat → Except Trap State
  | 0 => .ok s
  | fuel + 1 =>
    let k := s.ctx c x
    match k.services f with
    | [] => .ok s
    | v :: outer =>
      if (k.flow f).masks ≠ [] ∨ k.seams.any (fun e => e.owner == f && outer.length < e.calls) ∨ k.targetAlive f v then .ok s
      else
        let k := k.dropCallee f
        match v.rest with
        | (t, m) :: rest =>
          .ok (s.setCtx c x ((k.setService f (some { v with rest := rest })).updFlow f (fun fl =>
            { fl.goto t (some (v.site, 0)) with masks := maskInter m v.masks, wait := .none })))
        | [] =>
          if v.masks = [] then (s.setCtx c x (k.setService f none)).serviceEnd c x f fuel
          else ((s.setCtx c x k).topRet c x f).map (fun r =>
            r.1.updCtx c x (fun k => (k.setTop f none).updFlow f (fun fl =>
              { fl.goto r.2.addr none with masks := v.masks, wait := .none })))

/-- The services of every flow left without lanes that are over. -/
def State.serviceEnds (s : State) (c x : Nat) : Except Trap State :=
  (s.ctx c x).flows.foldl (fun r p => r.bind (fun s => s.serviceEnd c x p.1 ((s.ctx c x).services p.1).length)) (.ok s)

/-- What follows when lanes exit: entries merge, and calls whose callees are over go on, until nothing changes. -/
def State.settleExit (s : State) (c x f : Nat) (site : Word) (old : Ctx) : Nat → Except Trap State
  | 0 => s.settle c x f site old
  | fuel + 1 =>
    match (s.settle c x f site old).bind (fun s => s.serviceEnds c x) with
    | .error t => .error t
    | .ok s => s.settleExit c x f site old fuel

/-- A flow without lanes: a packet says so. -/
def Env.noteEmpty (e : Env) (s : State) : State :=
  if ((s.ctx e.core e.ctx).flow e.flow).masks = [] then
    e.packet e.flow 0x08 ([0x8, 0, 0, 0] ++ leBytes 4 e.addr.toNat) s
  else s

/-- `exit` in SIMT mode, once every pass has been judged: the interval closes first. -/
def exitSimt (e : Env) (s : State) : Planned :=
  let t := e.taken
  let s := e.close s
  e.jumpOf (fun s =>
    let s := s.updCtx e.core e.ctx (fun k => (k.dropLanes t).updFlow e.flow (fun fl =>
      { fl.goto e.after none with masks := maskDiff fl.masks t }))
    let s := e.noteEmpty s
    let k := s.ctx e.core e.ctx
    let calls := (k.flows.map (fun p => (k.services p.1).length)).sum
    (if (k.flow e.flow).masks = [] then s.settleExit e.core e.ctx e.flow e.addr e.k calls else .ok s).map (fun s =>
      s.tryTeamEnd e.core e.ctx)) s

/-- `exit` of a whole VLIW thread: slot br is the last, so that what the other slots of the bundle store and hold is in the
interval that closes. The clusters return at once (05 R96). -/
def exitVliw (e : Env) (s : State) : Planned :=
  (s, .jump (fun s =>
    let s := s.closeInterval e.core e.ctx e.flow
    let s := s.updCtx e.core e.ctx (fun k => { k.landAll with bound := false }.updFlow 255 (fun fl => { fl.goto e.addr none with masks := [] }))
    (e.noteEmpty s).tryTeamEnd e.core e.ctx))

/-- `exit` (14 R286): its interval closes, then it waits for the flow's parked passes. -/
def planExit (e : Env) (s : State) : Planned :=
  if e.simt && !e.last then e.noteTaken s
  else if !e.simt && !e.stage then (s, .go id)
  else if e.ownParked s then (e.close s, .hold e.awaitOwn)
  else if e.simt then exitSimt e s
  else exitVliw e s

/-- `yield` (05 R109). -/
def planYield (e : Env) (s : State) : Planned :=
  if !e.simt && !e.stage then (s, .go id)
  else
    (s, .go (fun s =>
      let n := (s.core e.core).yields
      let s := s.updCore e.core (fun co => { co with yields := n + 1 })
      s.updCtx e.core e.ctx (fun k => { k with yield := true, yieldOrder := n })))

/-- `tack` closes the interval (08 R158). -/
def planTack (e : Env) (s : State) : Planned :=
  if !e.simt && !e.stage then (s, .go id) else (s.closeInterval e.core e.ctx e.flow, .go id)

/-- Is a pattern image well formed (09 R193)? Its op words must be legal in their slots. -/
def Ctx.patternOk (k : Ctx) (words : List Word) : Bool :=
  let head := words.headD 0
  let slots := slotList (head.setWidth 16)
  let n := slots.length
  n ≤ 7 && head >>> 17 == 0 && (words.drop (n + 1)).all (fun w => w == 0)
    && (words.drop 1 |>.take n).all (fun w => !hasExt w)
    && (bundleOps slots (words.drop 1)).all (fun p => match p.2 with
        | .ok i => (encodingCause i (k.vliwPlace p.1)).isNone
        | .error _ => false)

/-- An entry as `ptload` leaves it: VALID, bit 16, says whether it is well formed, whatever the image holds there (09 R193). -/
def Ctx.patternEntry (k : Ctx) (words : List Word) : PatEntry :=
  let ok := k.patternOk words
  let head := words.headD 0
  { valid := ok, words := (if ok then head ||| 0x10000#32 else head &&& ~~~0x10000#32) :: words.drop 1 }

/-- The eight words of a 32 B image. -/
def imageWords (bs : List Byte) : List Word := (List.range 8).map (fun i => BitVec.ofNat 32 (fieldAt bs (4 * i) 4))

/-- `ptload` (14 R287): its reads come before any store of the bundle performs (08 R154). -/
def planPtload (e : Env) (s : State) : Planned :=
  if !e.stage then (s, .go id)
  else
    let off := (e.k.readS e.o.a).toNat
    let b := (e.k.readS e.o.b).toNat
    let first := bitsOf b 8 0
    let count := bitsOf b 25 16
    let junk := bitsOf b 15 9 ≠ 0 ∨ bitsOf b 31 26 ≠ 0
    if junk ∨ count = 0 ∨ 512 < first + count then e.trap 0x02 0x5 s
    else if off % 32 ≠ 0 then e.trap 0x06 0 s
    else if e.k.spadLen < off + 32 * count then
      (s, .trap (e.trapAt { cause := 0x0E, detail := 0x1, fault := dword off }))
    else
      let keys := (List.range count).map (fun i => undoPat (first + i))
      let spad := (s.core e.core).spad
      let load : Ctx → Nat → Ctx := fun k i =>
        let ws := imageWords (spad.readBytes (e.k.spadBase + off + 32 * i) 32)
        { k with pats := SMap.insert k.pats (first + i) (k.patternEntry ws) }
      (s, .record keys false (fun s => s.updCtx e.core e.ctx (fun k => (List.range count).foldl load k)))

/-- The uniform control instructions, which act once, after the last pass (05 R98). -/
def actsLast (major : Nat) : Bool :=
  major == 0x1A || major == 0x1C || major == 0x1E || major == 0x21 || major == 0x23 || major == 0x25

/-- The control family by major, in the pass in which it acts. -/
def actControl (e : Env) (s : State) : Planned :=
  match e.o.major with
  | 0x18 => if e.simt then (if e.last then braSimt e s else e.noteTaken s) else braVliw e s
  | 0x19 => planBrx e s
  | 0x1A => planCall e s
  | 0x1B => planCallx e s
  | 0x1C => planRet e s
  | 0x1E => planSeam e s
  | 0x1F => planLoop e s
  | 0x20 => planLexit e s
  | 0x21 => planCollapse e s
  | 0x22 => planExpand e s
  | 0x23 => planYield e s
  | 0x24 => planExit e s
  | 0x25 => planTack e s
  | 0x26 => planPtload e s
  | _ => (s, .go id)

/-- The control family: a cause of a uniform control instruction is raised in its first pass, and it acts after its last
one (10 R204). -/
def planControl (e : Env) (s : State) : Planned :=
  if e.simt && !e.last && actsLast e.o.major then
    match actControl e s with
    | (_, .trap t) => (s, .trap t)
    | _ => (s, .go id)
  else actControl e s

end Sys2Proof.Machine
end

