-- ==== Sys2Proof/Machine/Queues.lean ====
section
/-! DEFINITION. Queues.lean: device queues, doorbells, residence in the queue controller, launch packets as they lie in
memory, and the end of a grid (04 R69 to R85). -/

namespace Sys2Proof.Machine

/-! ### Accesses by address space without a context (04 R80, R83) -/

/-- The walk of an address space for an access of the queue controller; it keeps no translation. -/
def State.walkFor (s : State) (asid va : Nat) (write : Bool) : State × Except TransFault Place2 :=
  if 2 ^ 57 ≤ va then (s, .error ⟨0x07, 0x3, none⟩)
  else
    let sp := SMap.get {} s.aspaces asid
    if !sp.valid then (s, .error ⟨0x07, 0x0, none⟩)
    else match s.walk sp.part va 4 sp.root with
      | .error f => (s.logTable sp.part f, .error f)
      | .ok (ea, e0, l) =>
        let pr := if l = 0 then s.contigLeaf ea e0 va else (e0, bitsOf e0 51 12 * 4096)
        if write ∧ pr.1 / 4 % 2 = 0 then (s, .error ⟨0x08, 0x0, none⟩)
        else
          let peer := if pr.1 / 256 % 2 = 1 then some (bitsOf pr.1 63 50) else none
          let pa := (if peer.isSome then pr.2 % 2 ^ 50 else pr.2) + va % 2 ^ levelShift l
          (s.homeWrite ea (leBytes 8 (e0 ||| (if write then 0x60 else 0x20))), .ok ⟨pa, peer⟩)

/-- The part of a range that lies in its first page. -/
def pageRun (va n : Nat) : Nat := min n (4096 - va % 4096)

/-- Bytes read at a virtual address page by page; none where a page does not translate, lies at a peer device, or is not
answered with good data: a refused or early read logs its event (01 R16; 02 R23). A page at a peer translates, and what
becomes of a table there is not laid down. (log 119, DESIGN CHOICE) -/
def State.readVirt (s : State) (asid part : Nat) (va n : Nat) : Nat → State × Option (List Byte)
  | 0 => (s, if n = 0 then some [] else none)
  | fuel + 1 =>
    if n = 0 then (s, some [])
    else
      let m := pageRun va n
      match s.walkFor asid va false with
      | (s, .error _) => (s, none)
      | (s, .ok p) =>
        if p.peer.isSome then (s, none)
        else match s.rangeCheck part p.pa m false with
          | some (a, x) => (s.logPhys part a x, none)
          | none =>
            let r := s.readVirt asid part (va + m) (n - m) fuel
            (r.1, r.2.map (fun bs => s.mem.readBytes p.pa m ++ bs))

/-- The pages that a range can touch. -/
def pageCount (n : Nat) : Nat := n / 4096 + 2

/-- One aligned run of bytes, within a page, written with the effect of `rel.sys`; false where it does not translate, or its peer
is reached by no port (02 R39, R40). -/
def State.writeVirt (s : State) (asid part va : Nat) (bs : List Byte) : State × Bool :=
  match s.walkFor asid va true with
  | (s, .error _) => (s, false)
  | (s, .ok p) =>
    match p.peer with
    | some d => if s.peerReached d then (s.reply (.peerWrite d p.pa bs), true) else (s, false)
    | none =>
      match s.physCheck part p.pa true with
      | .ok => (s.homeWrite p.pa bs, true)
      | a => (s.logPhys part p.pa a, false)

/-! ### Queue table entries (04 R70, R71) -/

def QueueEntry.ofBytes (bs : List Byte) : QueueEntry :=
  let st := fieldAt bs 10 1
  let junk := leBytes 1 (st / 8 * 8) ++ (bs.drop 11).take 1 ++ (bs.drop 32).take 32
  { ringBase := fieldAt bs 0 8, log2 := fieldAt bs 8 1, source := fieldAt bs 9 1
    enabled := st % 2 == 1, pending := st / 2 % 2 == 1, error := st / 4 % 2 == 1
    junk := if junk.all (fun b => b == 0) then [] else junk
    feedQp := fieldAt bs 12 2, vf := fieldAt bs 14 2, tail := fieldAt bs 16 4, head := fieldAt bs 20 4
    progress := fieldAt bs 24 4, dropped := fieldAt bs 28 4 }

/-- The controller's writes keep the reserved bits, so that an entry that is malformed stays so (04 R71). -/
def QueueEntry.toBytes (e : QueueEntry) : List Byte :=
  let st := (if e.enabled then 1 else 0) + (if e.pending then 2 else 0) + (if e.error then 4 else 0)
    + fieldAt e.junk 0 1
  leBytes 8 e.ringBase ++ leBytes 1 e.log2 ++ leBytes 1 e.source ++ leBytes 1 st ++ leBytes 1 (fieldAt e.junk 1 1)
    ++ leBytes 2 e.feedQp ++ leBytes 2 e.vf ++ leBytes 4 e.tail ++ leBytes 4 e.head ++ leBytes 4 e.progress
    ++ leBytes 4 e.dropped ++ leBytes 32 (fieldAt e.junk 2 32)

def QueueEntry.reserved (e : QueueEntry) : Bool := e.junk != [] || decide (4 ≤ e.source)

/-- The enabled VF whose range holds a queue (04 R69). -/
def State.queueVf (s : State) (q : Nat) : Option (Nat × VfBind) :=
  List.find? (fun (p : Nat × VfBind) => p.2.enable && p.2.qbase ≤ q && q < p.2.qbase + p.2.qcount) s.att.vfs

/-- Where a queue's entry stands in its partition's table. -/
def State.entryAddr (s : State) (part q : Nat) : Nat := SMap.get 0 s.att.partQtable part + 64 * q

/-- The entry in the queue table; none where the table's read is not answered with good data. -/
def State.tableEntry (s : State) (part q : Nat) : Option QueueEntry :=
  let a := s.entryAddr part q
  if s.physCheck part a false == .ok then some (QueueEntry.ofBytes (s.mem.readBytes a 64)) else none

/-- The event of a read of the queue table that was refused or came early. -/
def State.logEntry (s : State) (part q : Nat) : State :=
  let a := s.entryAddr part q
  s.logPhys part a (s.physCheck part a false)

/-- The entry written to the queue table with the queue's partition ID. -/
def State.putTable (s : State) (part q : Nat) (e : QueueEntry) : State :=
  let a := s.entryAddr part q
  match s.physCheck part a true with
  | .ok => s.homeWrite a e.toBytes
  | x => s.logPhys part a x

/-- The cached entry of a queue that is switched in: one of the resident partition (04 R75). -/
def State.cached (s : State) (q : Nat) : Option QueueEntry :=
  if (s.queueVf q).any (fun p => p.2.part == s.qc.resident) then SMap.find? s.qc.cache q else none

/-- A queue's entry where it now stands: the cache, or the table (04 R76). -/
def State.queueEntry (s : State) (part q : Nat) : Option QueueEntry :=
  match s.cached q with
  | some e => some e
  | none => s.tableEntry part q

def State.putQueue (s : State) (part q : Nat) (e : QueueEntry) : State :=
  if (s.cached q).isSome then { s with qc := { s.qc with cache := SMap.insert s.qc.cache q e } }
  else s.putTable part q e

/-- Is a loaded entry malformed (04 R71)? -/
def State.entryBad (s : State) (part q : Nat) (e : QueueEntry) : Bool :=
  let size := 2 ^ e.log2 * 256
  let vfOk := match s.queueVf q with
    | some (v, _) => e.vf == v
    | none => false
  e.reserved || e.log2 < 4 || 16 < e.log2 || e.ringBase % size != 0 || !vfOk
    || !((List.range ((size + 65535) / 65536)).all (fun n => s.owns part (e.ringBase + 65536 * n)))

/-- Ring distance modulo 2^32. -/
def distance (a b : Nat) : Nat := (a + 2 ^ 32 - b % 2 ^ 32) % 2 ^ 32

/-! ### Doorbells (04 R72, R73, R76; 02 R34) -/

/-- Does a doorbell come from the queue's source? -/
def sourceIs (e : QueueEntry) (src : DoorbellSource) : Bool :=
  match src with
  | .cxl v => e.source == 0 && e.vf == v
  | .queueFeed qp => e.source == 1 && e.feedQp == qp
  | .hostComplex => e.source == 2
  | .deviceLaunch v => e.source == 3 && e.vf == v

/-- The two tests of a tail (04 R73). -/
def tailFits (e : QueueEntry) (t : Nat) : Bool :=
  distance t e.tail < 2 ^ 31 && distance t e.progress ≤ 2 ^ e.log2

/-- Does the doorbell region of its source hold a queue: a CXL function's holds its own VF's (04 R72)? -/
def sourceReaches (src : DoorbellSource) (vf : Nat) : Bool :=
  match src with
  | .cxl v => v == vf
  | _ => true

/-- A doorbell served: accepted into the cache, or into the table with PENDING, or dropped and counted; one to a
disabled queue, or outside the region it is written through, is dropped without count (04 R69, R72). -/
def State.ringDoorbell (s : State) (src : DoorbellSource) (q : Nat) (t : Word) : State :=
  match s.queueVf q with
  | none => s
  | some (v, b) =>
    if !sourceReaches src v then s
    else match s.queueEntry b.part q with
    | none => s.logEntry b.part q
    | some e =>
      if sourceIs e src && e.enabled && !b.resetBusy && tailFits e t.toNat then
        s.putQueue b.part q { e with tail := t.toNat, pending := (s.cached q).isNone || e.pending }
      else s.putQueue b.part q { e with dropped := min (e.dropped + 1) 0xFFFFFFFF }

/-- A doorbell written before QUEUE_CTL is set is latched (01 R16); a host complex that is held in reset writes none (02 R20). -/
def State.doorbell (s : State) (src : DoorbellSource) (q : Nat) (t : Word) : State :=
  if src = .hostComplex ∧ !s.mgmt.hostRunning then s
  else if s.mgmt.funcReady.getLsbD 37 then s.ringDoorbell src q t
  else { s with qc := { s.qc with latched := s.qc.latched ++ [(src, q, t)] } }

/-- The 32-bit register of a queue at an offset of its doorbell region (04 R72); zero for a disabled queue. -/
def State.doorbellRead (s : State) (q off : Nat) : Nat :=
  match s.queueVf q with
  | none => 0
  | some (_, b) => match s.queueEntry b.part q with
    | none => 0
    | some e =>
      match off with
      | 0 => e.tail
      | 4 => e.progress
      | 8 => (if e.enabled then 1 else 0) + (if e.pending then 2 else 0) + (if e.error then 4 else 0)
          + (if (s.cached q).isSome then 8 else 0)
      | _ => e.dropped

/-! ### Launch packets (04 R79) -/

namespace Packet

def f (p : Packet) (off n : Nat) : Nat := fieldAt p.bytes off n
def kind (p : Packet) : Nat := p.f 0 1
def flag (p : Packet) (n : Nat) : Bool := p.f 1 1 / 2 ^ n % 2 == 1
def restartable (p : Packet) : Bool := p.flag 0
def waitPrior (p : Packet) : Bool := p.flag 1
def interrupt (p : Packet) : Bool := p.flag 2
def idem (p : Packet) : Bool := p.flag 3
def code (p : Packet) : Nat := p.f 4 4
def entry (p : Packet) : Nat := p.f 8 4
def asid (p : Packet) : Nat := p.f 12 2 % 4096
def mode (p : Packet) : Nat := p.f 14 1 % 4
def vliwClusters (p : Packet) : Nat := 2 ^ (p.f 14 1 / 4 % 4)
def groups (p : Packet) : Nat := p.f 15 1
def regs (p : Packet) : Nat := p.f 16 2
def patchW (p : Packet) : Nat := p.f 18 2 % 16
def patchH (p : Packet) : Nat := p.f 18 2 / 16 % 16
def patchTeams (p : Packet) : Nat := p.f 18 2 / 256 % 16
def spad (p : Packet) : Nat := p.f 20 4
def regBudget (p : Packet) : Nat := p.f 24 2
def mxTeam (p : Packet) : Nat := p.f 26 1
def asetCount (p : Packet) : Nat := p.f 27 1
def spadBudget (p : Packet) : Nat := p.f 28 4
def wsetBudget (p : Packet) : Nat := p.f 32 4
def cycleBudget (p : Packet) : Nat := p.f 40 8
def extent (p : Packet) (a : Nat) : Nat := p.f (48 + 4 * a) 4
def grain (p : Packet) (a : Nat) : Nat := p.f (64 + 4 * a) 4
def axes (p : Packet) : Nat := p.f 80 1
/-- The axis at a place of the split order. -/
def splitAxis (p : Packet) (n : Nat) : Nat := p.f 81 1 / 4 ^ n % 4
def mapCount (p : Packet) : Nat := p.f 82 2
def teams (p : Packet) : Nat := p.f 84 4
def mapAddr (p : Packet) : Nat := p.f 88 8
def asetAddr (p : Packet) : Nat := p.f 96 8
def barAddr (p : Packet) : Nat := p.f 104 8
def barCount (p : Packet) : Nat := p.f 112 1
def complTag (p : Packet) : Nat := p.f 116 4
def complAddr (p : Packet) : Nat := p.f 120 8
def argAddr (p : Packet) : Nat := p.f 128 8
def cbarCore (p : Packet) : Nat := p.f 136 1
def cbarIndex (p : Packet) : Nat := p.f 137 2
def cbarArrivals (p : Packet) : Nat := p.f 139 1 % 128
def cbarValid (p : Packet) : Bool := 128 ≤ p.f 139 1
def vector (p : Packet) : Nat := p.f 144 2

end Packet

def State.grid? (s : State) (g : Nat) : Option Grid := SMap.find? s.grids g

def State.updGrid (s : State) (g : Nat) (f : Grid → Grid) : State :=
  match s.grid? g with
  | none => s
  | some x => { s with grids := SMap.insert s.grids g (f x) }

/-! ### PROGRESS (04 R76) -/

/-- Is the grid of a queue's packet over? -/
def State.packetDone (s : State) (q n : Nat) : Option Nat :=
  (List.find? (fun (p : Nat × Grid) => p.2.queue == q && p.2.number == n && p.2.done) s.grids).map Prod.fst

/-- PROGRESS of a switched-in queue passes every packet whose grid has ended, in order. -/
def State.advance (s : State) (q : Nat) : Nat → State
  | 0 => s
  | fuel + 1 =>
    match s.cached q with
    | none => s
    | some e =>
      if e.progress = e.head then s
      else match s.packetDone q e.progress with
        | none => s
        | some g =>
          let e' := { e with progress := (e.progress + 1) % 2 ^ 32 }
          let qc := { s.qc with cache := SMap.insert s.qc.cache q e' }
          State.advance { s with grids := SMap.erase s.grids g, qc := qc } q fuel

/-! ### Completion (04 R83, R84) -/

/-- The 64 bytes of a trap record (03 R52). -/
def TrapRecord.toBytes (r : TrapRecord) : List Byte :=
  [byteOf r.cause, r.flags, byteOf r.context, byteOf r.firstSlot] ++ leBytes 2 r.slots.toNat ++ [byteOf r.lwb, byteOf r.pass]
    ++ leBytes 4 r.codeAddr.toNat ++ [byteOf r.window, byteOf r.core, byteOf r.part, byteOf (r.lwb / 256)]
    ++ leBytes 4 r.groupValid.toNat ++ leBytes 4 r.lanes.toNat ++ leBytes 8 r.fault.toNat ++ leBytes 8 r.age
    ++ leBytes 2 r.fragment ++ leBytes 6 0 ++ leBytes 8 r.detail ++ leBytes 8 r.time

/-- Does an object lie wholly in the grant of a live team of a partition on a core? -/
def State.objectLive (s : State) (core part index : Nat) : Bool :=
  (s.core core).ctxs.any (fun p => p.2.live && !p.2.handler && p.2.part == part && p.2.spadBase ≤ index * 32
    && index * 32 + 32 ≤ p.2.spadBase + p.2.spadLen)

/-- The completion record of a grid (04 R83). -/
def Grid.record (g : Grid) (lost : Bool) : List Byte :=
  let v := g.verdict.getD (0, 0, 0, none)
  let los := (List.range 4).map (fun a => leBytes 4 ((g.endBox.getD a (0, 0)).1))
  let his := (List.range 4).map (fun a => leBytes 4 ((g.endBox.getD a (0, 0)).2))
  leBytes 4 v.1 ++ leBytes 4 g.pkt.complTag ++ [byteOf v.2.1, if lost then 1 else 0] ++ leBytes 2 v.2.2.1
    ++ [0, 0, 0, 1] ++ leBytes 8 g.endAge ++ los.flatten ++ his.flatten ++ leBytes 8 0
    ++ (match v.2.2.2 with
        | some r => r.toBytes
        | none => List.replicate 64 0)

/-- The end of a grid: the completion record, then the completion barrier, the interrupt and PROGRESS (04 R83, R84). -/
def State.endGrid (s : State) (id : Nat) : State :=
  match s.grid? id with
  | none => s
  | some g =>
    let p := g.pkt
    let live := s.objectLive p.cbarCore g.part p.cbarIndex
    let rec_ := g.record (p.cbarValid && !live)
    let r := if p.complAddr % 128 = 0 then s.writeVirt p.asid g.part p.complAddr rec_ else (s, false)
    let s := if r.2 then r.1 else r.1.logRefusal 0x601 p.complAddr
    let s := if p.cbarValid && live then s.countStep p.cbarCore (p.cbarIndex * 32) p.cbarArrivals 0 0 else s
    let s := if p.interrupt then s.reply (.interrupt g.vf p.vector) else s
    (s.updGrid id (fun g => { g with done := true })).advance g.queue (s.grids.length + 1)

/-- Has every team exited and every task committed (04 R83)? -/
def State.gridOver (s : State) (id : Nat) : Bool :=
  match s.grid? id with
  | none => false
  | some g =>
    !g.done && !g.waiting && (g.verdict.isSome ||
      (if g.pkt.restartable then
        decide (g.pkt.mapCount ≤ g.started) && s.tasks.list.all (fun t => t.2.grid != id)
      else decide (g.pkt.teams ≤ g.exited.length)))

/-! ### Residence (04 R75) -/

/-- The queues of a partition whose table entry has PENDING set and that are not cached, in ascending number. -/
def State.pendingQueues (s : State) (part : Nat) : List Nat :=
  let qs := ((s.att.vfs.filter (fun v => v.2.enable && v.2.part == part)).map (fun v =>
    ((List.range v.2.qcount).map (fun i => v.2.qbase + i)).filter (fun q =>
      match s.tableEntry part q with
      | some e => e.pending && (s.cached q).isNone
      | none => false))).flatten
  SMap.keys (qs.foldl (fun m q => SMap.insert m q ()) ([] : SMap Unit))

/-- A queue loaded into the cache: checked, PENDING cleared, PROGRESS brought up to date (04 R71, R75, R76). -/
def State.loadQueue (s : State) (part q : Nat) : State :=
  match s.tableEntry part q with
  | none => s.logEntry part q
  | some e =>
    let bad := s.entryBad part q e
    let e := if bad then { e with error := true, enabled := false, pending := false } else { e with pending := false }
    let s := { s with qc := { s.qc with cache := SMap.insert s.qc.cache q e
                                        lastLoaded := SMap.insert s.qc.lastLoaded part q } }
    let s := s.putTable part q e
    if bad then s.logRefusal 0x601 q else s.advance q (s.grids.length + 1)

/-- A cached entry as it is written back: PENDING stands where a packet still waits for dispatch, since no doorbell is
lost (04 R76; notes/assumptions/29.md). (log 29, DEDUCED) -/
def QueueEntry.leaving (e : QueueEntry) : QueueEntry :=
  { e with pending := e.pending || (e.enabled && e.head != e.tail) }

/-- Every cached entry is written back and the cache is invalidated. -/
def State.writeBack (s : State) : State :=
  let s := s.qc.cache.foldl (fun s p => s.putTable s.qc.resident p.1 p.2.leaving) s
  { s with qc := { s.qc with cache := [], idle := [] } }

/-- The switch to a partition: up to 256 of its pending queues, cyclically after the last one loaded. Where none of the
partition's was loaded yet, the order begins as if queue 0 had been the last: R75 names no first one. (log 106, DESIGN CHOICE) -/
def State.switchTo (s : State) (part : Nat) : State :=
  let s := s.writeBack
  let last := SMap.get 0 s.qc.lastLoaded part
  let qs := s.pendingQueues part
  let order := (qs.filter (fun q => last < q)) ++ (qs.filter (fun q => q ≤ last))
  let s := { s with qc := { s.qc with resident := part, left := s.qc.slice } }
  (order.take 256).foldl (fun s q => s.loadQueue part q) s

/-- The next partition with a pending queue, cyclically after the resident one. -/
def State.nextPartition (s : State) : Option Nat :=
  let r := s.qc.resident
  ((List.range 32).map (fun n => (r + 1 + n) % 32)).find? (fun p => s.pendingQueues p != [])

/-- Has a queue a packet that can be dispatched: written, and no earlier one waits to start? -/
def State.dispatchable (s : State) (q : Nat) : Bool :=
  match s.cached q with
  | none => false
  | some e => e.enabled && e.head != e.tail && !(s.grids.any (fun g => g.2.queue == q && g.2.waiting && !g.2.done))

/-- The events of the entries that the search for the next partition cannot read (01 R16; 02 R23). -/
def State.logSearch (s : State) : State :=
  let r := s.qc.resident
  let order := (List.range 32).map (fun n => (r + 1 + n) % 32)
  let last := (s.nextPartition.elim r id + 31 - r) % 32
  (order.take (last + 1)).foldl (fun s part =>
    let qs := (s.att.vfs.filter (fun v => v.2.enable && v.2.part == part)).flatMap (fun v =>
      (List.range v.2.qcount).map (fun i => v.2.qbase + i))
    match qs.find? (fun q => (s.tableEntry part q).isNone) with
    | some q => s.logEntry part q
    | none => s) s

/-- The slice expires, or nothing switched in can be dispatched (04 R75). A switch because nothing can be dispatched takes place
once in a core cycle: R75 gives no time for it. (log 106, DESIGN CHOICE) -/
def State.sliceExpiry (s : State) : State :=
  let s := s.logSearch
  match s.nextPartition with
  | some p =>
    let s := s.switchTo p
    { s with qc := { s.qc with switched := some s.cycle } }
  | none => { s with qc := { s.qc with left := s.qc.slice } }

/-- The entries of the queues of a VF that leaves are written back and are no longer cached (02 R27; 04 R69). -/
def State.dropCached (s : State) (b : VfBind) : State :=
  let mine := s.qc.cache.filter (fun p => b.qbase ≤ p.1 && p.1 < b.qbase + b.qcount)
  let s := mine.foldl (fun s p => s.putTable b.part p.1 p.2.leaving) s
  { s with qc := { s.qc with cache := s.qc.cache.filter (fun p => !(b.qbase ≤ p.1 && p.1 < b.qbase + b.qcount)) } }

/-- A cached queue that was idle for one slice gives way to an uncached pending one (04 R75): to the one of lowest number,
and the idle queue of lowest number goes first, since R75 orders neither. (log 106, DESIGN CHOICE) -/
def State.replaceQueue (s : State) (q : Nat) : State :=
  let part := s.qc.resident
  match s.cached q, s.pendingQueues part with
  | some e, n :: _ =>
    let s := s.putTable part q e.leaving
    let s := { s with qc := { s.qc with cache := SMap.erase s.qc.cache q, idle := SMap.erase s.qc.idle q } }
    s.loadQueue part n
  | _, _ => s

/-- A VF reset sets HEAD and PROGRESS of a queue to TAIL; the grids launched from it are gone (04 R77). -/
def State.resetQueue (s : State) (part q : Nat) : State :=
  let s := match s.queueEntry part q with
    | some e => s.putQueue part q { e with head := e.tail, progress := e.tail }
    | none => s.logEntry part q
  { s with grids := s.grids.filter (fun g => g.2.queue != q) }

end Sys2Proof.Machine
end

