-- ==== Sys2Proof/Machine/Management.lean ====
section
/-! DEFINITION. Management.lean: power, firmware slots, attestation, the event log, readiness and boot (01 R9 to R16; 02
R20, R37, R40). -/

namespace Sys2Proof.Machine

def State.updMgmt (s : State) (f : Mgmt → Mgmt) : State := { s with mgmt := f s.mgmt }

/-! ### Power (01 R9, R10) -/

/-- POWER_CAP takes whole watts, clamped to 800 to 2,000. -/
def State.writePowerCap (s : State) (w : Nat) : State := s.updMgmt (fun m => { m with powerCap := max 800 (min 2000 w) })

/-- The core clock a step lower, down to 600 MHz, and a step higher, up to 1,200. -/
def State.clockDown (s : State) : State := s.updMgmt (fun m => { m with clockMHz := max 600 (m.clockMHz - 100) })
def State.clockUp (s : State) : State := s.updMgmt (fun m => { m with clockMHz := min 1200 (m.clockMHz + 100) })

/-- An event of a threshold (01 R10). -/
def State.logThermal (s : State) (degrees : Nat) : State := s.logEvent 0x07 0x600 (Config.logCode s.tick) degrees

/-! ### Firmware (01 R11, R12) -/

def imageIndex : ImageKind → Nat
  | .management => 0
  | .supervisor => 1
  | .hostComplex => 2

/-- The pending slot becomes the active one. -/
def Image.activate (i : Image) : Image := if i.pending then { i with active := !i.active, pending := false } else i

/-- Does the active slot hold an image that is accepted: its signature verifies and its version is not below the fused
minimum (01 R11)? -/
def Image.accepted (i : Image) (least : Nat) : Bool :=
  if i.active then i.okB && decide (least ≤ i.verB) else i.okA && decide (least ≤ i.verA)

/-- The inactive slot holds no whole image: its writing failed or was cut short (01 R12). -/
def Image.spoil (i : Image) : Image :=
  if i.active then { i with okA := false, pending := false } else { i with okB := false, pending := false }

/-- Does the image that a boot step starts verify (01 R11; 02 R40)? -/
def State.imageAccepted (s : State) (n : Nat) : Bool :=
  (SMap.get {} s.mgmt.images n).accepted (SMap.get 0 s.mgmt.fusedMin n)

/-- A failed verification stops its chain and logs a class 0x08 event (02 R40). -/
def State.bootFailure (s : State) (n : Nat) : State :=
  (s.updMgmt (fun m => { m with failed := m.failed ++ [n] })).logEvent 0x08 0x600 (Config.logCode s.tick) n

/-- Does the management firmware run, which every later boot step needs (02 R40)? -/
def State.managed (s : State) : Bool := !s.mgmt.failed.contains 0

/-- An image written to the inactive slot, verified, and only then marked pending; a failure keeps the active slot. Either
result logs an event. While the write is under way the slot holds no image that could start (01 R12). -/
def State.firmwareUpdate (s : State) (kind : ImageKind) (version : Nat) (write : ImageWrite) : State :=
  let n := imageIndex kind
  let i := SMap.get {} s.mgmt.images n
  let put : State → Image → Option ImageKind → State := fun s i w =>
    s.updMgmt (fun m => { m with images := SMap.insert m.images n i, writing := w })
  let ended := s.logEvent 0x08 0x600 (Config.logCode s.tick) n
  match write with
  | .underWay => put s i.spoil (some kind)
  | .failed => put ended i.spoil none
  | .verified =>
    if SMap.get 0 s.mgmt.fusedMin n ≤ version then
      put ended (if i.active then { i with verA := version, okA := true, pending := true } else { i with verB := version, okB := true, pending := true })
        none
    else put ended i.spoil none

def State.raiseMinimum (s : State) (kind : ImageKind) (version : Nat) : State :=
  let n := imageIndex kind
  s.updMgmt (fun m => { m with fusedMin := SMap.insert m.fusedMin n (max version (SMap.get 0 m.fusedMin n)) })

/-- A measurement's values: of an image (0 to 2) its active slot and security version, of the fuse state (3) the fused
minimum versions, of the remap table (4) its entries and the offline cores (01 R13). (log 99, DESIGN CHOICE) -/
def State.measurement (s : State) (n : Nat) : List Nat :=
  let m := s.mgmt
  if n ≤ 2 then
    let i := SMap.get {} m.images n
    if i.active then [1, i.verB] else [0, i.verA]
  else if n = 3 then (List.range 3).map (fun k => SMap.get 0 m.fusedMin k)
  else m.remap.flatMap (fun p => [p.1, p.2]) ++ m.offline

/-- What is verified or read is measured, once (02 R40). -/
def State.measure (s : State) (n : Nat) : State :=
  if s.mgmt.measured.contains n then s
  else s.updMgmt (fun m => { m with measured := m.measured ++ [n], measuredAs := SMap.insert m.measuredAs n (s.measurement n) })

/-- The boot ROM verifies the management image and starts it, and the management reads the fuses and the remap table (02
R40, steps 1 and 2). -/
def State.bootManagement (s : State) : State :=
  if s.imageAccepted 0 then ((s.measure 0).measure 3).measure 4 else s.bootFailure 0

/-- A management reset activates pending management firmware, which the boot ROM verifies and measures (02 R40); the
measurements of the other images go until those are loaded again. (log 130, DESIGN CHOICE) -/
def State.managementReset (s : State) : State :=
  (s.updMgmt (fun m =>
    { m with images := SMap.insert m.images 0 (SMap.get ({} : Image) m.images 0).activate, measured := [], measuredAs := [], failed := [], writing := none })).bootManagement

/-- A write of an image that is under way breaks off: its slot stays as it is, which no reset activates, and the event is
logged and reaches the flash copy (01 R12). (log 71, DEDUCED) -/
def State.breakWrite (s : State) : State :=
  match s.mgmt.writing with
  | none => s
  | some kind =>
    (s.logEvent 0x08 0x600 (Config.logCode s.tick) (imageIndex kind)).updMgmt (fun m => { m with writing := none, logFlash := m.log })

/-- Power is lost: the module stops. What the log holds since its last copy to flash, every 60 s, is lost with it (01 R14). -/
def State.powerLoss (s : State) : State := s.breakWrite.updMgmt (fun m => { m with powered := false })

/-- A device reset (02 R20, R40): every register takes its reset value; what flash and fuses hold stays: images, fused
minimums, BOOT_MODE, the remap table, the flash copy of the log. Pending images, the management image among them, become active, and a reserved
BOOT_MODE is logged and taken as 0x0. The event log, its counters and the time stamp go on unless power was off. (log 96, DESIGN CHOICE) -/
def State.deviceReset (s : State) : State :=
  let old := s.mgmt
  let mode := old.bootModeFlash
  let m : Mgmt :=
    { images := old.images.map (fun p => (p.1, p.2.activate))
      fusedMin := old.fusedMin
      bootModeFlash := old.bootModeFlash
      bootMode := if 3 ≤ mode then 0 else mode
      logFlash := old.logFlash
      log := if old.powered then old.log else []
      logCount := if old.powered then old.logCount else 0
      logOverrun := old.powered && old.logOverrun
      timeUs := if old.powered then old.timeUs else 0
      remap := old.remap, offline := old.offline, spares := old.spares
      rowsUsed := old.rowsUsed, banksUsed := old.banksUsed, transients := old.transients }
  let r := ({ State.reset with tick := s.tick, inputs := s.inputs, cur := s.cur, mgmt := m }).bootManagement
  if 3 ≤ mode then r.logRefusal 0x600 mode else r

/-- The BOOT_MODE word of management flash is written; the mode changes at the next device reset (02 R20). -/
def State.bootModeWrite (s : State) (v : Nat) : State := s.updMgmt (fun m => { m with bootModeFlash := v })

/-! ### Attestation (01 R13) -/

/-- An SPDM message is answered; what the manual does not lay down of its content is SPDM's and the module's certificates'. -/
def State.spdmAnswer (s : State) (m : SpdmMsg) (c : SpdmContent) : State := s.reply (.spdm m c (Config.answerWord s.tick))

/-- The algorithms answered: Falcon-1024 over SHAKE256, vendor-defined (01 R13). -/
def State.spdmAlgorithms (s : State) : State := s.spdmAnswer .algorithms .falcon1024Shake256

/-- The measurements made so far: of the images (0 to 2), the fuse state (3) and the remap table (4). -/
def State.measurements (s : State) : State :=
  s.spdmAnswer .measurements (.measured (s.mgmt.measured.map (fun n => (n, SMap.get [] s.mgmt.measuredAs n))))

/-! ### Readiness (01 R15) -/

/-- The unit number of a port in the event log: Wyund 0 to 17, then Ethernet, then CXL, as FUNC_READY orders them
(notes/assumptions/9.md). (log 9, DESIGN CHOICE) -/
def portUnit (bit : Nat) : Nat := 0x500 + (bit - 12)

/-- A FUNC_READY bit sets with its event. -/
def State.funcReady (s : State) (bit source : Nat) : State :=
  (s.updMgmt (fun m => { m with funcReady := m.funcReady ||| (1#64 <<< bit) })).logEvent 0x01 source
    (Config.logCode s.tick) bit

/-- A section passes self-test and its supervisor is loaded: the supervisor image is verified and measured once, before the
first section (02 R40, step 3). -/
def State.sectionReady (s : State) (sec : Nat) : State :=
  if !s.managed || s.mgmt.failed.contains 1 then s
  else if !s.mgmt.measured.contains 1 && !s.imageAccepted 1 then s.bootFailure 1
  else
    ((s.measure 1).updMgmt (fun m => { m with sectReady := m.sectReady ||| (1#32 <<< sec) })).logEvent 0x01
      (0x200 + sec) (Config.logCode s.tick) sec

/-- An HBM stack is trained, scrubbed and keyed by the management (02 R40, step 2). -/
def State.stackTrained (s : State) (stack : Nat) : State :=
  if s.managed ∧ stack < 12 then s.funcReady stack (0x400 + stack) else s

/-- A port comes up; CXL ports are held untrained in hostless mode (02 R20, R40). -/
def State.portTrained (s : State) (p : NetPort) : State :=
  if !s.managed then s
  else match p with
  | .eth n => if n < 4 then s.funcReady (30 + n) (portUnit (30 + n)) else s
  | .cxl n => if s.mgmt.bootMode = 0 ∨ 2 ≤ n then s else s.funcReady (34 + n) (portUnit (34 + n))

/-- The host complex is released, in hostless or mixed mode, once its image is verified, its security version included (01
R11; 02 R40, step 5); a verification that failed has stopped that chain. -/
def State.hostRelease (s : State) (verified : Bool) : State :=
  if !s.managed || s.mgmt.bootMode = 1 || s.mgmt.failed.contains 2 then s
  else if verified && s.imageAccepted 2 then
    ((s.measure 2).updMgmt (fun m => { m with hostRunning := true })).funcReady 36 0x600
  else s.bootFailure 2

/-- QUEUE_CTL sets, and the doorbells latched before are served in their order (01 R16). -/
def State.queueCtlReady (s : State) : State :=
  let l := s.qc.latched
  let s := { s.funcReady 37 0x601 with qc := { s.qc with latched := [] } }
  l.foldl (fun s d => s.ringDoorbell d.1 d.2.1 d.2.2) s

/-- WYUND_ID is written once (02 R37). -/
def State.wyundIdWrite (s : State) (v : Nat) : State :=
  if s.att.wyundSet then s.logRefusal 0x600 v
  else { s with att := { s.att with wyundSet := true, wyundId := v % 2 ^ 14 } }

/-- A Wyund port trains once SET is 1, unless its peer reports this device's own number (02 R37). -/
def State.wyundTrained (s : State) (port peer : Nat) : State :=
  if !s.managed ∨ !s.att.wyundSet ∨ 18 ≤ port then s
  else if peer = s.att.wyundId then s.logRefusal (portUnit (12 + port)) peer
  else
    let s := { s with att := { s.att with portPeer := SMap.insert s.att.portPeer port peer
                                          portFailed := s.att.portFailed &&& ~~~(1#18 <<< port) } }
    s.funcReady (12 + port) (portUnit (12 + port))

end Sys2Proof.Machine
end

