-- ==== Sys2Proof/Machine/Rings.lean ====
section
/-! DEFINITION. Rings.lean: the rings that the supervisors and the host complex share in partition 0 memory: the service
rings of the VFs (03 R56), and the command and event rings of the sections (03 R46). -/

namespace Sys2Proof.Machine

/-! ### Service rings (03 R56) -/

/-- An entry of a service ring as its 128 bytes. -/
def SvcEntry.ofBytes (bs : List Byte) : SvcEntry :=
  { tag := fieldAt bs 0 8, service := fieldAt bs 8 2, lane := fieldAt bs 10 1 % 32, group := fieldAt bs 11 1
    count := fieldAt bs 12 1, state := fieldAt bs 13 1, vf := fieldAt bs 14 2, status := BitVec.ofNat 32 (fieldAt bs 16 4)
    args := (bs.drop 64).take 64 }

def SvcEntry.toBytes (e : SvcEntry) : List Byte :=
  leBytes 8 e.tag ++ leBytes 2 e.service ++ leBytes 1 e.lane ++ leBytes 1 e.group ++ leBytes 1 e.count ++ leBytes 1 e.state
    ++ leBytes 2 e.vf ++ leBytes 4 e.status.toNat ++ List.replicate 44 0
    ++ (e.args.take 64 ++ List.replicate (64 - e.args.length) 0)

/-- A VF's ring, at the place and of the size that the host complex configured (03 R46, R56). (log 41, DEDUCED) -/
def State.svcRing (s : State) (vf : Nat) : SvcRing := SMap.get { size := 0 } s.svcRings vf

def SvcRing.at (r : SvcRing) (n : Nat) : Nat := r.base + 128 * n

/-- Entry n of a VF's ring. -/
def State.svcEntry (s : State) (vf n : Nat) : SvcEntry :=
  SvcEntry.ofBytes (s.mem.readBytes ((s.svcRing vf).at n) 128)

/-- Is an entry's read answered with good data: the ring lies in frames of partition 0 (02 R23)? -/
def State.svcReadable (s : State) (vf n : Nat) : Bool := (s.rangeCheck 0 ((s.svcRing vf).at n) 128 false).isNone

/-- Bytes of an entry are written, as a party of partition 0 writes them. -/
def State.svcPut (s : State) (vf n off : Nat) (bs : List Byte) : State :=
  s.checkedWrite 0 ((s.svcRing vf).at n + off) (fun s => s.homeWrite ((s.svcRing vf).at n + off) bs)

/-- STATE of an entry is written. -/
def State.svcState (s : State) (vf n st : Nat) : State := s.svcPut vf n 13 (leBytes 1 st)

/-- The entries of a VF's ring that can be read, by number. -/
def State.svcEntries (s : State) (vf : Nat) : List (Nat × SvcEntry) :=
  ((List.range (s.svcRing vf).size).filter (s.svcReadable vf)).map (fun n => (n, s.svcEntry vf n))

/-- The first free entry in cyclic order after the one posted last; the first posting after a ring's configuration, which no
rule orders, takes slot 0 first (03 R56). (log 112, DESIGN CHOICE) -/
def State.svcFree (s : State) (vf : Nat) : Option Nat :=
  let r := s.svcRing vf
  ((List.range r.size).map (fun i => (r.last + 1 + i) % r.size)).find? (fun n => s.svcReadable vf n && (s.svcEntry vf n).state == 0)

/-- An entry is posted: its fields, and STATE last. -/
def State.svcPost (s : State) (vf n : Nat) (e : SvcEntry) : State :=
  let s := (s.svcPut vf n 0 ({ e with state := 0 } : SvcEntry).toBytes).svcState vf n 1
  { s with svcRings := SMap.insert s.svcRings vf { s.svcRing vf with last := n } }

/-! ### Firmware interface rings (03 R46) -/

/-- A section's event: an entry of 64 B in its event ring, with its code, its tag and what its release adds. (log 91, DESIGN CHOICE) -/
def State.fwPost (s : State) (sec : Nat) (e : FwEvent) : State :=
  let n := (s.sect sec).fwEvents.length
  let place := Config.fwEventRing sec + 64 * (n % Config.fwRingSize sec)
  let head := match e with
    | .answer tag ok => leBytes 4 (Config.fwEventCode (if ok then 0 else 1)).toNat ++ leBytes 4 tag.toNat
    | .pageRequest asid _ => leBytes 4 (Config.fwEventCode 2).toNat ++ leBytes 4 asid
  let s := s.checkedWrite 0 place (fun s => s.homeWrite place (head ++ s.freeBytes (2 ^ 41 + n) 56))
  s.updSect sec (fun q => { q with fwEvents := q.fwEvents ++ [e] })

/-- The host complex writes a command into its section's command ring, where the supervisor takes it: its opcode, its tag and
56 B of operands. (log 91, DESIGN CHOICE) -/
def State.fwTake (s : State) (sec : Nat) (tag : Word) (kind : Nat) : State :=
  let n := (s.sect sec).fwTaken
  let place := Config.fwCommandRing sec + 64 * (n % Config.fwRingSize sec)
  let s := s.checkedWrite 0 place (fun s =>
    s.homeWrite place (leBytes 4 (Config.fwOpcode kind).toNat ++ leBytes 4 tag.toNat ++ s.freeBytes (2 ^ 42 + n) 56))
  s.updSect sec (fun q => { q with fwTaken := n + 1 })

end Sys2Proof.Machine
end

