-- ==== Sys2Proof/Machine/Locks.lean ====
section
/-! DEFINITION. Locks.lean: atomic sets, and the lock tables (06 R124 to R126, R130). -/

namespace Sys2Proof.Machine

/-- The granule that an address touches in an atomic set of a grid: its size as a power of two (06 R124). -/
def granuleOf (sets : List AtomSet) (va : Nat) : Option Nat :=
  (sets.find? (fun a => a.base ≤ va && va < a.base + a.len)).map AtomSet.log2

/-- The physical granules that an access of a task touches, ascending. -/
def State.granules (s : State) (k : Ctx) (va pa n : Nat) : List Nat :=
  match SMap.find? s.grids k.grid with
  | none => []
  | some g =>
    ((List.range n).filterMap (fun i => (granuleOf g.asets (va + i)).map (fun q => (pa + i) / 2 ^ q * 2 ^ q))).eraseDups

def State.lockOf (s : State) (g : Nat) : Option Lock := s.tasks.locks.find? (fun l => l.granule == g)

def State.holdsLock (s : State) (t g : Nat) : Bool := match s.lockOf g with
  | some l => l.holder == t
  | none => false

/-- The number under which a task's engines stand among parked requesters; it names no flow (18 R358). -/
def engineFlow : Nat := 254

/-- A lock request by a flow of a task (06 R125): granted, or the flow is parked and a younger holder wounded. At a full table
it is a capacity event: the flow waits as if parked and asks again (06 R130). -/
def State.requestLock (s : State) (t c x f g : Nat) : State :=
  let put : List Lock → State := fun ls => { s with tasks := { s.tasks with locks := ls } }
  let park : Wait → State → State := fun w s =>
    if f = engineFlow then s else s.updCtx c x (fun k => k.updFlow f (fun fl => { fl with wait := w }))
  match s.lockOf g with
  | none =>
    let slice := s.tasks.locks.filter (fun l => homeSlice l.granule == homeSlice g)
    if 16384 ≤ slice.length then park .room (s.capacity t (slice.map Lock.holder).eraseDups)
    else put (s.tasks.locks ++ [{ granule := g, holder := t }])
  | some l =>
    if l.holder = t then s
    else
      let me := (t, c, x, f)
      let s := put (s.tasks.locks.map (fun q =>
        if q.granule = g ∧ !q.parked.contains me then { q with parked := q.parked ++ [me] } else q))
      let s := park (.lock g) s
      if s.olderTask t l.holder then s.woundTask l.holder 0x01 else s

/-- A lock frees: it is granted to the oldest task parked on it, and the others are judged against the new holder (06
R125). -/
def State.freeLock (s : State) (g : Nat) : State :=
  match s.lockOf g with
  | none => s
  | some l =>
    let best := l.parked.foldl (fun b p => match b with
      | none => some p
      | some q => if s.olderTask p.1 q.1 then some p else b) none
    match best with
    | none => { s with tasks := { s.tasks with locks := s.tasks.locks.filter (fun q => q.granule != g) } }
    | some (t, _, _, _) =>
      let mine := l.parked.filter (fun p => p.1 == t)
      let rest := l.parked.filter (fun p => p.1 != t)
      let s := { s with tasks := { s.tasks with locks := s.tasks.locks.map (fun q =>
        if q.granule = g then { q with holder := t, parked := rest } else q) } }
      let wake : State → Nat × Nat × Nat × Nat → State := fun s p =>
        if p.2.2.2 = engineFlow then s
        else s.updCtx p.2.1 p.2.2.1 (fun k =>
          if (k.flow p.2.2.2).wait = .handler then { k with heldWaits := SMap.erase k.heldWaits p.2.2.2 }
          else k.updFlow p.2.2.2 (fun fl => { fl with wait := .none }))
      let s := mine.foldl wake s
      rest.foldl (fun s p => if s.olderTask p.1 t then s.woundTask t 0x01 else s) s

/-- Every lock of a task is released and granted onward (06 R122, R131). -/
def State.releaseLocks (s : State) (t : Nat) : State :=
  ((s.tasks.locks.filter (fun l => l.holder == t)).map Lock.granule).foldl (fun s g => s.freeLock g) s

end Sys2Proof.Machine
end

