-- ==== Sys2Proof/Machine/Tasks.lean ====
section
/-! DEFINITION. Tasks.lean: the split rule, commit, abort, rebirth and the smallest-grain fault, and the destruction of
contexts and grids (06 R114 to R134; 03 R54; 05 R103). -/

namespace Sys2Proof.Machine

/-! ### The split rule (06 R114, R115) -/

/-- A box split on an axis. -/
def cutBox (box : List (Nat × Nat)) (a : Nat) : List (Nat × Nat) × List (Nat × Nat) :=
  let r := box.getD a (0, 0)
  let n := r.2 + 1 - r.1
  (box.set a (r.1, r.1 + n / 2 - 1), box.set a (r.1 + n / 2, r.2))

/-- The lower and the upper half of a box on the first splittable axis in SPLIT order; none at smallest grain. -/
def splitBox (p : Packet) (box : List (Nat × Nat)) : Option (List (Nat × Nat) × List (Nat × Nat)) :=
  let axes := (List.range p.axes).map p.splitAxis
  let size : Nat → Nat := fun a => (box.getD a (0, 0)).2 + 1 - (box.getD a (0, 0)).1
  (axes.find? (fun a => 2 * p.grain a ≤ size a)).map (cutBox box)

/-- One round of R115: every box split; none where one of them is at smallest grain. -/
def splitRound (p : Packet) : List (List (Nat × Nat)) → Option (List (List (Nat × Nat)))
  | [] => some []
  | b :: r => match splitBox p b, splitRound p r with
    | some (lo, hi), some q => some (lo :: hi :: q)
    | _, _ => none

/-- Rounds until there are `count` boxes. -/
def splitRounds (p : Packet) (count : Nat) (boxes : List (List (Nat × Nat))) : Nat → Option (List (List (Nat × Nat)))
  | 0 => if boxes.length = count then some boxes else none
  | fuel + 1 =>
    if boxes.length = count then some boxes
    else if count < boxes.length then none
    else match splitRound p boxes with
      | some bs => splitRounds p count bs fuel
      | none => none

/-- The whole domain of a packet. -/
def wholeBox (p : Packet) : List (Nat × Nat) := (List.range p.axes).map (fun a => (0, p.extent a - 1))

/-- A box placed among boxes in the order of their origins. -/
def insertBox (b : List (Nat × Nat)) : List (List (Nat × Nat)) → List (List (Nat × Nat))
  | [] => [b]
  | x :: r => if originLess b x then b :: x :: r else x :: insertBox b r

/-- The initial boxes in lexicographic order of their origins, axis 0 first (04 R80). -/
def initialBoxes (p : Packet) : Option (List (List (Nat × Nat))) :=
  (splitRounds p p.mapCount [wholeBox p] 13).map (fun bs => bs.foldr insertBox [])

/-! ### What a task leaves behind (06 R131) -/

/-- A task's requests are withdrawn, its write set is dropped and its locks are released and granted onward. -/
def State.dropTaskState (s : State) (t : Nat) : State :=
  let s := s.withdraw t
  let s := { s with tasks := { s.tasks with spec := s.tasks.spec.filter (fun e => e.task != t) }
                    sent := s.sent.filter (fun e => e.task != some t) }
  s.releaseLocks t

/-- A task is no more. -/
def State.eraseTask (s : State) (t : Nat) : State :=
  let s := s.dropTaskState t
  { s with tasks := { s.tasks with list := SMap.erase s.tasks.list t } }

/-- The save area of a parked context and what the model keeps beside it are given up. -/
def State.eraseParked (s : State) (keep : Ctx → Bool) : State :=
  { s with parkedCtxs := s.parkedCtxs.filter (fun p => keep p.2) }

/-- A context is destroyed: its task's write set and locks with it, the late-write buffer, the buffered stores and the
held commands (03 R54; 10 R206; 18 R358). -/
def State.destroyContext (s : State) (c x : Nat) : State :=
  let s := match (s.ctx c x).task with
    | some t => s.eraseTask t
    | none => s
  s.freeContext c x

/-- The work contexts of a grid, by core and context. -/
def State.gridContexts (s : State) (g : Nat) : List (Nat × Nat) :=
  (s.cores.map (fun c => (c.2.ctxs.filter (fun x => x.2.live && !x.2.handler && x.2.grid == g)).map
    (fun x => (c.1, x.1)))).flatten

/-- Every context of a grid is destroyed: on cores, off-core, and tasks not placed (03 R54; 06 R134). -/
def State.destroyGrid (s : State) (g : Nat) : State :=
  let s := (s.gridContexts g).foldl (fun s p => s.destroyContext p.1 p.2) s
  let s := s.eraseParked (fun k => k.handler || k.grid != g)
  let s := ((s.tasks.list.filter (fun t => t.2.grid == g)).map Prod.fst).foldl (fun s t => s.eraseTask t) s
  { s with cores := s.cores.map (fun c =>
      (c.1, { c.2 with claims := c.2.claims.filter (fun q => q.ctx.isSome || q.grid != g) })) }

/-- The grid of a context ends with a verdict: its contexts are destroyed and its completion record is written. -/
def State.failGrid (s : State) (g : Nat) (verdict : Nat × Nat × Nat × Option TrapRecord) (age : Nat)
    (box : List (Nat × Nat)) : State :=
  let s := s.destroyGrid g
  (s.updGrid g (fun x => { x with verdict := some verdict, endAge := age, endBox := box, waiting := false })).endGrid g

/-- MAP_INDEX of a context: the team's map entry, or that of its initial task (04 R83). -/
def State.mapIndex (s : State) (k : Ctx) : Nat :=
  match s.taskOf k with
  | some t => t.mapIdx
  | none => k.mapIdx

/-- FAULT GRID (03 R54): STATUS 0x02 with the trap record. A handler belongs to no grid and is destroyed alone. (log 52, DEDUCED) -/
def State.faultGrid (s : State) (c x : Nat) (r : TrapRecord) : State :=
  let k := s.ctx c x
  if k.handler then s.destroyContext c x else s.failGrid k.grid (2, 0, s.mapIndex k, some r) 0 []

/-! ### Abort and rebirth (06 R131, R133) -/

/-- The task stands in its grid's pending list for another run. -/
def Task.reborn (t : Task) (cause lastCore : Nat) (box : List (Nat × Nat)) : Task :=
  { t with box := box, aborts := min (t.aborts + 1) 0xFFFF, cause := cause, state := .pending, lastCore := lastCore
           wset := 0, abortDue := none }

/-- The task's entry or entries after an abort. -/
def State.requeueTask (s : State) (t cause core : Nat) (split : Bool) : State :=
  match s.task? t with
  | none => s
  | some x =>
    let whole := SMap.insert s.tasks.list t (x.reborn cause core x.box)
    let halves := match s.grid? x.grid with
      | some g => splitBox g.pkt x.box
      | none => none
    match split, halves with
    | true, some (lo, hi) =>
      let l := SMap.insert (SMap.insert s.tasks.list t (x.reborn cause core lo)) s.tasks.next (x.reborn cause core hi)
      { s with tasks := { s.tasks with list := l, next := s.tasks.next + 1 } }
    | _, _ => { s with tasks := { s.tasks with list := whole } }

/-- ABORT of the task that runs in a context: logs, write set, locks and resources go, and it is re-queued whole or as
two halves. -/
def State.abortTask (s : State) (c x cause : Nat) (split : Bool) : State :=
  match (s.ctx c x).task with
  | none => s
  | some t => ((s.dropTaskState t).freeContext c x).requeueTask t cause c split

/-- The abort of a wounded task that is saved off-core: its saved state is discarded. -/
def State.abortSaved (s : State) (t cause : Nat) : State :=
  match s.task? t with
  | none => s
  | some x => ((s.dropTaskState t).eraseParked (fun k => k.task != some t)).requeueTask t cause x.lastCore false

/-- Is a task's box at smallest grain (06 R114)? -/
def State.smallestGrain (s : State) (t : Nat) : Bool :=
  match s.task? t with
  | none => true
  | some x => match s.grid? x.grid with
    | some g => (splitBox g.pkt x.box).isNone
    | none => true

/-- THE SMALLEST-GRAIN FAULT of a context's task at a flow (06 R134): cause 0x0C, and the grid ends with STATUS
0x03. -/
def State.grainFault (s : State) (c x f : Nat) (t : Trap) : State :=
  let k := s.ctx c x
  let r := s.record c x f t
  let s := (s.queueRecord r).emitEvent c x f 0x1 r.cause r.codeAddr
  match k.task.bind s.task? with
  | none => s
  | some y => s.failGrid k.grid (3, 0, 0, none) y.stamp y.box

/-- PASS of a budget event: the group of the flow's next pass; 0xFF at a stop-group boundary and in VLIW mode (06
R134). -/
def Ctx.nextPass (k : Ctx) (f : Nat) : Nat :=
  match (k.flow f).group with
  | some g => if k.vliw then 0xFF else g.pass
  | none => 0xFF

/-- A budget event taken (06 R129). -/
def State.takeBudget (s : State) (c x : Nat) : State :=
  let k := s.ctx c x
  match k.budgetEvent, k.task with
  | some (code, f), some t =>
    if s.smallestGrain t then s.grainFault c x f { cause := 0x0C, detail := code, pass := some (k.nextPass f) } else s.abortTask c x code true
  | _, _ => s

/-- The main flow, or the earliest-detached fragment where it has no lanes (06 R134; 10 R210). -/
def Ctx.leadFlow (k : Ctx) : Nat :=
  if (k.flow 255).masks ≠ [] then 255
  else
    let frags := k.flows.filter (fun p => p.1 != 255 && p.2.masks != [])
    match frags.foldl (fun (b : Option (Nat × Flow)) p => match b with
      | none => some p
      | some q => if p.2.detach < q.2.detach then some p else b) none with
    | some p => p.1
    | none => 255

/-- The cycle allowance is used up (06 R128). -/
def State.cycleExpiry (s : State) (c x : Nat) : State :=
  s.updCtx c x (fun k => if k.budgetEvent.isSome then k else { k with budgetEvent := some (0x07, k.leadFlow) })

/-! ### Commit (06 R122) -/

/-- Has the first step of a task's commit left it free to commit: no store waits for room, and no abort is due (06 R122, R130)? -/
def State.mayCommit (s : State) (t : Nat) : Bool :=
  !s.awaitsRoom (some t) && (match s.task? t with
    | some y => y.abortDue.isNone
    | none => false)

/-- Has every flow of a task's context executed `tend` or `exit`, and is everything it waits for done (18 R358)? -/
def State.commitReady (s : State) (c x : Nat) : Bool :=
  let k := s.ctx c x
  k.live && k.task.isSome && !s.trapOwed c x && k.flows.all (fun p => p.2.masks == [] || p.2.wait == .ended)
    && k.flows.any (fun p => p.2.masks == [] || p.2.wait == .ended)
    && k.eq.all (fun p => p.2 == []) && k.held == [] && (s.core c).mxQ.all (fun o => o.ctx != x)
    && (s.core c).parked.all (fun p => p.ctx != x) && k.noneAway
    && k.stopped.isNone && k.budgetEvent.isNone
    && (match k.task with
        | some t => s.mayCommit t
        | none => false)

/-- COMMIT: buffered stores perform into the write set; unless the budget is passed or a slice is full, every word becomes committed, the
locks are released and the context ends. -/
def State.commitTask (s : State) (c x : Nat) : State :=
  let s := s.closeInterval c x
  let k := s.ctx c x
  match k.task, k.budgetEvent with
  | some t, none =>
    if !s.mayCommit t then s
    else
    let words := s.tasks.spec.filter (fun e => e.task == t)
    let s := words.foldl (fun s w => s.checkedWrite k.part (w.pa * 4) (fun s => s.homeWrite (w.pa * 4) (leBytes 4 w.val.toNat))) s
    let s := s.eraseTask t
    let s := s.freeContext c x
    s.updGrid k.grid (fun g => { g with committed := g.committed + 1 })
  | _, _ => s

end Sys2Proof.Machine
end

