-- ==== Sys2Proof/Machine/Attach.lean ====
section
/-! DEFINITION. Attach.lean: partitions and their keys, virtual functions and their resets, batch slots, CXL, Ethernet and
Wyund requests (02 R21 to R44). -/

namespace Sys2Proof.Machine

def State.updAtt (s : State) (f : Attach → Attach) : State := { s with att := f s.att }

/-! ### Partitions (02 R24 to R26) -/

def State.partCfg (s : State) (p : Nat) : PartCfg := SMap.get {} s.att.parts p

def State.setPart (s : State) (p : Nat) (c : PartCfg) : State := s.updAtt (fun a => { a with parts := SMap.insert a.parts p c })

/-- The frames that FRAME_OWNER gives a partition. -/
def State.framesOf (s : State) (p : Nat) : List Nat :=
  let base := s.att.frameOwnerBase
  s.mem.cells.filterMap (fun c =>
    if base ≤ c.1 ∧ c.1 < base + Config.frames ∧ 128 ≤ c.2.toNat ∧ c.2.toNat % 32 = p then some (c.1 - base) else none)

def State.keyGenerate (s : State) (p : Nat) : State :=
  let c := s.partCfg p
  if c.keyValid then s else s.setPart p { c with keyValid := true, keyGen := c.keyGen + 1 }

/-- The key is erased, unless the partition owns a frame. -/
def State.keyErase (s : State) (p : Nat) : State :=
  if s.framesOf p = [] then s.setPart p { s.partCfg p with keyValid := false } else s

/-! ### Batch slots (02 R43, R44) -/

/-- A slot becomes leaving: its expectation ends with the next phase, and the hardware makes the arrivals that are
missing in the current one; there are none where no context on the core holds the object. (log 134, DESIGN CHOICE) -/
def State.slotLeave (s : State) (n : Nat) : State :=
  let b := SMap.get {} s.att.batch n
  if b.state ≠ 1 then s
  else
    let s := s.updAtt (fun a => { a with batch := SMap.insert a.batch n { b with state := 2 } })
    let off := b.index * 32
    if (s.core b.core).ctxs.any (fun p => p.2.live && !p.2.handler && p.2.spadBase ≤ off
        && off + 32 ≤ p.2.spadBase + p.2.spadLen) then
      let x := s.barrierAt b.core off
      let s := s.landSpad b.core off { x with tadj := (x.tadj + b.arrivals) % 2 ^ 32 }.toBytes
      if b.made < b.arrivals then s.countStep b.core off (b.arrivals - b.made) 0 0 else s
    else s

/-- Word 1 of a free slot makes it active. -/
def State.batchActivate (s : State) (n v : Nat) : State :=
  let b := SMap.get {} s.att.batch n
  if b.state ≠ 0 then s
  else
    let b : BatchSlot :=
      { b with state := 1, zeroPages := bitsOf v 63 40, owner := bitsOf v 39 31, core := bitsOf v 30 23
               arrivals := bitsOf v 22 16, index := bitsOf v 15 0, made := 0 }
    s.updAtt (fun a => { a with batch := SMap.insert a.batch n b })

def State.batchWord0 (s : State) (n v : Nat) : State :=
  let b := SMap.get {} s.att.batch n
  if b.state ≠ 0 then s
  else s.updAtt (fun a => { a with batch := SMap.insert a.batch n { b with zeroBase := bitsOf v 51 12 } })

/-- Zeroing ends: the slot is free. -/
def State.batchFree (s : State) (n : Nat) : State :=
  let b := SMap.get {} s.att.batch n
  if b.state = 3 then s.updAtt (fun a => { a with batch := SMap.insert a.batch n { b with state := 0 } }) else s

/-! ### Resetting a virtual function (02 R41, R42) -/

def State.vf (s : State) (v : Nat) : VfBind := SMap.get {} s.att.vfs v
def State.setVf (s : State) (v : Nat) (b : VfBind) : State := s.updAtt (fun a => { a with vfs := SMap.insert a.vfs v b })

/-- Step 2: every context that runs work launched from the VF's queues is destroyed, on-core or parked; its tasks do not
come back. The VF's handlers are such contexts (03 R58). -/
def State.vfDestroy (s : State) (v : Nat) : State :=
  let s := ((s.grids.filter (fun g => g.2.vf == v)).map Prod.fst).foldl (fun s g => s.destroyGrid g) s
  let handlers := s.cores.flatMap (fun c => (c.2.ctxs.filter (fun x => x.2.live && x.2.handler && x.2.vf == v)).map
    (fun x => (c.1, x.1)))
  let s := handlers.foldl (fun s p => s.destroyContext p.1 p.2) s
  s.eraseParked (fun k => !(k.handler && k.vf == v))

/-- Step 3: every pending service call completes with RESET; one written done before is overwritten. -/
def State.vfCalls (s : State) (v : Nat) : State :=
  let tags := (s.calls.filter (fun c => c.2.vf == v)).map Prod.fst
  let s := ((s.svcEntries v).filter (fun p => p.2.state != 0 && tags.contains p.2.tag)).foldl (fun s p =>
    (s.svcPut v p.1 16 (leBytes 4 1)).svcState v p.1 2) s
  { s with calls := s.calls.filter (fun c => c.2.vf != v) }

/-- A VF reset starts: steps 1 to 6. One that is in progress takes a further request in. Messages that were accepted stay. (log
133, DESIGN CHOICE) -/
def State.vfReset (s : State) (v : Nat) : State :=
  let b := s.vf v
  if b.resetBusy then s
  else
    let s := s.setVf v { b with resetBusy := true }
    let s := s.vfDestroy v
    let qs := if b.enable then (List.range b.qcount).map (fun i => b.qbase + i) else []
    let s := qs.foldl (fun s q => s.resetQueue b.part q) s
    let s := s.vfCalls v
    let s := s.reply (.hostNotified v)
    let s := s.updAtt (fun a =>
      { a with vfClosing := a.vfClosing ++ [v]
               qps := a.qps.map (fun p => (p.1, if p.2.vf = v then { p.2 with error := true, posted := 0 } else p.2))
               replies := a.replies ++ a.qps.flatMap (fun p =>
                 if p.2.vf = v then List.replicate p.2.posted (.flushError p.1) else []) })
    ((s.att.batch.filter (fun p => p.2.owner == v && p.2.state == 1)).map Prod.fst).foldl (fun s n => s.slotLeave n) s

/-- Step 7: the host complex has closed the VF's files and connections; RESET_BUSY clears, and a VF that was disabled
is left unbound. The service ring's entries of the reset calls are freed. -/
def State.vfResetDone (s : State) (v : Nat) : State :=
  let b := s.vf v
  if !b.resetBusy then s
  else
    let s := s.logEvent 0x0A 0x600 (Config.logCode s.tick) v
    let b := if s.att.vfUnbind.contains v then { b with resetBusy := false, enable := false, owner := 0x1F }
      else { b with resetBusy := false }
    let live := fun (e : SvcEntry) => s.calls.any (fun c => c.1 == e.tag)
    let s := ((s.svcEntries v).filter (fun p => p.2.state == 2 && !live p.2)).foldl (fun s p => s.svcState v p.1 0) s
    let s := if b.enable then s else s.dropCached (s.vf v)
    (s.setVf v b).updAtt (fun a =>
      { a with vfClosing := a.vfClosing.filter (fun n => n != v), vfUnbind := a.vfUnbind.filter (fun n => n != v) })

/-- ENABLE := 0 starts a VF reset and then leaves the VF unbound (02 R27). (log 53, DEDUCED) -/
def State.vfDisable (s : State) (v : Nat) : State :=
  if (s.vf v).enable then (s.updAtt (fun a => { a with vfUnbind := a.vfUnbind ++ [v] })).vfReset v else s

/-- A write of VF_BIND (02 R27). -/
def State.vfBindWrite (s : State) (v x : Nat) : State :=
  let b := s.vf v
  if b.enable then (if x % 2 = 0 then s.vfDisable v else s)
  else
    let n : VfBind :=
      { b with qcount := bitsOf x 50 38, qbase := bitsOf x 37 26, owner := bitsOf x 20 16, part := bitsOf x 12 8 }
    let overlap := s.att.vfs.any (fun p => p.1 != v && p.2.enable && n.qcount != 0 && p.2.qcount != 0
      && p.2.qbase < n.qbase + n.qcount && n.qbase < p.2.qbase + p.2.qcount)
    let bad := !(s.partCfg n.part).enable || 16 < n.owner || 4096 < n.qbase + n.qcount || overlap
    if x % 2 = 0 then s.setVf v n
    else if bad then (s.setVf v n).logRefusal 0x600 v
    else s.setVf v { n with enable := true }

/-! ### Partition reset (02 R26) -/

/-- The reset starts: its VFs are reset; the later steps wait for them. -/
def State.partitionReset (s : State) (p : Nat) : State :=
  let c := s.partCfg p
  if c.resetBusy then s
  else
    let s := s.setPart p { c with resetBusy := true }
    let s := s.updAtt (fun a => { a with partResets := a.partResets ++ [p] })
    ((s.att.vfs.filter (fun v => v.2.enable && v.2.part == p)).map Prod.fst).foldl (fun s v => s.vfReset v) s

/-- Are the partition's VFs out of reset? -/
def State.partitionReady (s : State) (p : Nat) : Bool :=
  s.att.partResets.contains p && s.att.vfs.all (fun v => v.2.part != p || !v.2.resetBusy)

/-- Grants naming the partition are invalidated, its frames are zeroed and released, and its key is made anew. -/
def State.partitionResetDone (s : State) (p : Nat) : State :=
  if !s.partitionReady p then s
  else
    let s := s.updAtt (fun a =>
      { a with grants := a.grants.map (fun g => (g.1, if g.2.lpart = p then { g.2 with valid := false } else g.2))
               partResets := a.partResets.filter (fun n => n != p) })
    let s := (s.framesOf p).foldl (fun s f =>
      let s := s.zeroPages p (f * 16) 16
      s.homeWrite (s.att.frameOwnerBase + f) [BitVec.ofNat 8 p]) s
    let c := s.partCfg p
    s.setPart p { c with resetBusy := false, keyValid := true, keyGen := c.keyGen + 1 }

/-- A write of PART_CFG (02 R25); partition 0 stays enabled. -/
def State.partCfgWrite (s : State) (p x : Nat) : State :=
  let s := match bitsOf x 5 4 with
    | 1 => s.keyGenerate p
    | 2 => s.keyErase p
    | _ => s
  let s := s.setPart p { s.partCfg p with enable := p == 0 || x % 2 == 1 }
  if bitsOf x 1 1 = 1 then s.partitionReset p else s

/-- A write of PEER_GRANT (02 R38). -/
def State.grantWrite (s : State) (e x : Nat) : State :=
  let g : PeerGrant := { dev := bitsOf x 63 50, rpart := bitsOf x 49 45, lpart := bitsOf x 44 40, valid := x % 2 == 1 }
  s.updAtt (fun a => { a with grants := SMap.set {} a.grants e g })

/-! ### Requests of outside parties (02 R23, R29, R32, R38; 07 R148) -/

/-- How an originator is refused. -/
inductive Refuse where
  | completer | remote | peer
  deriving DecidableEq, Repr

def Refuse.answer (r : Refuse) (isRead : Bool) : LinkReply :=
  match r with
  | .completer => .completerAbort
  | .remote => .accessNak
  | .peer => if isRead then .poison else .done

/-- The bytes that a request covers, and whether it is answered with data. -/
def reqLength : MemReq → Nat
  | .read n => n
  | .write bs => bs.length
  | .atomic _ n _ _ => n

def reqReads : MemReq → Bool
  | .write _ => false
  | _ => true

/-- An atomic that the home slice can perform: one of 16 R320 on 4 or 8 aligned bytes, and the sum of f32 on four. -/
def reqFits (pa : Nat) : MemReq → Bool
  | .atomic sub n _ _ => (n == 4 || (n == 8 && sub != 10)) && pa % n == 0 && decide (sub ≤ 10)
  | _ => true

/-- A memory request performed at the home slices for a partition; it is checked page by page of the owner's frames. One
that spans several frames is refused whole when any one of them is: R23 speaks of one frame. (log 107, DESIGN CHOICE) An
atomic of the host complex or of a peer answers with the value before (02 R39); the other originators have none. -/
def State.outsideMemory (s : State) (part pa : Nat) (req : MemReq) (how : Refuse) : State :=
  let len := reqLength req
  let edges := [s.att.frameOwnerBase, s.att.frameOwnerBase + 12 * 2 ^ 20].filter (fun a => pa < a && a < pa + len)
  let frames := (List.range ((pa + len + 65535) / 65536 - pa / 65536)).map (fun n => max pa ((pa / 65536 + n) * 65536)) ++ edges
  let isRead := reqReads req
  if !reqFits pa req || (how != .peer && (match req with
      | .atomic _ _ _ _ => true
      | _ => false)) then (s.logRefusal 0x600 pa).reply (how.answer isRead)
  else match frames.find? (fun a => !s.owns part a) with
  | some a => (s.logPhys part a .refused).reply (how.answer isRead)
  | none =>
    match frames.find? (fun a => !s.stackReady (a / 65536)) with
    | some a => (s.logPhys part a .notReady).reply (if isRead then .poison else .done)
    | none =>
      match req with
      | .read n =>
        if ((List.range ((pa + n + 127) / 128 - pa / 128)).any (fun l => s.poison.contains (pa / 128 + l))) then
          s.reply (match how with
            | .remote => .accessNak
            | _ => .poison)
        else s.reply (.data (s.mem.readBytes pa n))
      | .write bs => (s.homeWrite pa bs).reply .done
      | .atomic sub n b cmp =>
        let old := leNat (s.mem.readBytes pa n)
        if s.poison.contains (pa / 128) then s.reply .poison
        else (s.homeWrite pa (leBytes n (atomNew sub (8 * n) old b cmp))).reply (.data (leBytes n old))

/-- An HDM window written; its partition must be that of some VF of the LD. -/
def State.hdmWrite (s : State) (ld window part base size : Nat) : State :=
  let ok := s.att.vfs.any (fun v => v.2.enable && v.2.owner == ld && v.2.part == part)
  match SMap.find? s.att.lds ld with
  | some d =>
    if ok && decide (window < 8) then
      s.updAtt (fun a => { a with lds := SMap.insert a.lds ld { d with hdm := SMap.insert d.hdm window ⟨part, base, size⟩ } })
    else s.logRefusal 0x600 ld
  | none => s.logRefusal 0x600 ld

/-- Is a CXL port trained, as it is in attached and mixed mode only (02 R20)? -/
def State.cxlUp (s : State) (port : Nat) : Bool := s.mgmt.bootMode != 0 && s.mgmt.funcReady.getLsbD (34 + port)

/-- The fabric manager binds an LD to a port and a host (02 R20, R29). -/
def State.ldBind (s : State) (ld port host : Nat) : State :=
  if ld < 16 ∧ port < 2 ∧ s.cxlUp port then
    s.updAtt (fun a => { a with lds := SMap.insert a.lds ld { port := port, host := host, up := true } })
  else s

/-- An LD's link goes down or its host vanishes: every VF of the LD is reset (02 R30). -/
def State.ldDown (s : State) (ld : Nat) : State :=
  let s := match SMap.find? s.att.lds ld with
    | some d => s.updAtt (fun a => { a with lds := SMap.insert a.lds ld { d with up := false } })
    | none => s
  ((s.att.vfs.filter (fun v => v.2.enable && v.2.owner == ld)).map Prod.fst).foldl (fun s v => s.vfReset v) s

/-- The immediate of a queue-feed QP is a doorbell, after every earlier write of the QP (02 R33). -/
def State.queueFeed (s : State) (qp : Nat) (tail : Word) : State :=
  match SMap.find? s.att.qps qp with
  | none => s.reply .accessNak
  | some q => if q.error || q.kind != 1 then s.reply .accessNak else s.doorbell (.queueFeed qp) q.queue tail

/-! ### Wyund failures (02 R36, R39) -/

/-- A flit is retried; nothing is reordered or delivered twice. -/
def State.flitRetry (s : State) (port : Nat) : State :=
  s.updAtt (fun a => { a with flitRetries := SMap.insert a.flitRetries port (SMap.get 0 a.flitRetries port + 1) })

/-- A load on a peer fails: it traps when its value would return. -/
def Load.fail (l : Load) (dev : Nat) : Load :=
  match l.peer with
  | some (d, t) => if d = dev then { l with trap := some t } else l
  | none => l

/-- Does the LIST of a collective name a device (18 R365)? -/
def State.collNames (s : State) (c x : Nat) (d : CollDesc) (dev : Nat) : Bool :=
  match (s.engineRead c x d.list (4 * d.ndev) (lineCount (4 * d.ndev))).2 with
  | .ok bs => (List.range d.ndev).any (fun i => fieldAt bs (4 * i) 4 % 2 ^ 14 == dev)
  | .error _ => false

/-- Collectives in progress that a device takes part in report an error (18 R366). -/
def State.failColl (s : State) (c x dev : Nat) : State :=
  let fail : EngCmd → EngCmd := fun e => match e.op with
    | .coll _ _ d => if s.collNames c x d dev then { e with lost := e.lost ++ [dev] } else e
    | _ => e
  s.updCtx c x (fun k => { k with eq := k.eq.map (fun q => (q.1, if q.1 = 2 then q.2.map fail else q.2)) })

/-- The stores of all contexts that wait for a peer device's acknowledgement are dropped, each context's address kept for
its next drain, release or arrival (02 R39). -/
def State.losePeer (s : State) (lost : SentStore → Bool) : State :=
  let gone := s.sent.filter lost
  let fail : Ctx → Ctx := fun k => match gone.find? (fun e => k.sent.contains e.tag) with
    | some e => k.peerLost e.va (some e.tag)
    | none => k
  { s with sent := s.sent.filter (fun e => !lost e)
           cores := s.cores.map (fun (c : Nat × Core) => (c.1, { c.2 with ctxs := c.2.ctxs.map (fun (x : Nat × Ctx) => (x.1, fail x.2)) }))
           parkedCtxs := s.parkedCtxs.map (fun (p : Nat × Ctx) => (p.1, fail p.2)) }

def SentStore.toPeer (e : SentStore) (dev : Nat) : Bool :=
  match e.dst with
  | .peer d _ => d == dev
  | _ => false

/-- A port fails. While another port reaches the peer, nothing is lost; else its outstanding requests fail. -/
def State.wyundFail (s : State) (port : Nat) : State :=
  let s := s.updAtt (fun a => { a with portFailed := a.portFailed ||| (1#18 <<< port) })
  match SMap.find? s.att.portPeer port with
  | none => s
  | some dev =>
    if s.att.portPeer.any (fun p => p.2 == dev && !s.att.portFailed.getLsbD p.1) then s
    else
      let one : Ctx → Ctx := fun k => { k with loads := k.loads.map (fun l => l.fail dev) }
      let s : State := { s with cores := s.cores.map (fun (c : Nat × Core) =>
          (c.1, { c.2 with ctxs := c.2.ctxs.map (fun (x : Nat × Ctx) => (x.1, one x.2)) })) }
      let s := s.losePeer (fun e => e.toPeer dev)
      (s.cores.flatMap (fun (c : Nat × Core) => c.2.ctxs.map (fun x => (c.1, x.1)))).foldl (fun s p => s.failColl p.1 p.2 dev) s

/-- The outstanding load that a NAK of an address answers: the one of that address, else the oldest one of a peer. -/
def Ctx.nakLoad (k : Ctx) (pa : Dword) : Option Load :=
  let open_ := k.loads.filter (fun l => l.peer.isSome && l.trap.isNone)
  match open_.find? (fun l => l.peer.any (fun p => p.2.fault == pa)) with
  | some l => some l
  | none => open_.head?

/-- The engine command at the head of a copy or gather queue that has reached a page of a peer device: what a NAK of an address in
it answers (18 R357). -/
def Ctx.nakQueue (k : Ctx) (pa : Dword) : Option Nat :=
  [0, 1].find? (fun q => match (SMap.get [] k.eq q).head? with
    | some e => (SMap.find? k.eqStopped q).isNone
        && k.engPages.any (fun p => p.cmd == e.id && p.page == pa.toNat / 4096 && p.peer.isSome)
    | none => false)

/-- A grant NAK of an address: the outstanding store to it is dropped, its address kept for the next drain, release or
arrival; without one, an engine command that reads the page fails, or an outstanding peer load, else the oldest outstanding peer
store, else the context's collectives report an error. (log 87, DEDUCED) -/
def State.grantNak (s : State) (c x : Nat) (pa : Dword) : State :=
  let k := s.ctx c x
  let mine := s.sent.filter (fun e => k.sent.contains e.tag && (match e.dst with
    | .peer _ _ => true
    | _ => false))
  if !k.live then s
  else match mine.find? (fun e => e.va == pa), k.nakLoad pa, mine.head? with
    | some e, _, _ => s.losePeer (fun q => q.tag == e.tag)
    | none, l, st => match (if k.loads.any (fun l => l.trap.isNone && l.peer.any (fun p => p.2.fault == pa)) then none
        else k.nakQueue pa), l, st with
    | some q, _, _ => s.setCtx c x { k with eq := SMap.insert k.eq q (match SMap.get [] k.eq q with
        | e :: r => { e with refused := some pa } :: r
        | [] => []) }
    | none, some l, _ => s.setCtx c x
        { k with loads := k.loads.map (fun q => if q.tag = l.tag then { q with trap := q.peer.map Prod.snd } else q) }
    | none, none, some e => s.losePeer (fun q => q.tag == e.tag)
    | none, none, none =>
      if SMap.get [] k.eq 2 != [] then
        s.setCtx c x { k with eq := SMap.insert k.eq 2 ((SMap.get [] k.eq 2).map (fun e => match e.op with
          | .coll _ _ _ => { e with done := 1 }
          | _ => e)) }
      else s.setCtx c x (k.peerLost pa)

/-! ### Queue pairs (02 R32, R42) -/

/-- A work request posted on a queue pair; on one in error it completes with a flush error. -/
def State.qpPost (s : State) (qp : Nat) : State :=
  match SMap.find? s.att.qps qp with
  | none => s.logRefusal 0x600 qp
  | some q =>
    if q.error then s.reply (.flushError qp)
    else s.updAtt (fun a => { a with qps := SMap.insert a.qps qp { q with posted := q.posted + 1 } })

end Sys2Proof.Machine
end

