-- ==== Sys2Proof/Machine/Regs.lean ====
section
/-! DEFINITION. Regs.lean: the register space: the I/O-die registers, the host-complex doorbell window, barrier windows and
UI_RAISE pages (07 R147, R413; 16 R334; 10 R210). Offsets are counted from 0x8_0000_0000_0000. -/

namespace Sys2Proof.Machine

/-! ### Doorbells into contexts -/

/-- A barrier-window arrival dropped: counted in DROPPED and logged (16 R334). -/
def State.windowDrop (s : State) (c w : Nat) : State :=
  (s.updCore c (fun co =>
    let b := SMap.get {} co.barWin w
    { co with barWin := SMap.insert co.barWin w { b with dropped := min (b.dropped + 1) 0xFFFF } })).logRefusal 0x600 w

/-- An aligned 8 B write to offset 0 of a barrier window (16 R334, 02 R43, R44). -/
def State.windowArrival (s : State) (c w part v : Nat) : State :=
  let cfg := SMap.get {} (s.core c).barWin w
  if cfg.part ≠ part then s.logRefusal 0x600 part
  else if !cfg.valid then s
  else
    let index := bitsOf v 15 0
    let count := bitsOf v 31 16
    let slot := bitsOf v 41 32
    let b := SMap.get {} s.att.batch slot
    if bitsOf v 63 43 ≠ 0 ∨ !s.objectLive c cfg.part index then s.windowDrop c w
    else if bitsOf v 42 42 = 0 then s.countStep c (index * 32) count 0 0
    else if b.state = 2 ∧ b.core = c ∧ b.index = index then s
    else if b.state ≠ 1 ∨ b.core ≠ c ∨ b.index ≠ index then s.windowDrop c w
    else
      let s := s.updAtt (fun a => { a with batch := SMap.insert a.batch slot { b with made := b.made + count } })
      s.countStep c (index * 32) count 0 0

/-- A source raised for a context by a party of its partition; values above 15 are ignored (10 R210). -/
def State.uiRaise (s : State) (c x part v : Nat) : State :=
  let k := s.ctx c x
  if !k.live ∨ k.part ≠ part then s.logRefusal 0x600 part
  else if 15 < v then s
  else s.setCtx c x (k.raiseUi s.cycle (1#16 <<< v))

/-! ### I/O-die registers (07 R413) -/

/-- The 32 bytes of an event-log entry (01 R14). -/
def LogEntry.toBytes (e : LogEntry) : List Byte :=
  leBytes 8 e.time ++ leBytes 2 e.cls ++ leBytes 2 e.source ++ leBytes 4 e.code.toNat ++ leBytes 16 e.detail

/-- The place of an offset in an array of registers. -/
def arrayAt (off base count size : Nat) : Option Nat :=
  if base ≤ off ∧ off < base + count * size then some ((off - base) / size) else none

/-- 32-bit registers. -/
def State.io32 (s : State) (off : Nat) : Option Nat :=
  match off with
  | 0x00 => some s.mgmt.powerCap
  | 0x08 => some s.mgmt.sectReady.toNat
  | 0x18 => some (if s.mgmt.logOverrun then 1 else 0)
  | 0x1C => some s.mgmt.logCount
  | 0x28 => some s.qc.slice
  | 0x2C => some s.qc.resident
  | _ => none

/-- VF_BIND as it reads (02 R27). -/
def VfBind.word (b : VfBind) : Nat :=
  b.qcount * 2 ^ 38 + b.qbase * 2 ^ 26 + b.owner * 2 ^ 16 + b.part * 2 ^ 8 + (if b.resetBusy then 2 else 0)
    + (if b.enable then 1 else 0)

/-- PART_CFG as it reads (02 R25). -/
def PartCfg.word (c : PartCfg) : Nat :=
  (if c.keyValid then 256 else 0) + (if c.resetBusy then 4 else 0) + (if c.enable then 1 else 0)

/-- The two words of a batch slot as they read (02 R43). -/
def BatchSlot.word (b : BatchSlot) (n : Nat) : Nat :=
  if n = 0 then b.zeroBase * 4096 + b.state
  else b.zeroPages * 2 ^ 40 + b.owner * 2 ^ 31 + b.core * 2 ^ 23 + b.arrivals * 2 ^ 16 + b.index

def PeerGrant.word (g : PeerGrant) : Nat :=
  g.dev * 2 ^ 50 + g.rpart * 2 ^ 45 + g.lpart * 2 ^ 40 + (if g.valid then 1 else 0)

/-- The partition whose table holds a queue: that of the enabled VF it belongs to (04 R69); a queue of no enabled VF is
configured for the one whose range it lies in. (log 50, DESIGN CHOICE) -/
def State.queuePart (s : State) (q : Nat) : Option Nat :=
  match s.queueVf q with
  | some p => some p.2.part
  | none =>
    (List.find? (fun (p : Nat × VfBind) => p.2.qbase ≤ q && q < p.2.qbase + p.2.qcount) s.att.vfs).map (fun p => p.2.part)

/-- One eight-byte word of a queue's entry, read and written through QUEUE_CFG (04 R70). -/
def State.queueCfgRead (s : State) (q n : Nat) : Nat :=
  match s.queuePart q with
  | some p => match s.queueEntry p q with
    | some e => fieldAt ({ e with junk := [] } : QueueEntry).toBytes (8 * n) 8
    | none => 0
  | none => 0

/-- The event of a read of QUEUE_CFG whose table entry cannot be read (01 R16; 02 R23). -/
def State.logCfgRead (s : State) (off : Nat) : State :=
  match arrayAt (off / 8 * 8) 0x9000 512 8 with
  | none => s
  | some n =>
    let q := Config.queueCfgPlace n % 32768 / 8
    match s.queuePart q with
    | some p => if (s.queueEntry p q).isNone then s.logEntry p q else s
    | none => s

/-- The bits of an entry's eight-byte word that a write of QUEUE_CFG changes: reserved ones read zero and ignore writes (00 R3). -/
def queueCfgMask (n : Nat) : Nat :=
  match n with
  | 0 | 2 | 3 => 0xFFFFFFFFFFFFFFFF
  | 1 => 0xFFFFFFFF0007FFFF
  | _ => 0

def State.queueCfgWrite (s : State) (q n v : Nat) : State :=
  match s.queuePart q with
  | some p => match s.queueEntry p q with
    | some e =>
      let m := queueCfgMask n
      let new := (fieldAt e.toBytes (8 * n) 8 &&& (m ^^^ 0xFFFFFFFFFFFFFFFF)) ||| (v &&& m)
      s.putQueue p q (QueueEntry.ofBytes (e.toBytes.take (8 * n) ++ leBytes 8 new ++ e.toBytes.drop (8 * n + 8)))
    | none => (s.logEntry p q).logRefusal 0x600 q
  | none => s.logRefusal 0x600 q

/-- 64-bit registers, by an offset that is a multiple of 8. -/
def State.io64 (s : State) (off : Nat) : Option Nat :=
  if off = 0x10 then some s.mgmt.funcReady.toNat
  else if off = 0x20 then some ((if s.att.wyundSet then 0x10000 else 0) + s.att.wyundId)
  else if off = 0x30 then some s.att.frameOwnerBase
  else match arrayAt off 0x1000 32 8, arrayAt off 0x1100 32 8, arrayAt off 0x2000 128 8, arrayAt off 0x4000 384 8 with
  | some p, _, _, _ => some (s.partCfg p).word
  | _, some p, _, _ => some (SMap.get 0 s.att.partQtable p)
  | _, _, some n, _ => some (bitsOf (SMap.get 0 s.att.partCores (n / 4)) (64 * (n % 4) + 63) (64 * (n % 4)))
  | _, _, _, some v => some (s.vf v).word
  | _, _, _, _ =>
    match arrayAt off 0x8000 256 8, arrayAt off 0x9000 512 8, arrayAt off 0x10000 2048 8, arrayAt off 0x20000 16384 8 with
    | some e, _, _, _ => some (SMap.get {} s.att.grants e).word
    | _, some n, _, _ =>
      let p := Config.queueCfgPlace n % 32768
      some (s.queueCfgRead (p / 8) (p % 8))
    | _, _, some n, _ => some ((SMap.get {} s.att.batch (n / 2)).word (n % 2))
    | _, _, _, some n =>
      some (match SMap.find? s.mgmt.log (n / 4) with
        | some e => fieldAt e.toBytes (8 * (n % 4)) 8
        | none => 0)
    | _, _, _, _ => none

/-- QC_SLICE: a written 0 is taken as 1 (04 R75). -/
def State.qcSliceWrite (s : State) (v : Nat) : State :=
  { s with qc := { s.qc with slice := max 1 (v % 2 ^ 16) } }

/-- LOG_OVERRUN is cleared by writing 1 (01 R14). -/
def State.overrunClear (s : State) (v : Nat) : State :=
  s.updMgmt (fun m => { m with logOverrun := m.logOverrun && v % 2 == 0 })

/-- One eight-byte part of a partition's PART_CORES mask. -/
def State.partCoresWrite (s : State) (p n v : Nat) : State :=
  let old := SMap.get 0 s.att.partCores p
  let low := old % 2 ^ (64 * n)
  let high := old / 2 ^ (64 * n + 64)
  s.updAtt (fun a => { a with partCores := SMap.set 0 a.partCores p (low + v % 2 ^ 64 * 2 ^ (64 * n) + high * 2 ^ (64 * n + 64)) })

/-- A 32-bit register written. -/
def State.ioWrite32 (s : State) (off v : Nat) : State :=
  match off with
  | 0x00 => s.writePowerCap (v % 2 ^ 16)
  | 0x18 => s.overrunClear v
  | 0x28 => s.qcSliceWrite v
  | _ => s

/-- A 64-bit register written; read-only and reserved ones ignore it. -/
def State.ioWrite64 (s : State) (off v : Nat) : State :=
  if off = 0x20 then s.wyundIdWrite v
  else if off = 0x30 then s.moveTable (v % 2 ^ 52)
  else match arrayAt off 0x1000 32 8, arrayAt off 0x1100 32 8, arrayAt off 0x2000 128 8, arrayAt off 0x4000 384 8 with
  | some p, _, _, _ => s.partCfgWrite p v
  | _, some p, _, _ => s.updAtt (fun a => { a with partQtable := SMap.set 0 a.partQtable p (v % 2 ^ 52) })
  | _, _, some n, _ => s.partCoresWrite (n / 4) (n % 4) v
  | _, _, _, some f => s.vfBindWrite f v
  | _, _, _, _ =>
    match arrayAt off 0x8000 256 8, arrayAt off 0x9000 512 8, arrayAt off 0x10000 2048 8 with
    | some e, _, _ => s.grantWrite e v
    | _, some n, _ =>
      let p := Config.queueCfgPlace n % 32768
      s.queueCfgWrite (p / 8) (p % 8) v
    | _, _, some n => if n % 2 = 0 then s.batchWord0 (n / 2) v else s.batchActivate (n / 2) v
    | _, _, _ => s

/-- A read of the I/O-die range; what the list does not name reads zero. -/
def State.ioRead (s : State) (off n : Nat) : Nat :=
  if n = 8 then (s.io64 off).getD 0
  else match s.io32 off with
    | some v => v
    | none => match s.io64 (off / 8 * 8) with
      | some v => v / 2 ^ (8 * (off % 8)) % 2 ^ 32
      | none => 0

/-- A write of the I/O-die range; of two 4 B accesses the low half is held until the high half comes
(notes/assumptions/10.md). (log 10, DESIGN CHOICE) -/
def State.ioWrite (s : State) (off n v : Nat) : State :=
  if n = 8 then s.ioWrite64 off v
  else match s.io32 off with
    | some _ => s.ioWrite32 off v
    | none =>
      if off % 8 = 0 then s.updAtt (fun a => { a with lowHalf := SMap.insert a.lowHalf off v })
      else
        let reg := off - 4
        let low := match SMap.find? s.att.lowHalf reg with
          | some x => x
          | none => ((s.io64 reg).getD 0) % 2 ^ 32
        (s.updAtt (fun a => { a with lowHalf := SMap.erase a.lowHalf reg })).ioWrite64 reg (low + v * 2 ^ 32)

/-! ### The space (07 R147) -/

/-- A load of 4 or 8 bytes from a queue's doorbell registers (04 R72); an entry that cannot be read logs its event. -/
def State.bellRead (s : State) (q off n : Nat) : State × Nat :=
  let s' := match s.queueVf q with
    | some (_, b) => if (s.queueEntry b.part q).isNone then s.logEntry b.part q else s
    | none => s
  (s', if n = 8 then s.doorbellRead q off + 2 ^ 32 * s.doorbellRead q (off + 4) else s.doorbellRead q off)

/-- A store of 4 or 8 bytes to a queue's doorbell registers: TAIL alone can be written. -/
def State.bellWrite (s : State) (src : DoorbellSource) (q off v : Nat) : State :=
  if off = 0 then s.doorbell src q (BitVec.ofNat 32 v) else s

/-- A load of n bytes at an offset: barrier windows and doorbell pages read zero. -/
def State.regRead (s : State) (_part off n : Nat) : State × Nat :=
  match regPlace off with
  | .io o => (s.logCfgRead o, s.ioRead o n)
  | .bell o => s.bellRead (o / 16) (o % 16) n
  | _ => (s, 0)

/-- A store of n bytes at an offset; one that is refused is dropped and logged. -/
def State.regWrite (s : State) (part off n v : Nat) : State :=
  if !s.regAccepts part off then s.logPhys part (Config.regSpace + off) .refused
  else match regPlace off with
  | .io o => s.ioWrite o n v
  | .bell o => s.bellWrite .hostComplex (o / 16) (o % 16) v
  | .window c w o => if n = 8 ∧ o = 0 then s.windowArrival c w part v else s
  | .raise c x o => if n = 4 ∧ o = 0 then s.uiRaise c x part v else s
  | .none => s

/-! ### Requests of outside parties (02 R23, R29, R32, R38; 07 R147) -/

/-- A request of an outside party for a partition: to memory, or to the register space, where an access that is not an
aligned load or store of 4 or 8 B, or that is not accepted, is dropped and logged (07 R147). (log 82, DEDUCED) -/
def State.outsideAccess (s : State) (part pa : Nat) (req : MemReq) (how : Refuse) : State :=
  if pa < Config.regSpace then s.outsideMemory part pa req how
  else
    let off := pa - Config.regSpace
    let fits : Nat → Bool := fun n => (n == 4 || n == 8) && pa % n == 0 && s.regAccepts part off
    match req with
    | .read n =>
      if fits n then
        let r := s.regRead part off n
        r.1.reply (.data (leBytes n r.2))
      else (s.logPhys part pa .refused).reply (how.answer true)
    | .write bs =>
      if fits bs.length then (s.regWrite part off bs.length (leNat bs)).reply .done
      else (s.logPhys part pa .refused).reply (how.answer false)
    | .atomic _ _ _ _ => (s.logPhys part pa .refused).reply (how.answer true)

/-- A host's CXL.mem access through an HDM window (02 R29). -/
def State.cxlAccess (s : State) (ld window off : Nat) (req : MemReq) : State :=
  match SMap.find? s.att.lds ld with
  | none => s.reply .completerAbort
  | some d =>
    match SMap.find? d.hdm window with
    | none => s.reply .completerAbort
    | some w =>
      if d.up ∧ s.cxlUp d.port ∧ off + reqLength req ≤ w.size then s.outsideAccess w.part (w.base + off) req .completer
      else s.reply .completerAbort

/-- A CXL host's access to BAR 0 of one of its VFs: the doorbell region, 16 B for each of the VF's queues. Beyond them, and
in an access that no register takes, reads give zero and writes are dropped without count (04 R72). -/
def State.bar0 (s : State) (v off : Nat) (req : MemReq) : State :=
  let b := s.vf v
  let fits : Nat → Bool := fun n => (n == 4 || n == 8) && off % n == 0
  match SMap.find? s.att.lds b.owner with
  | none => s.reply .completerAbort
  | some d =>
    if !(b.enable && decide (b.owner < 16) && d.up && s.cxlUp d.port) then s.reply .completerAbort
    else
      let i := off / 16
      match req with
      | .read n =>
        if fits n && decide (i < b.qcount) then
          let r := s.bellRead (b.qbase + i) (off % 16) n
          r.1.reply (.data (leBytes n r.2))
        else s.reply (.data (List.replicate n 0))
      | .write bs =>
        if fits bs.length && decide (i < b.qcount) then
          (s.bellWrite (.cxl v) (b.qbase + i) (off % 16) (leNat bs)).reply .done
        else s.reply .done
      | .atomic _ _ _ _ => s.reply .completerAbort

/-- An inbound Wyund request, matched against PEER_GRANT (02 R38); it comes over a trained port (02 R40). Of several entries
that match, the one of lowest index applies: R38 names none. (log 107, DESIGN CHOICE) -/
def State.inboundPeer (s : State) (dev rpart pa : Nat) (req : MemReq) : State :=
  if !s.peerReached dev then s
  else match List.find? (fun (g : Nat × PeerGrant) => g.2.valid && g.2.dev == dev && g.2.rpart == rpart) s.att.grants with
  | some g => s.outsideAccess g.2.lpart pa req .peer
  | none => (s.logRefusal 0x500 dev).reply .grantNak

/-- An RDMA operation on a queue pair: a memory QP acts on its partition's frames, a queue-feed QP writes its queue's
ring (02 R32); a QP in error answers with a NAK (02 R42). A remote key validates frames only, so that the register space is
refused; there are no RDMA atomics (02 R31). -/
def State.rdma (s : State) (qp pa : Nat) (req : MemReq) : State :=
  match SMap.find? s.att.qps qp with
  | none => s.reply .accessNak
  | some q =>
    let part := (s.vf q.vf).part
    if q.error then s.reply .accessNak
    else if q.kind = 0 then s.outsideMemory part pa req .remote
    else if q.kind = 1 then
      match req, s.queueEntry part q.queue with
      | .write bs, some e =>
        if e.ringBase ≤ pa ∧ pa + bs.length ≤ e.ringBase + 2 ^ e.log2 * 256 then s.outsideMemory part pa req .remote
        else s.reply .accessNak
      | .write _, none => (s.logEntry part q.queue).reply .accessNak
      | _, _ => s.reply .accessNak
    else s.reply .accessNak

end Sys2Proof.Machine
end

