-- ==== Sys2Proof/Machine/MemoryOps.lean ====
section
/-! DEFINITION. MemoryOps.lean: loads, stores, atomics, reductions and `pexport`, majors 0x50 to 0x54 (16 R314 to R326;
07 R137, R138, R147, R149; 08 R154 to R161, R168 to R170). -/

namespace Sys2Proof.Machine

/-! ### Where a lane's access goes -/

/-- A place that an access reaches: scratchpad of a core, a physical address with its virtual one, a peer device, or
the register space. -/
inductive Spot where
  | spad (core ctx off : Nat)
  | mem (pa va : Nat)
  | peer (dev pa va : Nat)
  | reg (off va : Nat)
  deriving DecidableEq, Repr

/-- A lane's access: its operand address and the pieces it falls into (a `.p` access of 16 B has two, 07 R149). -/
structure Acc where
  lane : Nat
  addr : Nat
  spots : List (Spot × Nat)
  deriving DecidableEq, Repr

/-- A lane's cause with its fault address. -/
structure LaneCause where
  cause : Nat
  detail : Nat
  fault : Nat
  peer : Bool := false
  deriving DecidableEq, Repr

/-- The address that an active lane forms (16 R314). -/
def Env.memAddr (e : Env) (l : Nat) : Nat :=
  if e.o.space = 2 then lowBits 64 (((e.k.readV64 e.o.a l : Nat) : Int) + e.o.off)
  else lowBits 32 ((((e.readA l).toNat : Nat) : Int) + e.o.off)

/-- N of 07 R149: the team's lane count; a collapsed thread keeps its team's (16 R326). -/
def Ctx.windowLanes (k : Ctx) : Nat :=
  match k.collapsed with
  | some (_, half) => if half then 16 else 32
  | none => k.laneCount

/-- The global address of offset o of lane L (07 R149). -/
def Ctx.privAddr (k : Ctx) (l o : Nat) : Nat :=
  (k.privBase + o / 8 * 8 * k.windowLanes + l * 8 + o % 8) % 2 ^ 64

/-- The live team of a rank of the same patch instance, with its core and context (07 R137). -/
def State.peerTeam (s : State) (k : Ctx) (rank : Nat) : Option (Nat × Nat) :=
  let pt := s.patchTeams k
  let mine : Ctx → Bool := fun q =>
    q.live && !q.handler && q.grid == k.grid && q.mapIdx == k.mapIdx / pt * pt + rank
      && (k.task.isSome || q.team / pt == k.team / pt)
  s.cores.findSome? (fun p => (List.find? (fun (q : Nat × Ctx) =>
    mine q.2 && (SMap.find? p.2.rolled q.1).isNone) p.2.ctxs).map (fun q => (p.1, q.1)))

/-- The peer team of a rank that is off-core, or under rollback, so that an access waits (08 R160; notes/assumptions/25.md). (log 25, DEDUCED) -/
def State.peerAway (s : State) (k : Ctx) (rank : Nat) : Option Ctx :=
  let pt := s.patchTeams k
  let mine : Ctx → Bool := fun q =>
    q.live && !q.handler && q.grid == k.grid && q.mapIdx == k.mapIdx / pt * pt + rank
      && (k.task.isSome || q.team / pt == k.team / pt)
  match List.find? (fun (p : Nat × Ctx) => mine p.2) s.parkedCtxs with
  | some p => some p.2
  | none => s.cores.findSome? (fun p => (List.find? (fun (q : Nat × Ctx) =>
      mine q.2 && (SMap.find? p.2.rolled q.1).isSome) p.2.ctxs).map Prod.snd)

def State.peerParked (s : State) (k : Ctx) (rank : Nat) : Bool := (s.peerAway k rank).isSome

/-- The cause of a lane that its alignment and the bounds of its space give (07 R138), before any translation. -/
def Env.boundCause (e : Env) (s : State) (l : Nat) : Option LaneCause :=
  let a := e.memAddr l
  let n := e.o.bytes
  let bad : Nat → Option LaneCause := fun d => some { cause := 0x0E, detail := d, fault := a }
  if a % n ≠ 0 then some { cause := 0x06, detail := 0, fault := a }
  else
    match e.o.space with
    | 0 => if e.k.spadLen < a + n then bad 0x1 else none
    | 1 =>
      let rank := bitsOf a 23 20
      if 2 ^ 24 ≤ a then bad 0x5
      else if e.k.handler ∨ s.patchTeams e.k ≤ rank then bad 0x2
      else match s.peerTeam e.k rank with
        | none => if s.peerParked e.k rank then none else bad 0x4
        | some (c, x) => if (s.ctx c x).spadLen < a % 2 ^ 20 + n then bad 0x3 else none
    | 2 => none
    | _ => if e.k.windowLanes ≤ l ∨ e.k.privSz.toNat < a + n then bad 0x6 else none

/-- The virtual pieces of a `.g` or `.p` access (07 R149). -/
def Env.pieces (e : Env) (l : Nat) : List (Nat × Nat) :=
  let a := e.memAddr l
  if e.o.space = 2 then [(a, e.o.bytes)]
  else if e.o.bytes = 16 then [(e.k.privAddr l a, 8), (e.k.privAddr l (a + 8), 8)]
  else [(e.k.privAddr l a, e.o.bytes)]

/-- Is a virtual address in one of the grid's atomic sets (06 R124)? -/
def State.inSets (s : State) (k : Ctx) (va : Nat) : Bool :=
  match SMap.find? s.grids k.grid with
  | some g => (granuleOf g.asets va).isSome
  | none => false

/-- What an access is: a load, a store, or an atomic or reduction. -/
inductive AccKind where
  | load | store | atomic
  deriving DecidableEq, Repr

def AccKind.writes (a : AccKind) : Bool := a != .load

/-- Irrevocable accesses of a task to a piece (06 R127). -/
def State.irrevocable (s : State) (k : Ctx) (kind : AccKind) (p : Spot) : Option Nat :=
  if k.task.isNone || kind == .load then none
  else match p with
    | .peer _ _ _ => some 0x7
    | .reg _ _ => if kind == .store then some 0x8 else none
    | .mem _ va => if kind == .atomic && !s.inSets k va then some 0x1 else none
    | .spad _ _ _ => none

/-- The place of a translated piece. -/
def spotOf (p : Place2) (va : Nat) : Spot :=
  match p.peer with
  | some d => .peer d p.pa va
  | none => if Config.regSpace ≤ p.pa then .reg (p.pa - Config.regSpace) va else .mem p.pa va

/-- What a place does not allow, in the order of R204: an access that the register space does not take, then an
irrevocable one. -/
def Env.spotCause (e : Env) (kind : AccKind) (s : State) (p : Spot) (va n : Nat) : Option LaneCause :=
  let odd : Bool := match p with
    | .reg _ _ => kind == .atomic || !(n == 4 || n == 8) || !(e.o.bytes == 4 || e.o.bytes == 8)
    | _ => false
  if odd = true then some { cause := 0x06, detail := 0, fault := va }
  else (s.irrevocable e.k kind p).map (fun d => { cause := 0x0B, detail := d, fault := va })

/-- A piece translated (03 R65, 07 R147). A cause of its place stands before one of its translation (10 R204): the place
of a page that may not be written is known, and an atomic outside the atomic sets is irrevocable wherever it goes. -/
def Env.translatePiece (e : Env) (kind : AccKind) (s : State) (va n : Nat) : State × Except LaneCause Spot :=
  match s.translate e.core e.k.asid va kind.writes with
  | (s, .ok p) =>
    match e.spotCause kind s (spotOf p va) va n with
    | some c => (s, .error c)
    | none => (s, .ok (spotOf p va))
  | (s, .error f) =>
    let own : LaneCause := { cause := f.cause, detail := f.detail, fault := f.addr va }
    if f.cause = 0x08 then
      match s.translate e.core e.k.asid va false with
      | (s, .ok p) => (s, .error ((e.spotCause kind s (spotOf p va) va n).getD own))
      | (s, .error _) => (s, .error own)
    else if kind == .atomic && e.k.task.isSome && !s.inSets e.k va then
      (s, .error { cause := 0x0B, detail := 0x1, fault := va })
    else (s, .error own)

/-- A lane's access located, or its first cause. -/
def Env.locate (e : Env) (kind : AccKind) (s : State) (l : Nat) : State × Except LaneCause Acc :=
  let a := e.memAddr l
  match e.boundCause s l with
  | some c => (s, .error c)
  | none =>
    match e.o.space with
    | 0 => (s, .ok { lane := l, addr := a, spots := [(.spad e.core e.ctx a, e.o.bytes)] })
    | 1 =>
      if e.k.task.isSome && kind.writes then (s, .error { cause := 0x0B, detail := 0x6, fault := a })
      else match s.peerTeam e.k (bitsOf a 23 20) with
        | some (c, x) => (s, .ok { lane := l, addr := a, spots := [(.spad c x (a % 2 ^ 20), e.o.bytes)] })
        | none => (s, .ok { lane := l, addr := a, spots := [] })
    | _ =>
      (e.pieces l).foldl (fun r p => match r with
        | (s, .error c) => (s, .error c)
        | (s, .ok acc) => match e.translatePiece kind s p.1 p.2 with
          | (s, .error c) => (s, .error c)
          | (s, .ok q) => (s, .ok { acc with spots := acc.spots ++ [(q, p.2)] }))
        (s, .ok { lane := l, addr := a, spots := [] })

/-- The order of execution causes within a slot (10 R204); the poison of a page table, which R204 does not list, stands
beside the causes of a translation. (log 100, DESIGN CHOICE) -/
def causeOrder : List Nat := [0x06, 0x0E, 0x0B, 0x07, 0x08, 0x15, 0x16, 0x12, 0x0A, 0x0D, 0x10, 0x11, 0x01]

/-- The trap of the lanes' causes: the first cause in order, with its lanes and the lowest one's address. (log 15, DEDUCED) -/
def Env.laneTrap (e : Env) (write : Bool) (cs : List (Nat × LaneCause)) : Option Trap :=
  match causeOrder.findSome? (fun c => cs.find? (fun p => p.2.cause == c)) with
  | none => none
  | some (_, c) =>
    some (e.trapAt
      { cause := c.cause, detail := c.detail, fault := dword c.fault, write := write, peer := c.peer
        lanes := e.laneWord ((cs.filter (fun p => p.2.cause == c.cause)).map Prod.fst) })

/-- Every lane located. (log 83, DEDUCED) -/
def Env.locateAll (e : Env) (kind : AccKind) (s : State) : State × Except Trap (List Acc) :=
  let r := e.lanes.foldl (fun (r : State × List (Nat × LaneCause) × List Acc) l =>
    match e.locate kind r.1 l with
    | (s, .error c) => (s, r.2.1 ++ [(l, c)], r.2.2)
    | (s, .ok a) => (s, r.2.1, r.2.2 ++ [a])) (s, [], [])
  match e.laneTrap kind.writes r.2.1 with
  | some t => (r.1, .error t)
  | none => (r.1, .ok r.2.2)

/-! ### What a context reads -/

/-- A byte as a core's L1 answers it, or its home slice (08 R161). -/
def State.cachedByte (s : State) (core part a : Nat) : Byte :=
  let w := a / 4
  match SMap.find? (s.core core).l1 (w / 32) with
  | none => s.mem.read a
  | some ln =>
    if ln.part == part && ln.valid.getLsbD (w % 32) then
      (SMap.get 0 ln.words (w % 32)).extractLsb' (8 * (a % 4)) 8
    else s.mem.read a

/-- A byte of global memory as a context reads it: its own buffered stores, its write set, its L1, the home slice (06
R121, R124; 08 R155). -/
def State.viewByte (s : State) (core x a va : Nat) : Byte :=
  let k := s.ctx core x
  let pick : StoreDst → Option Nat := fun d => match d with
    | .mem pa => some pa
    | _ => none
  match tackByte k.tack pick a with
  | some b => b
  | none =>
    match k.task with
    | none => s.cachedByte core k.part a
    | some t =>
      match s.specOf t (a / 4) with
      | some v => v.extractLsb' (8 * (a % 4)) 8
      | none => if s.inSets k va then s.mem.read a else s.cachedByte core k.part a

/-- A byte of a scratchpad as a context reads it: its own `.d` stores that have not performed first. -/
def State.viewSpad (s : State) (core x : Nat) (c y off : Nat) : Byte :=
  let peer := s.ctx c y
  let pick : StoreDst → Option Nat := fun d => match d with
    | .spad grid team o => if grid = peer.grid ∧ team = peer.team then some o else none
    | _ => none
  match tackByte (s.ownStores (s.ctx core x)) pick off with
  | some b => b
  | none => (s.core c).spad.read (peer.spadBase + off)

/-- The place of a byte among the bytes a stop group has overwritten (08 R154). -/
def oldKey (p : Spot) (i : Nat) : Option Nat :=
  match p with
  | .mem pa _ => some (2 * (pa + i))
  | .spad c x off => some (2 * ((c * 32 + x) * 2 ^ 20 + off + i) + 1)
  | .reg off _ => some (2 * (Config.regSpace + off + i))
  | .peer dev pa _ => some (2 * (2 ^ 52 * (dev + 1) + pa + i))

/-- The bytes of a piece that a plain load of a flow reads: those its own stop group has overwritten as they stood. -/
def State.readPiece (s : State) (core x f tag : Nat) (p : Spot) (n : Nat) (kept : Option (SMap Byte) := none) : List Byte :=
  let old := kept.getD (match ((s.ctx core x).flow f).group with
    | some g => g.old
    | none => [])
  let now : Nat → Byte := fun i => match p with
    | .mem pa va => s.viewByte core x (pa + i) (va + i)
    | .spad c y off => s.viewSpad core x c y (off + i)
    | .peer d pa _ => s.viewPeer core x d (pa + i) ((s.freeBytes tag n).getD i 0)
    | .reg off _ => (leBytes n (s.regRead (s.ctx core x).part off n).2).getD i 0
  (List.range n).map (fun i => match (oldKey p i).bind (SMap.find? old) with
    | some b => b
    | none => now i)

/-- Bytes kept of a piece that is overwritten, where none are yet. -/
def keepOld (p : Spot) (n : Nat) (bytes : List Byte) (old : SMap Byte) : SMap Byte :=
  (List.range n).foldl (fun m i => match oldKey p i with
    | some key => if (SMap.find? m key).isSome then m else SMap.insert m key (bytes.getD i 0)
    | none => m) old

/-- Before a store or atomic of a stop group: the bytes it overwrites are kept for the group's loads, those of its parked
passes among them (03 R66; 08 R154). -/
def State.noteOld (s : State) (core x f : Nat) (p : Spot) (n : Nat) : State :=
  let bytes := s.readPiece core x f 0 p n
  let mine := match ((s.ctx core x).flow f).group with
    | some g => g.parked
    | none => []
  let s := s.updCtx core x (fun k => k.updFlow f (fun fl =>
    { fl with group := fl.group.map (fun g => { g with old := keepOld p n bytes g.old }) }))
  if mine = [] then s
  else s.updCore core (fun co => { co with parked := co.parked.map (fun q =>
    if q.ctx = x ∧ mine.contains q.tag then { q with old := keepOld p n bytes q.old } else q) })

/-! ### Locks of a task's access -/

/-- The granules of an access whose locks the task does not hold. (log 95, DEDUCED) -/
def Env.missingLocks (e : Env) (s : State) (as : List Acc) : List Nat :=
  match e.k.task with
  | none => []
  | some t =>
    let gs := (as.map (fun a => (a.spots.map (fun p => match p.1 with
      | .mem pa va => s.granules e.k va pa p.2
      | _ => [])).flatten)).flatten
    (gs.eraseDups).filter (fun g => !s.holdsLock t g)

/-- The slice that has no room for the words a pass of a task would register (06 R123). -/
def Env.noRoom (e : Env) (s : State) (as : List Acc) : Option (Nat × Nat) :=
  e.k.task.bind (fun t => (s.fullSlice t ((as.map (fun a => (a.spots.map (fun p => match p.1 with
    | .mem pa _ => wordsOf pa p.2
    | _ => [])).flatten)).flatten)).map (fun n => (t, n)))

/-- The flow waits, as if parked, at a capacity event, and tries again (06 R130). -/
def Env.awaitRoom (e : Env) (q : Nat × Nat) (s : State) : State :=
  e.setFlow (fun fl => { fl with wait := .room, closed := true }) (s.sliceCapacity q.1 q.2)

/-- The flow waits with its interval closed. -/
def Env.heldClosed (e : Env) (s : State) : State := e.setFlow (fun fl => { fl with wait := .busy, closed := true }) s

/-- Do stores of the context that were sent and are not done stand before an access of the same places: those of a task that
wait for room in a slice (06 R130), and those to the peer teams and devices that the access reaches (08 R155)? -/
def Env.storesAhead (e : Env) (s : State) (as : List Acc) : Bool :=
  let k := s.ctx e.core e.ctx
  s.awaitsRoom k.task || s.sent.any (fun q => k.sent.contains q.tag && as.any (fun a => a.spots.any (fun p => match p.1, q.dst with
    | .spad c x _, .spad grid team _ => (s.ctx c x).grid == grid && (s.ctx c x).team == team
    | .peer d _ _, .peer dev _ => d == dev
    | _, _ => false)))

/-- The flow asks for the first of them; with it granted the access issues again. -/
def Env.requestLocks (e : Env) (g : Nat) (s : State) : State :=
  match e.k.task with
  | some t => s.requestLock t e.core e.ctx (if e.parked.isSome then engineFlow else e.flow) g
  | none => s

/-! ### Refused and poisoned data -/

/-- Pieces whose home slice refuses the access (02 R23), and pieces with media poison (07 R148). -/
def Env.refusedSpots (e : Env) (s : State) (as : List Acc) : List (Nat × Nat × Nat) :=
  (as.map (fun a => a.spots.filterMap (fun p => match p.1 with
    | .mem pa va =>
      let r := s.physCheck e.k.part pa false
      if r == .refused || r == .notReady then some (a.lane, pa, va) else none
    | .reg off va => if s.regAccepts e.k.part off then none else some (a.lane, Config.regSpace + off, va)
    | _ => none))).flatten

/-- The event of a refused access. -/
def State.logAccess (s : State) (part pa : Nat) : State := s.logPhys part pa (s.physCheck part pa false)

/-- Does a core's L1 hold a word, and own it (08 R161)? -/
def State.l1Word (s : State) (core part w : Nat) : Bool × Bool :=
  match SMap.find? (s.core core).l1 (w / 32) with
  | some ln => (ln.part == part && ln.valid.getLsbD (w % 32), ln.part == part && ln.owned.getLsbD (w % 32))
  | none => (false, false)

/-- Is a byte of a local access read at its home slice: not from the context's own stores, its task's write set or its core's
L1 (06 R121, R124; 08 R155, R161)? -/
def Env.readsHome (e : Env) (s : State) (kind : AccKind) (a va : Nat) : Bool :=
  let l1 := s.l1Word e.core e.k.part (a / 4)
  let own : StoreDst → Option Nat := fun d => match d with
    | .mem pa => some pa
    | _ => none
  match e.k.task with
  | some t => (kind != .load || (tackByte (s.ctx e.core e.ctx).tack own a).isNone) && (s.specOf t (a / 4)).isNone
      && (kind != .load || s.inSets e.k va || !l1.1)
  | none => if kind == .load then (tackByte (s.ctx e.core e.ctx).tack own a).isNone && !l1.1 else !(e.o.scope ≤ 2 && l1.2)

/-- Pieces that consume the media poison of their lines (07 R148). -/
def Env.poisonSpots (e : Env) (s : State) (kind : AccKind) (as : List Acc) : List (Nat × Nat) :=
  (as.map (fun a => a.spots.filterMap (fun p => match p.1 with
    | .mem pa va =>
      if s.physCheck e.k.part pa false == .media && (List.range p.2).any (fun i => e.readsHome s kind (pa + i) (va + i)) then
        some (a.lane, pa)
      else none
    | _ => none))).flatten

/-- The permission fault of refused data, with its events logged. -/
def Env.refusedTrap (e : Env) (write : Bool) (rs : List (Nat × Nat × Nat)) (s : State) : Planned :=
  let s := rs.foldl (fun s r => s.logAccess e.k.part r.2.1) s
  (s, .trap (e.trapAt
    { cause := 0x08, detail := 0x1, fault := dword ((rs.headD (0, 0, 0)).2.2), write := write
      lanes := e.laneWord ((rs.map Prod.fst).eraseDups) }))

/-- The trap that poisoned data makes when it returns (07 R148). -/
def Env.poisonTrap (e : Env) (ps : List (Nat × Nat)) : Option Trap :=
  match ps with
  | [] => none
  | (_, pa) :: _ =>
    some (e.trapAt { cause := 0x15, detail := 0x1, fault := dword (pa / 128 * 128)
                     lanes := e.laneWord ((ps.map Prod.fst).eraseDups), addr := some e.addr })

/-! ### Loads (16 R317) -/

/-- The register words of loaded bytes. -/
def dataWrites (d lane regs : Nat) (bs : List Byte) : List Write :=
  (List.range regs).map (fun i => ⟨.v (d + i) lane, loWord (fieldAt bs (4 * i) 4)⟩)

/-- The bytes that an access reads. -/
def Env.accBytes (e : Env) (s : State) (a : Acc) : List Byte :=
  a.spots.flatMap (fun p => s.readPiece e.core e.ctx e.flow (a.lane + 1) p.1 p.2 (e.parked.map Prod.snd))

/-- The lines that loads meet (08 R161): one whose non-owned words the L1 has evicted by now loses them, and the words that
are not valid are filled from the home slice, unless it answers with poison (07 R148); the load is then answered from the L1.
Loads of atomic sets by a task go to the home slice (06 R124). -/
def Env.fillLines (e : Env) (as : List Acc) (s : State) : State :=
  let lines := ((as.map (fun a => a.spots.filterMap (fun p => match p.1 with
    | .mem pa va => if e.k.task.isSome && s.inSets e.k va then none else some (pa / 128)
    | _ => none))).flatten).eraseDups
  let meet : SMap L1Line → Nat → SMap L1Line := fun l n =>
    let l := if Config.l1Keeps (s.tick * 2 ^ 64 + n) then l else evictLine l n
    if s.poison.contains n then l else fillLine s.mem e.k.part l n
  s.updCore e.core (fun c => { c with l1 := lines.foldl meet c.l1 })

/-- The load log takes every lane's value; a log that would overflow closes the interval first (08 R158). (log 43, DEDUCED) -/
def Env.roomInLog (e : Env) (n : Nat) (s : State) : State :=
  if Config.loadLogMax < (s.ctx e.core e.ctx).loadLog.length + n then s.closeInterval e.core e.ctx e.flow else s

/-- An access to a peer team that is off-core waits until it returns (notes/assumptions/25.md). -/
def waitsPeer (as : List Acc) : Bool := as.any (fun a => a.spots == [])

/-- Does a pass reach the register space? -/
def isReg (as : List Acc) : Bool := as.any (fun a => a.spots.any (fun p => match p.1 with
  | .reg _ _ => true
  | _ => false))

/-- The peer device that a pass reads, and its trap where the peer refuses (02 R39). -/
def Env.peerOf (e : Env) (as : List Acc) : Option (Nat × Trap) :=
  let hits := (as.map (fun a => a.spots.filterMap (fun p => match p.1 with
    | .peer d _ va => some (a.lane, d, va)
    | _ => none))).flatten
  hits.head?.map (fun h => (h.2.1, e.trapAt
    { cause := 0x16, fault := dword h.2.2, peer := true, addr := some e.addr
      lanes := e.laneWord ((hits.map Prod.fst).eraseDups) }))

/-- The key under which a flow keeps the request of a pass: its slot, or its tag where it is a parked one. -/
def replayKey : Nat := 16

def Env.askKey (e : Env) : Nat := match e.parked with
  | some p => replayKey + p.1
  | none => e.slot

/-- A pass that reads a peer device asks it, and takes effect once the peer has answered: a refusal is a precise trap (02
R39; 10 R202). The number of its request, where it has asked. -/
def Env.askedPeer (e : Env) (s : State) : Option Nat := SMap.find? ((s.ctx e.core e.ctx).flow e.flow).asked e.askKey

/-- Has the peer not answered yet? -/
def Env.awaitsPeer (e : Env) (s : State) (as : List Acc) : Bool :=
  (e.peerOf as).isSome && (match e.askedPeer s with
    | none => true
    | some tag => (s.ctx e.core e.ctx).loads.any (fun l => l.tag == tag))

/-- The request is made; the flow waits. -/
def Env.askPeer (e : Env) (as : List Acc) (s : State) : State :=
  let s := e.busy s
  if (e.askedPeer s).isSome then s
  else s.updCtx e.core e.ctx (fun k =>
    { k.updFlow e.flow (fun fl => { fl with asked := SMap.insert fl.asked e.askKey k.nextTag }) with
        loads := k.loads ++ [⟨k.nextTag, [], none, e.slot, e.peerOf as, e.flow⟩], nextTag := k.nextTag + 1 })

/-- The trap of a pass that reads a peer device which no port reaches (02 R39). -/
def Env.peerCutOff (e : Env) (s : State) (as : List Acc) : Option Trap :=
  match e.peerOf as with
  | some (d, t) => if s.peerReached d then none else some t
  | none => none

def planLd (e : Env) (s : State) : Planned :=
  match e.locateAll .load s with
  | (s, .error t) => (s, .trap t)
  | (s, .ok as) =>
    let refused := e.refusedSpots s as
    if waitsPeer as then (s, .hold e.busy)
    else if refused ≠ [] then e.refusedTrap false refused s
    else match e.peerCutOff s as with
    | some t => (s, .trap t)
    | none => match e.missingLocks s as with
      | g :: _ => (s, .hold (e.requestLocks g))
      | [] =>
        if e.o.space = 0 then
          let ws := as.flatMap (fun a => dataWrites e.o.d a.lane e.o.dataRegs (e.accBytes s a))
          (s, .go (fun s => s.deliver 6 ws))
        else if e.awaitsPeer s as then (s, .hold (e.askPeer as))
        else
          let s := e.roomInLog e.lanes.length s
          if e.storesAhead s as then (s, .hold e.busy)
          else
            let s := e.fillLines as s
            let ws := as.flatMap (fun a => dataWrites e.o.d a.lane e.o.dataRegs (e.accBytes s a))
            (s, .go (fun s => s.deliverLoad e.lanes ws (e.poisonTrap (e.poisonSpots s .load as))))

/-! ### Stores (16 R318) -/

/-- The bytes a lane stores. -/
def Env.storeBytes (e : Env) (l : Nat) : List Byte :=
  ((List.range e.o.dataRegs).map (fun i => leBytes 4 (e.k.readV (e.o.d + i) l).toNat)).flatten.take e.o.bytes

/-- Room in the tack buffer; a full one closes the interval first (08 R158). -/
def Env.roomInTack (e : Env) (n : Nat) (s : State) : State :=
  if Config.tackMax < (s.ctx e.core e.ctx).tack.length + n then s.closeInterval e.core e.ctx e.flow else s

/-- What remains of a buffered store once later bytes of the same context stand at an offset of a team's scratchpad. -/
def TackStore.trim (grid team off n : Nat) (t : TackStore) : List TackStore :=
  match t.dst with
  | .spad g m o =>
    if g = grid ∧ m = team ∧ o < off + n ∧ off < o + t.bytes.length then
      (if o < off then [{ t with bytes := t.bytes.take (off - o) }] else [])
        ++ (if off + n < o + t.bytes.length then [{ t with dst := .spad g m (off + n), bytes := t.bytes.drop (off + n - o) }] else [])
    else [t]
  | _ => [t]

/-- A context's store or atomic on its own scratchpad stands behind its earlier `.d` stores to the same bytes, which wait in its
tack buffer (08 R155). -/
def State.trimTack (s : State) (c x off n : Nat) : State :=
  let k := s.ctx c x
  let trimmed := k.tack.flatMap (TackStore.trim k.grid k.team off n)
  if trimmed = k.tack then s else s.setCtx c x { k with tack := trimmed }

/-- One piece stored: scratchpad of the own context at once, everything else into the tack buffer. -/
def Env.storePiece (e : Env) (s : State) (p : Spot) (bs : List Byte) : State :=
  let s := s.noteOld e.core e.ctx e.flow p bs.length
  let buffer : StoreDst → Nat → State := fun d va =>
    s.updCtx e.core e.ctx (fun k => { k with tack := k.tack ++ [⟨d, bs, dword va, e.flow⟩] })
  match p with
  | .spad c x off =>
    let k := s.ctx c x
    if e.o.space = 0 then (s.trimTack c x off bs.length).spadWrite c (k.spadBase + off) bs else buffer (.spad k.grid k.team off) 0
  | .mem pa va => buffer (.mem pa) va
  | .peer d pa va => buffer (.peer d pa) va
  | .reg off _ => s.regWrite e.k.part off bs.length (leNat bs)

/-- The pieces of an access with the bytes that go to each. -/
def splitBytes : List (Spot × Nat) → List Byte → List (Spot × List Byte)
  | [], _ => []
  | (p, n) :: r, bs => (p, bs.take n) :: splitBytes r (bs.drop n)

/-- The scratchpad words of a pass, for the undo log (10 R212). -/
def undoWords (as : List Acc) (own : Nat × Nat) : List Nat :=
  ((as.map (fun a => (a.spots.map (fun p => match p.1 with
    | .spad c x off => if (c, x) = own then (List.range ((p.2 + 3) / 4)).map (fun i => undoWord (off + 4 * i)) else []
    | _ => [])).flatten)).flatten).eraseDups

/-- Does a store raise a user interrupt: it acts as `rel.sys` for the earlier stores of its context (10 R210)? -/
def Env.raises (e : Env) (s : State) (as : List Acc) : Bool :=
  as.any (fun a => a.spots.any (fun p => match p.1 with
    | .reg off _ => s.regAccepts e.k.part off && p.2 == 4 && (match regPlace off with
      | .raise _ _ o => o == 0
      | _ => false)
    | _ => false))

def planSt (e : Env) (s : State) : Planned :=
  match e.locateAll .store s with
  | (s, .error t) => (s, .trap t)
  | (s, .ok as) =>
    if waitsPeer as then (s, .hold e.busy)
    else match e.missingLocks s as with
      | g :: _ => (s, .hold (e.requestLocks g))
      | [] =>
        let s := if e.o.space = 0 then s
          else if isReg as then e.close s
          else e.roomInTack ((as.map (fun a => a.spots.length)).sum) s
        let words := if e.o.space = 0 then undoWords as (e.core, e.ctx) else []
        if isReg as && e.raises s as && s.unsent (s.ctx e.core e.ctx) 5 then (s, .hold e.heldClosed)
        else match if isReg as && e.raises s as then (s.ctx e.core e.ctx).peerFailed else none with
        | some a =>
          (s.updCtx e.core e.ctx (fun k => { k with peerFailed := none }),
            .trap (e.trapAt { cause := 0x16, fault := a, write := true, peer := true }))
        | none =>
        (s, .record words (isReg as) (fun s =>
          let s := if isReg as then s.updCtx e.core e.ctx (fun k => { k with idem := false }) else s
          as.foldl (fun s a => (splitBytes a.spots (e.storeBytes a.lane)).foldl
            (fun s p => e.storePiece s p.1 p.2) s) s))

/-! ### Atomics and reductions (16 R320 to R324) -/

/-- Where a store to a place goes. -/
def Spot.toStore : Spot → StoreDst
  | .peer d pa _ => .peer d pa
  | .mem pa _ | .reg pa _ => .mem pa
  | .spad _ _ off => .spad 0 0 off

/-- An atomic of another team on a context's scratchpad: it acts on the old value that the undo log keeps as well, so that a
rollback of the context neither repeats nor removes it (16 R323). (log 121, DEDUCED) -/
def State.foreignAtom (s : State) (c x off n : Nat) (f : Nat → Nat) : State :=
  let k := s.ctx c x
  let at_ := k.spadBase + off
  let now := (s.core c).spad.readBytes at_ n
  let kept := (List.range n).map (fun i => match SMap.find? k.undoVals ((off + i) / 4) with
    | some v => v.extractLsb' (8 * ((off + i) % 4)) 8
    | none => now.getD i 0)
  let s := s.spadWrite c at_ (leBytes n (f (leNat now)))
  if k.undoVals = [] then s else s.setCtx c x (k.overUndo off (leBytes n (f (leNat kept))))

/-- One atomic on a piece: the old value, and the state with the new one (08 R168). -/
def Env.atomPiece (e : Env) (s : State) (lane : Nat) (p : Spot) (n : Nat) (f : Nat → Nat) : State × Nat :=
  match p with
  | .spad c x off =>
    let s := s.noteOld e.core e.ctx e.flow p n
    let at_ := (s.ctx c x).spadBase + off
    if (c, x) = (e.core, e.ctx) then
      let old := leNat ((List.range n).map (fun i => s.viewSpad c x c x (off + i)))
      ((s.trimTack c x off n).spadWrite c at_ (leBytes n (f old)), old)
    else
      let old := leNat ((s.core c).spad.readBytes at_ n)
      (s.foreignAtom c x off n f, old)
  | .mem pa _ =>
    let s := s.noteOld e.core e.ctx e.flow p n
    match e.k.task with
    | some t =>
      let old := leNat (s.taskBytes t pa n)
      (s.checkedWrite e.k.part pa (fun s => (s.specWrite t pa (leBytes n (f old))).noteBudget e.core e.ctx e.flow), old)
    | none =>
      let old := leNat (s.mem.readBytes pa n)
      (s.checkedWrite e.k.part pa (fun s =>
        if e.o.scope ≤ 2 ∧ (s.l1Word e.core e.k.part (pa / 4)).2 then s.ownedWrite e.core e.k.part pa (leBytes n (f old))
        else (s.homeWrite pa (leBytes n (f old))).updCore e.core (fun c =>
          { c with l1 := (wordsOf pa n).foldl dropWord c.l1 })), old)
  | .peer d pa va =>
    let old := leNat (s.freeBytes (lane + 1) n)
    (if e.o.major = 0x52 then s.reply (.peerWrite d pa (leBytes n (f old)))
     else if s.peerReached d then
      (s.reply (.peerWrite d pa (leBytes n (f old)))).sendStore e.core e.ctx ⟨p.toStore, leBytes n (f old), dword va, e.flow⟩
     else s.updCtx e.core e.ctx (fun k => k.peerLost (dword va))
      , old)
  | .reg _ _ => (s, 0)

/-- Every lane's atomic in ascending lane order, with the old values. -/
def Env.atomAll (e : Env) (as : List Acc) (s : State) : State × List (Nat × Nat) :=
  let n := e.o.bytes
  as.foldl (fun (r : State × List (Nat × Nat)) a =>
    match a.spots with
    | [] => r
    | p :: _ =>
      let b := e.wideB a.lane e.o.dataRegs
      let cmp := if e.o.dataRegs = 2 then e.k.readV64 e.o.d a.lane else (e.k.readV e.o.d a.lane).toNat
      let q := e.atomPiece r.1 a.lane p.1 n (fun old => atomNew e.o.sub (8 * n) old b cmp)
      (q.1, r.2 ++ [(a.lane, q.2)])) (s, [])

def planAtom (e : Env) (s : State) : Planned :=
  let returns := e.o.major = 0x52
  match e.locateAll .atomic s with
  | (s, .error t) => (s, .trap t)
  | (s, .ok as) =>
    let refused := if returns then e.refusedSpots s as else []
    if waitsPeer as then (s, .hold e.busy)
    else if refused ≠ [] then e.refusedTrap true refused s
    else match if returns then e.peerCutOff s as else none with
    | some t => (s, .trap t)
    | none => match e.missingLocks s as with
      | g :: _ => (s, .hold (e.requestLocks g))
      | [] =>
        let regs : List (Nat × Nat) → List Write := fun olds =>
          if returns then (olds.map (fun p => laneWrites e.o.d p.1 e.o.dataRegs p.2)).flatten else []
        if e.o.space = 0 then
          (s, .record (undoWords as (e.core, e.ctx)) false (fun s =>
            let r := e.atomAll as s
            r.1.deliver 6 (regs r.2)))
        else
          let s := e.close s
          if e.storesAhead s as then (s, .hold e.heldClosed)
          else match e.noRoom s as with
          | some q => (s, .hold (e.awaitRoom q))
          | none =>
            if returns && e.awaitsPeer s as then
              (s, .hold (fun s =>
                let s := e.heldClosed s
                if (e.askedPeer s).isSome then s else (e.askPeer as s).checkpoint e.core e.ctx))
            else
              let clear : State → State := fun s => s.updCtx e.core e.ctx (fun k => { k with idem := false })
              match if returns then e.poisonTrap (e.poisonSpots s .atomic as) else none with
              | some t => (s, .go (fun s => (clear s).deliverLoad e.lanes [] (some t)))
              | none =>
                (s, .go (fun s =>
                  let s := clear s
                  let r := e.atomAll as s
                  if returns then r.1.deliverLoad e.lanes (regs r.2) none else r.1))

/-! ### Private export (16 R325) -/

def planPexport (e : Env) (s : State) : Planned :=
  let bad := e.lanes.filter (fun l => e.k.windowLanes ≤ l ∨ e.k.privSz.toNat ≤ (e.readA l).toNat)
  match bad with
  | l :: _ =>
    (s, .trap (e.trapAt { cause := 0x0E, detail := 0x6, fault := (e.readA l).setWidth 64, lanes := e.laneWord bad }))
  | [] =>
    (s, .go (fun s => s.deliver 6
      ((e.lanes.map (fun l => laneWrites e.o.d l 2 (e.k.privAddr l (e.readA l).toNat))).flatten)))

end Sys2Proof.Machine
end

