-- ==== Sys2Proof/Machine/Sync.lean ====
section
/-! DEFINITION. Sync.lean: barrier objects, team and patch barriers and the ordering group, majors 0x55 to 0x5C (16 R327
to R335; 08 R163 to R165, R174, R175). -/

namespace Sys2Proof.Machine

/-! ### Releases and acquires -/

/-- A failed peer store shows at the next drain, release or arrival that covers it (02 R39). (log 47, DEDUCED) -/
def Env.peerTrap (e : Env) (s : State) (scope : Nat) : Option Trap :=
  match (s.ctx e.core e.ctx).peerFailed with
  | some a => if scope = 5 then some (e.trapAt { cause := 0x16, fault := a, write := true, peer := true }) else none
  | none => none

/-- The failure is reported once. -/
def Env.clearPeer (e : Env) (s : State) : State := s.updCtx e.core e.ctx (fun k => { k with peerFailed := none })

/-- `acq.S`: at scopes beyond the core, every non-owned word of the L1 goes (08 R164). -/
def State.acquire (s : State) (core scope : Nat) : State :=
  if 3 ≤ scope then s.updCore core invalidateL1 else s

/-- The close and the release of an op that waits for it: it waits for the context's parked passes (03 R66) and for those of its
stores, as its scope covers them, that are not done: stores to peer devices until they are acknowledged (08 R163 to R165). -/
def Env.releasing (e : Env) (scope : Nat) (s : State) (next : State → Planned) : Planned :=
  if e.waitsParked s then (s, .hold e.awaitParked)
  else
    let s := e.close s
    if s.unsent (s.ctx e.core e.ctx) scope then (s, .hold e.heldClosed)
    else match e.peerTrap s scope with
      | some t => (e.clearPeer s, .trap t)
      | none => next s

/-- The release stands before the context's later stores while earlier ones that its scope covers are not done (08 R163). A
store to a peer device that fails behind it raises its cause at it (02 R39). (log 123, DEDUCED) -/
def Env.noteRelease (e : Env) (scope : Nat) (s : State) : State :=
  s.updCtx e.core e.ctx (fun k =>
    let old := match k.released with
      | some r => r.tags.filter (fun t => s.sent.any (fun q => q.tag == t))
      | none => []
    let tags := old ++ ((s.covered k scope).map SentStore.tag).filter (fun t => !old.contains t)
    let trap := e.trapAt { cause := 0x16, write := true, peer := true, addr := some e.addr }
    { k with released := if tags = [] then none else some { tags := tags, trap := trap, flow := e.flow } })

/-- `rel.S`: the interval closes, and the flow goes on: its later stores, atomics, arrivals and commands wait, its loads do not
(08 R163). It waits for the context's parked passes (03 R66). -/
def planRel (e : Env) (s : State) : Planned :=
  if e.waitsParked s then (s, .hold e.awaitParked)
  else
    let s := e.close s
    match e.peerTrap s e.o.scope with
    | some t => (e.clearPeer s, .trap t)
    | none => (s, .go (fun s => (e.noteRelease e.o.scope s).updCtx e.core e.ctx (fun k => { k with idem := false })))

/-- The ordering group by selector (16 R333). (log 48, DEDUCED) -/
def planOrder (e : Env) (s : State) : Planned :=
  match e.o.sel with
  | 0 => e.releasing e.o.scope s (fun s => (s, .go (fun s => s.acquire e.core e.o.scope)))
  | 1 => if e.waitsParked s then (s, .hold e.awaitParked) else (s, .go (fun s => s.acquire e.core e.o.scope))
  | 2 => planRel e s
  | 3 => e.releasing 5 s (fun s => (s, .go id))
  | _ => (s, .go id)

/-! ### Barrier objects (16 R329 to R332) -/

/-- The address of an object: s[A] plus the offset. -/
def Env.objAddr (e : Env) : Nat := lowBits 32 ((((e.k.readS e.o.a).toNat : Nat) : Int) + e.o.off)

/-- Where an object lies: the core, the context and the offset in its grant; or its cause (07 R137, R138). -/
def Env.objPlace (e : Env) (s : State) : Except Trap (Option (Nat × Nat × Nat)) :=
  let a := e.objAddr
  let bad : Nat → Nat → Except Trap (Option (Nat × Nat × Nat)) := fun c d =>
    .error (e.trapAt { cause := c, detail := d, fault := dword a })
  if a % 32 ≠ 0 then bad 0x06 0
  else if e.o.space = 0 then
    if e.k.spadLen < a + 32 then bad 0x0E 0x1 else .ok (some (e.core, e.ctx, a))
  else
    let rank := bitsOf a 23 20
    if 2 ^ 24 ≤ a then bad 0x0E 0x5
    else if e.k.handler ∨ s.patchTeams e.k ≤ rank then bad 0x0E 0x2
    else match s.peerTeam e.k rank with
      | none => if s.peerParked e.k rank then .ok none else bad 0x0E 0x4
      | some (c, x) =>
        if (s.ctx c x).spadLen < a % 2 ^ 20 + 32 then bad 0x0E 0x3 else .ok (some (c, x, a % 2 ^ 20))

/-- The offset of an object in its core's scratchpad. -/
def State.objOffset (s : State) (p : Nat × Nat × Nat) : Nat := (s.ctx p.1 p.2.1).spadBase + p.2.2

/-- An effect on the scratchpad at a context's own offset enters its undo log (10 R212). -/
def planBinit (e : Env) (s : State) : Planned :=
  match e.objPlace s with
  | .error t => (s, .trap { t with write := true })
  | .ok none => (s, .hold e.busy)
  | .ok (some p) =>
    let t := (e.k.readS e.o.b).toNat
    let b := (e.k.readS (e.o.b + 1)).toNat
    let words := (List.range 8).map (fun i => undoWord (p.2.2 + 4 * i))
    let obj : Barrier := { phase := 0, texp := t, tcnt := 0, bbase := b, bexp := b, bcnt := 0, tadj := 0 }
    (s, .record words false (fun s =>
      let s := s.noteOld e.core e.ctx e.flow (.spad e.core e.ctx p.2.2) 32
      let s := s.trimTack e.core e.ctx p.2.2 32
      s.spadWrite p.1 (s.objOffset p) (padTo 32 obj.toBytes)))

/-- `barr` and `barrx` (16 R330): close, release, counting step, and the phase counted in. -/
def planBarr (e : Env) (s : State) : Planned :=
  let b := (e.k.readS e.o.b).toNat
  let bexp := if e.o.major = 0x57 then (e.k.readS (e.o.b + 1)).toNat else 0
  if 2 ^ 16 ≤ b then e.trap 0x03 0x01 s
  else match e.objPlace s with
    | .error t => (s, .trap { t with write := true })
    | .ok none => (s, .hold e.busy)
    | .ok (some p) =>
      if e.o.space = 1 ∧ e.k.task.isSome then e.trap 0x0B 0x6 s
      else e.releasing e.o.scope s (fun s =>
        (s, .go (fun s =>
          let s := s.noteOld e.core e.ctx e.flow (.spad p.1 p.2.1 p.2.2) 32
          let s := if (p.1, p.2.1) = (e.core, e.ctx) then s
            else s.updCtx e.core e.ctx (fun k => { k with idem := false })
          let phase := (s.barrierAt p.1 (s.objOffset p)).phase
          let s := s.countStep p.1 (s.objOffset p) b 0 bexp
          let w : List Write := [⟨.s e.o.d, loWord phase⟩]
          if e.o.space = 0 then s.deliver 6 w else s.deliverLoad [] w none)))

/-- `btest` (16 R332). -/
def planBtest (e : Env) (s : State) : Planned :=
  let a := (e.k.readS e.o.a).toNat
  if a % 32 ≠ 0 then (s, .trap (e.trapAt { cause := 0x06, fault := dword a }))
  else if e.k.spadLen < a + 32 then (s, .trap (e.trapAt { cause := 0x0E, detail := 0x1, fault := dword a }))
  else
    let bs := s.readPiece e.core e.ctx e.flow 0 (.spad e.core e.ctx a) 32
    let done := (Barrier.ofBytes bs).phaseDone (e.k.readS e.o.b).toNat
    (s, .go (fun s => s.deliver 6 [⟨.s e.o.d, boolWord done⟩]))

/-- The result of a wait: 0 complete, 1 deadline passed, none while it goes on (16 R331). -/
def waitStatus (b : Barrier) (phase : Nat) (deadline : Option Word) (cycle : Nat) : Option Word :=
  if b.phaseDone phase then some 0
  else match deadline with
    | some dl => if (loWord cycle - dl).toNat < 2 ^ 31 then some 1 else none
    | none => none

/-- The status of a wait on an object that its team, which is off-core or under rollback, does not answer for (08 R160): its
deadline alone can end it. -/
def deadlineStatus (deadline : Option Word) (cycle : Nat) : Option Word :=
  match deadline with
  | some dl => if (loWord cycle - dl).toNat < 2 ^ 31 then some 1 else none
  | none => none

/-- How a wait ends now: a completion waits for the context's parked passes, whose loads are earlier than the accesses that its
acquire comes before (08 R174); a timeout, which has no acquire, does not (16 R331). -/
def State.waitEnds (s : State) (place : Option (Nat × Nat × Nat)) (parked : Bool) (phase : Nat) (dl : Option Word) : Option Word :=
  match place with
  | none => deadlineStatus dl s.cycle
  | some p =>
    match waitStatus (s.barrierAt p.1 (s.objOffset p)) phase dl s.cycle with
    | some v => if v = 0 && parked then none else some v
    | none => none

/-- What follows a wait with a status: the acquire of a completion (08 R174, R175). -/
def State.endWait (s : State) (core scope : Nat) (status : Word) : State :=
  if status = 0 then s.acquire core scope else s

def planBwait (e : Env) (s : State) : Planned :=
  let fl := (s.ctx e.core e.ctx).flow e.flow
  let clear : State → State := e.setFlow (fun fl => { fl with bwaitResult := none })
  match fl.bwaitResult with
  | some v => (s, .go (fun s => (clear s).deliver 1 [⟨.s e.o.d, v⟩]))
  | none =>
    match e.objPlace s with
    | .error t => (s, .trap t)
    | .ok place =>
      let phase := e.k.readS e.o.b
      let dl := if e.o.sub = 1 then some (e.k.readS (e.o.b + 1)) else none
      let s := e.close s
      match s.waitEnds place (e.waitsParked s) phase.toNat dl with
      | some v => (s, .go (fun s => (s.endWait e.core e.o.scope v).deliver 1 [⟨.s e.o.d, v⟩]))
      | none =>
        (s, .hold (e.setFlow (fun fl =>
          { fl with wait := .bwait (e.o.space == 1) (loWord e.objAddr) phase dl e.o.d e.o.scope })))

/-! ### Team and patch barriers (16 R335) -/

/-- Has every lane of a team arrived: is every flow with lanes stopped at the barrier, and no lane in a deferred path or
waiting at its seam for one that runs? -/
def Ctx.barrierArrived (k : Ctx) (patch : Bool) : Bool :=
  k.flows.all (fun p => p.2.masks == [] || (match p.2.wait with
    | .barrier q _ => q == patch
    | _ => false))
  && k.noneAway

/-- Is the flow alone: no other flow and no deferred path has lanes? -/
def Ctx.alone (k : Ctx) (f : Nat) : Bool :=
  k.flows.all (fun p => p.1 == f || p.2.masks == []) && k.seams == [] && k.stackSpilled == 0 && k.aside == []

def planTbar (e : Env) (s : State) : Planned :=
  let patch := e.o.major == 0x5C
  let k := s.ctx e.core e.ctx
  match (k.flow e.flow).bwaitResult with
  | some _ => (s, .go (e.setFlow (fun fl => { fl with bwaitResult := none })))
  | none =>
    e.releasing e.o.scope s (fun s =>
      if !patch && k.alone e.flow then (s, .go (fun s => s.acquire e.core e.o.scope))
      else (s, .hold (e.setFlow (fun fl => { fl with wait := .barrier patch e.o.scope }))))

/-- BWAIT_DONE: a flow in `bwait` whose phase is complete, or whose deadline has passed, goes on; one whose object's team
is gone traps (16 R331). -/
def State.bwaitPlace (s : State) (c x : Nat) (peer : Bool) (addr : Word) : Except Trap (Option (Nat × Nat × Nat)) :=
  let k := s.ctx c x
  let a := addr.toNat
  if !peer then .ok (some (c, x, a))
  else match s.peerTeam k (bitsOf a 23 20) with
    | some (c', x') => .ok (some (c', x', a % 2 ^ 20))
    | none => if s.peerParked k (bitsOf a 23 20) then .ok none else .error { cause := 0x0E, detail := 0x4, fault := dword a }

/-- What ends a flow's `bwait` now: a status, or a trap. -/
def State.bwaitEnd (s : State) (c x f : Nat) : Option (Except Trap Word) :=
  match ((s.ctx c x).flow f).wait with
  | .bwait peer addr phase dl _ _ =>
    match s.bwaitPlace c x peer addr with
    | .error t => some (.error t)
    | .ok place => (s.waitEnds place ((s.core c).parked.any (fun q => q.ctx == x)) phase.toNat dl).map .ok
  | _ => none

/-- The memory and synchronisation family by major; from 0x55 on its instructions are uniform and issue once per flow,
in the first pass that is not skipped (16 R330). (log 74, DEDUCED) -/
def planMemory (e : Env) (s : State) : Planned :=
  if e.simt && !e.first && 0x55 ≤ e.o.major then (s, .go id)
  else match e.o.major with
  | 0x50 => planLd e s
  | 0x51 => planSt e s
  | 0x52 | 0x53 => planAtom e s
  | 0x54 => planPexport e s
  | 0x55 => planBinit e s
  | 0x56 | 0x57 => planBarr e s
  | 0x58 => planBwait e s
  | 0x59 => planBtest e s
  | 0x5A => planOrder e s
  | _ => planTbar e s

end Sys2Proof.Machine
end

