-- ==== Sys2Proof/Machine/Matrix.lean ====
section
/-! DEFINITION. Matrix.lean: the matrix family, majors 0x5D to 0x69: layout words, the matrix queue and what the engine
does when it completes an operation (17 R337 to R353; 12 R247 to R252; 09 R197 to R200). -/

namespace Sys2Proof.Machine

/-! ### Layout words and pieces (17 R337, R338) -/

/-- The layout word in three scalar registers. -/
def Ctx.layout (k : Ctx) (n : Nat) : LayoutWord :=
  let b := (k.readS (n + 1)).toNat
  let c := (k.readS (n + 2)).toNat
  { base := (k.readS n).toNat, s1 := bitsOf b 31 16, s0 := bitsOf b 15 0, orient := bitsOf c 20 20 == 1
    swz := bitsOf c 19 16, s2 := bitsOf c 15 0 }

/-- The `.s` offset of a piece: (p, i) in plane form, (r, q) in element form. -/
def LayoutWord.piece (l : LayoutWord) (off : Int) (plane : Bool) (p i : Nat) : Nat :=
  let start := lowBits 32 ((l.base : Int) + off)
  let a := if plane then start + p * l.s1 + i * l.s0 else start + p * l.s2 + 8 * i
  let g := if plane then (i / 16 + p) % 16 else p % 16
  Nat.xor (a % 2 ^ 32) (8 * Nat.land l.swz g)

/-- Planes of a format, and pieces of a row in element form (12 R249; 17 R338). -/
def planeCount (ty : Nat) : Nat := match ty with | 9 | 10 => 17 | 11 => 8 | 12 => 4 | _ => 2
def rowPieces (ty : Nat) : Nat := match ty with | 8 => 32 | 9 | 10 => 16 | 11 => 8 | 12 => 4 | _ => 2

/-- A scratchpad operand: its layout, offset, form and format. -/
structure Operand where
  l : LayoutWord
  off : Int
  plane : Bool
  ty : Nat
  deriving DecidableEq, Repr

/-- Every piece of an operand, in the order of its indices. -/
def Operand.pieces (o : Operand) : List Nat :=
  if o.plane then
    ((List.range (planeCount o.ty)).map (fun p => (List.range 64).map (fun i => o.l.piece o.off true p i))).flatten
  else ((List.range 64).map (fun r => (List.range (rowPieces o.ty)).map (fun q => o.l.piece o.off false r q))).flatten

/-- The issue checks of an operand (17 R339). -/
def Operand.cause (o : Operand) (grant : Nat) : Option (Nat × Nat × Nat) :=
  let odd := o.l.base % 8 ≠ 0 ∨ o.off % 8 ≠ 0
    ∨ (if o.plane then o.l.s0 % 8 ≠ 0 ∨ o.l.s1 % 8 ≠ 0 else o.l.s2 % 8 ≠ 0)
  if odd then some (0x06, 0, o.l.piece o.off o.plane 0 0)
  else (o.pieces.find? (fun a => grant < a + 8)).map (fun a => (0x0E, 0x1, a))

/-! ### Reading and writing operands -/

/-- The bytes of a context's scratchpad grant. -/
def State.grantArray (s : State) (c x : Nat) : Array Byte :=
  let k := s.ctx c x
  (s.core c).spad.cells.foldl (fun a p =>
    if k.spadBase ≤ p.1 ∧ p.1 < k.spadBase + k.spadLen then a.setIfInBounds (p.1 - k.spadBase) p.2 else a)
    (Array.replicate k.spadLen 0)

/-- Eight bytes of the grant as a number. -/
def pieceWord (g : Array Byte) (a : Nat) : Nat := leNat ((List.range 8).map (fun i => g.getD (a + i) 0))

/-- The bit of an encoding that a plane holds; none for the hidden-bit plane (12 R249). -/
def planeBit (ty p : Nat) : Option Nat :=
  match ty with
  | 10 => if p = 9 then none else some (if p < 9 then 15 - p else 16 - p)
  | 9 => if p = 6 then none else some (if p < 6 then 15 - p else 16 - p)
  | _ => some (planeCount ty - 1 - p)

/-- Element (i, j) of a plane-form operand, from its words. -/
def planeElement (ty : Nat) (words : Array Nat) (i j : Nat) : Nat :=
  ((List.range (planeCount ty)).map (fun p => match planeBit ty p with
    | some b => if (words.getD (p * 64 + i) 0).testBit j then 2 ^ b else 0
    | none => 0)).sum

/-- Bits of an element of a format. -/
def elemBits (ty : Nat) : Nat := match ty with | 8 => 32 | 9 | 10 => 16 | 11 => 8 | 12 => 4 | _ => 2

/-- Element (r, c) of an element-form operand, from its pieces (12 R248). -/
def rowElement (ty : Nat) (words : Array Nat) (r c : Nat) : Nat :=
  let w := elemBits ty
  let bit := c * w
  words.getD (r * rowPieces ty + bit / 64) 0 / 2 ^ (bit % 64) % 2 ^ w

/-- The elements of an operand by their matrix indices: element (x, y) at 64 x + y. -/
def Operand.table (o : Operand) (g : Array Byte) : Array Nat :=
  let words := (o.pieces.map (pieceWord g)).toArray
  ((List.range 4096).map (fun n =>
    let ij := if o.l.orient then (n % 64, n / 64) else (n / 64, n % 64)
    if o.plane then planeElement o.ty words ij.1 ij.2 else rowElement o.ty words ij.1 ij.2)).toArray

/-- An element of a table. -/
def at64 {α : Type} (t : Array α) (d : α) (x y : Nat) : α := t.getD (64 * x + y) d

/-- The hidden bit of a float encoding (12 R249). -/
def hiddenBit (ty v : Nat) : Bool := if ty = 10 then v / 128 % 256 != 0 else v / 1024 % 32 != 0

/-- The words of an operand that holds given elements, in the order of its pieces. -/
def Operand.words (o : Operand) (f : Nat → Nat → Nat) : List Nat :=
  let el : Nat → Nat → Nat := fun i j => if o.l.orient then f j i else f i j
  if o.plane then
    ((List.range (planeCount o.ty)).map (fun p => (List.range 64).map (fun i =>
      ((List.range 64).map (fun j =>
        let v := el i j
        let b := match planeBit o.ty p with
          | some n => v.testBit n
          | none => hiddenBit o.ty v
        if b then 2 ^ j else 0)).sum))).flatten
  else
    let w := elemBits o.ty
    let per := 64 / w
    ((List.range 64).map (fun r => (List.range (rowPieces o.ty)).map (fun q =>
      ((List.range per).map (fun n => el r (q * per + n) % 2 ^ w * 2 ^ (n * w))).sum))).flatten

/-- An operand written, the later piece standing where two coincide (17 R338). -/
def State.putOperand (s : State) (c x : Nat) (o : Operand) (f : Nat → Nat → Nat) : State :=
  let base := (s.ctx c x).spadBase
  (List.zip o.pieces (o.words f)).foldl (fun s p => s.spadWrite c (base + p.1) (leBytes 8 p.2)) s

/-! ### Tiles -/

def tileKey (t m n : Nat) : Nat := t * 4096 + m * 64 + n

def Ctx.tile (k : Ctx) (t m n : Nat) : Nat := (SMap.get 0 k.tiles (tileKey t m n)).toNat

/-- The entries of a tile in a map of tiles. -/
def tilePart (m : SMap Word) (t : Nat) : SMap Word := m.filter (fun p => p.1 / 4096 == t)

/-- A tile with new elements. -/
def Ctx.setTile (k : Ctx) (t : Nat) (f : Nat → Nat → Nat) : Ctx :=
  let entries : SMap Word := ((List.range 4096).map (fun i => (tileKey t 0 i, loWord (f (i / 64) (i % 64))))).filter
    (fun p => p.2 != 0)
  let low := k.tiles.filter (fun p => p.1 / 4096 < t)
  let high := k.tiles.filter (fun p => t < p.1 / 4096)
  { k with tiles := low ++ entries ++ high }

/-- The shadow of a tile takes the tile's value (09 R200). -/
def Ctx.shadowTile (k : Ctx) (t : Nat) : Ctx :=
  let low := k.shadows.filter (fun p => p.1 / 4096 < t)
  let high := k.shadows.filter (fun p => t < p.1 / 4096)
  { k with shadows := low ++ tilePart k.tiles t ++ high }

/-! ### Arithmetic (12 R250 to R252) -/

/-- One output of a float multiply: two chunks of 32 products. -/
def mmaOut (a b : Nat → FVal) (acc : Nat) : Nat :=
  [0, 1].foldl (fun acc h =>
    let c := exactSum 0 ((List.range 32).map (fun k => mulExact (a (32 * h + k)) (b (32 * h + k))))
    f32.rnd 0 (exactSum 0 [f32.val acc, f32.val (f32.rnd 0 c)])) acc

/-- A scale entry's fields (17 R343). -/
def scaleOf (m : SMap Word) (g e : Nat) : FVal := f16.val ((SMap.get 0 m (g * 64 + e)).toNat % 65536)
def zeroOf (m : SMap Word) (g e : Nat) : Nat := (SMap.get 0 m (g * 64 + e)).toNat / 65536 % 256

/-- One block of a quantised multiply (12 R251, R252). -/
def mmaqBlock (a w : Nat → Nat) (k0 n za zw : Nat) (sa sw : FVal) (acc : Nat) : Nat :=
  let s : Int := ((List.range n).map (fun k =>
    ((a (k0 + k) : Int) - (za : Int)) * ((w (k0 + k) : Int) - (zw : Int)))).sum
  let v := f32.rnd 0 (mulExact (FVal.ofInt s) (mulExact sa sw))
  f32.rnd 0 (exactSum 0 [f32.val acc, f32.val v])

/-! ### Completion (17 R340, R345 to R350) -/

/-- The operands of an operation with their place in it. -/
def MxOp.operand (o : MxOp) (l : Option LayoutWord) (plane : Bool) (ty : Nat) : Operand :=
  { l := l.getD { base := 0, s0 := 0, s1 := 0, s2 := 0, swz := 0, orient := false }
    off := if o.kind = .mld ∨ o.kind = .mst then o.off else 0, plane := plane, ty := ty }

/-- The scratchpad operands of an operation, checked at issue (17 R339). -/
def MxOp.operands (o : MxOp) : List Operand :=
  match o.kind with
  | .mma | .mmaq => [o.operand o.la true o.ty, o.operand o.lb true o.ty2]
  | .mld | .mst => [o.operand o.la false 8]
  | .mplane => [o.operand o.la false o.ty, o.operand o.ld true o.ty]
  | .munplane => [o.operand o.la true o.ty, o.operand o.ld false o.ty]
  | _ => []

/-- The cause of an operation's operands: a misaligned one comes before one outside the grant (17 R339; 10 R204). -/
def MxOp.cause (o : MxOp) (grant : Nat) : Option (Nat × Nat × Nat) :=
  let cs := o.operands.filterMap (fun p => p.cause grant)
  (cs.find? (fun c => c.1 == 0x06)).or cs.head?

/-- What an operation of the engine writes when it completes. (log 55, DESIGN CHOICE) -/
def State.runMx (s : State) (o : MxOp) : State :=
  let k := s.ctx o.core o.ctx
  let g := s.grantArray o.core o.ctx
  let tile : (Nat → Nat → Nat) → State := fun f =>
    s.updCtx o.core o.ctx (fun k =>
      let k := k.setTile o.d f
      if o.closed then k.shadowTile o.d else k)
  match o.kind with
  | .mzero => tile (fun _ _ => 0)
  | .mld =>
    let a := (o.operand o.la false 8).table g
    tile (at64 a 0)
  | .mst => s.putOperand o.core o.ctx (o.operand o.la false 8) (fun x y => k.tile o.d x y)
  | .mtr => tile (fun m n => k.tile o.a n m)
  | .madd => tile (fun m n =>
      satFloat f32 o.sat (f32.rnd o.rnd (exactSum o.rnd [f32.val (k.tile o.a m n), f32.val (k.tile o.b m n)])))
  | .mscale => tile (fun m n =>
      satFloat f32 o.sat (f32.rnd o.rnd (mulExact (f32.val (k.tile o.a m n)) (f32.val o.scalar.toNat))))
  | .mma =>
    let a := ((o.operand o.la true o.ty).table g).map (floatFmt o.ty).val
    let b := ((o.operand o.lb true o.ty2).table g).map (floatFmt o.ty2).val
    tile (fun m n => mmaOut (at64 a .nan m) (fun q => at64 b .nan q n) (k.tile o.d m n))
  | .mmaq =>
    let a := (o.operand o.la true o.ty).table g
    let b := (o.operand o.lb true o.ty2).table g
    let blocks := if o.sub = 0 then [(0, 32), (1, 32)] else [(0, 64)]
    tile (fun m n => blocks.foldl (fun acc h =>
      mmaqBlock (at64 a 0 m) (fun q => at64 b 0 q n) (32 * h.1) h.2 (zeroOf o.scales h.1 m)
        (zeroOf o.scales (2 + h.1) n % 2 ^ elemBits o.ty2) (scaleOf o.scales h.1 m) (scaleOf o.scales (2 + h.1) n) acc)
      (k.tile o.d m n))
  | .mplane =>
    let a := (o.operand o.la false o.ty).table g
    s.putOperand o.core o.ctx (o.operand o.ld true o.ty) (at64 a 0)
  | .munplane =>
    let a := (o.operand o.la true o.ty).table g
    s.putOperand o.core o.ctx (o.operand o.ld false o.ty) (at64 a 0)

/-! ### Issue (17 R340, R341; 09 R197, R199) -/

/-- Tiles an operation reads or writes. -/
def MxOp.tiles (o : MxOp) : List Nat :=
  match o.kind with
  | .mplane | .munplane => []
  | .mtr | .mscale => [o.d, o.a]
  | .madd => [o.d, o.a, o.b]
  | _ => [o.d]

def MxKind.accumulates (k : MxKind) : Bool := k == .mma || k == .mmaq

/-- Must an operation wait for a busy tile (09 R199)? -/
def tileBusy (q : List MxOp) (o : MxOp) : Bool :=
  let mine := q.filter (fun p => p.ctx == o.ctx)
  o.tiles.any (fun t =>
    let pending := mine.filter (fun p => p.tiles.contains t)
    pending != [] && !(o.kind.accumulates && t == o.d &&
      pending.all (fun p => p.d == t && (p.kind == .mzero || p.kind.accumulates))))

/-- The operation of an instruction, all it reads taken at issue. -/
def Env.mxOp (e : Env) (kind : MxKind) (batch : Nat) : MxOp :=
  let two := kind == .mma || kind == .mmaq
  let conv := kind == .mplane || kind == .munplane
  let mem := kind == .mld || kind == .mst
  { core := e.core, ctx := e.ctx, kind := kind, d := e.o.d, a := e.o.a, b := e.o.b
    ld := if conv then some (e.k.layout e.o.d) else none
    la := if two || conv || mem then some (e.k.layout e.o.a) else none
    lb := if two then some (e.k.layout e.o.b) else none
    off := if mem then e.o.off else 0
    scalar := if kind = .mscale then e.k.readS e.o.b else 0
    sub := e.o.sub, ty := e.o.ty, ty2 := e.o.ty2, rnd := e.o.rnd, sat := e.o.sat
    scales := if kind = .mmaq then e.k.scales else []
    batch := batch }

/-- MXTEAM of a context's grid (04 R79). -/
def State.mxTeam (s : State) (k : Ctx) : Nat :=
  match SMap.find? s.grids k.grid with
  | some g => fieldAt g.pkt.bytes 26 1
  | none => 0

/-- The groups of a context that still have lanes, in any flow. -/
def Ctx.liveGroups (k : Ctx) : Word := k.flows.foldl (fun w p => w ||| groupValid p.2.masks) 0

/-- Has every group of a matrix team that has lanes arrived (17 R341)? -/
def Ctx.arrivalComplete (k : Ctx) (team size : Nat) (arrived : Word) : Bool :=
  ((List.range size).map (fun n => team * size + n)).all (fun g => !k.liveGroups.getLsbD g || arrived.getLsbD g)

/-! ### Physical tiles (09 R198; 19 R388, R389) -/

/-- A tile's elements in row-major order as bytes. -/
def tileBytes (m : SMap Word) (t : Nat) : List Byte :=
  let part := tilePart m t
  ((List.range 4096).map (fun i => leBytes 4 (SMap.get 0 part (tileKey t 0 i)).toNat)).flatten

/-- The elements that 16 KiB of bytes give a tile. -/
def tileOfBytes (t : Nat) (bs : List Byte) : SMap Word :=
  let a := bs.toArray
  let word : Nat → Word := fun i => BitVec.ofNat 32 (leNat ((List.range 4).map (fun b => a.getD (4 * i + b) 0)))
  ((List.range 4096).map (fun i => (tileKey t 0 i, word i))).filter (fun p => p.2 != 0)

/-- A map of tiles with one tile's entries replaced. -/
def putTile (m : SMap Word) (t : Nat) (entries : SMap Word) : SMap Word :=
  m.filter (fun p => p.1 / 4096 < t) ++ entries ++ m.filter (fun p => t < p.1 / 4096)

/-- Where a tile lies in its owner's tile area. -/
def Ctx.tileAt (k : Ctx) (t : Nat) : Nat := (k.spillTo + t * 0x8000) % 2 ^ 64

/-- Pages of a context's area written or read one after another. -/
def State.ctxStorePages (s : State) (c x f va : Nat) (bs : List Byte) : Nat → Except Trap State
  | 0 => .ok s
  | n + 1 =>
    match s.ctxStore c x f va (bs.take 4096) with
    | .error t => .error t
    | .ok s => s.ctxStorePages c x f ((va + 4096) % 2 ^ 64) (bs.drop 4096) n

def State.ctxFetchPages (s : State) (c x va : Nat) : Nat → Except Trap (State × List Byte)
  | 0 => .ok (s, [])
  | n + 1 =>
    match s.ctxFetch c x va 4096 with
    | .error t => .error t
    | .ok (s, bs) => (s.ctxFetchPages c x ((va + 4096) % 2 ^ 64) n).map (fun r => (r.1, bs ++ r.2))

/-- A bound tile goes to its owner's tile area, with its shadow, for a flow of its owner. (log 73, DEDUCED) -/
def State.spillTile (s : State) (c x f t : Nat) : Except Trap State :=
  let k := s.ctx c x
  (s.ctxStorePages c x f (k.tileAt t) (tileBytes k.tiles t ++ tileBytes k.shadows t) 8).map (fun s =>
    let s := s.updCtx c x (fun k =>
      { k.spillOver with
               tiles := putTile k.tiles t [], shadows := putTile k.shadows t []
               spilled := k.spilled ||| (1#8 <<< t), spillClosed := k.spillClosed &&& ~~~(1#8 <<< t) })
    s.updCore c (fun co => { co with tilesUse := co.tilesUse.filter (fun p => p != (x, t)) }))

/-- A spilled tile comes back: its shadow is the one spilled, unless its interval has closed since. -/
def State.fillTile (s : State) (c x t : Nat) : Except Trap State :=
  let k := s.ctx c x
  (s.ctxFetchPages c x (k.tileAt t) 8).map (fun r =>
    r.1.updCtx c x (fun k =>
      let tile := tileOfBytes t (r.2.take 16384)
      let shadow := if k.spillClosed.getLsbD t then tile else tileOfBytes t (r.2.drop 16384)
      { k with tiles := putTile k.tiles t tile, shadows := putTile k.shadows t shadow
               spilled := k.spilled &&& ~~~(1#8 <<< t), spillClosed := k.spillClosed &&& ~~~(1#8 <<< t) }))

/-- What binding the tiles of an operation comes to: done, no tile to give up yet, or a translation that stops a tile's
owner. -/
inductive Binding where
  | bound (s : State)
  | full
  | stops (owner : Nat) (t : Trap)

/-- One tile takes a physical tile for a flow of its owner, another one spilling where none of the eight is free: a tile of
the same context spills for that flow, another context's for its main flow. -/
def State.bindTile (s : State) (c x f t : Nat) (named : List (Nat × Nat)) : Binding :=
  let co := s.core c
  let busy : Nat × Nat → Bool := fun p => co.mxQ.any (fun o => o.ctx == p.1 && o.tiles.contains p.2)
  let use : State → State := fun s =>
    s.updCore c (fun co => { co with tilesUse := co.tilesUse.filter (fun p => p != (x, t)) ++ [(x, t)] })
  if co.tilesUse.contains (x, t) then .bound (use s)
  else
    let fill : State → Binding := fun s =>
      if (s.ctx c x).spilled.getLsbD t then
        match s.fillTile c x t with
        | .ok s => .bound (use s)
        | .error tr => .stops x tr
      else .bound (use s)
    if co.tilesUse.length < 8 then fill s
    else match co.tilesUse.find? (fun p => !busy p && !named.contains p) with
      | none => .full
      | some (y, u) =>
        match s.spillTile c y (if y = x then f else 255) u with
        | .ok s => fill s
        | .error tr => .stops y tr

/-- Every tile of an operation is bound, in the order of its operands. -/
def State.bindTiles (s : State) (c x f : Nat) (named : List (Nat × Nat)) : List Nat → Binding
  | [] => .bound s
  | t :: r =>
    match s.bindTile c x f t named with
    | .bound s => s.bindTiles c x f named r
    | b => b

/-- A context is stopped at its boundary by a spill that does not translate. -/
def State.stopOwner (s : State) (c y : Nat) (t : Trap) : State :=
  if (s.ctx c y).stopped.isSome then s else s.stopContext c y 255 t

/-- An operation enters the core's matrix queue. -/
def State.enqueueMx (s : State) (o : MxOp) : State := s.updCore o.core (fun co => { co with mxQ := co.mxQ ++ [o] })

/-- An arrival that is complete issues its operation where the matrix queue takes it and its tiles are bound, as an
operation that issues at once does (09 R197, R198); answers what still waits. -/
def State.issueArrival (s : State) (c x size : Nat) (a : MxArrival) : State × List MxArrival :=
  let k := s.ctx c x
  let q := (s.core c).mxQ
  if !k.arrivalComplete a.team size a.arrived || decide (Config.matrixMax ≤ q.length) || tileBusy q a.op then (s, [a])
  else match s.bindTiles c x 255 (a.op.tiles.map (fun t => (x, t))) a.op.tiles with
    | .full => (s, [a])
    | .stops y t => (s.stopOwner c y t, [a])
    | .bound s => (s.enqueueMx { a.op with core := c, ctx := x, batch := k.batchNext }, [])

/-- Arrivals that are complete issue their operations, and flows that joined no pending one go on (17 R341). -/
def State.issueArrivals (s : State) (c x : Nat) : State :=
  let size := s.mxTeam (s.ctx c x)
  let r := (s.ctx c x).mxArr.foldl (fun (r : State × List MxArrival) a =>
    let q := r.1.issueArrival c x size a
    (q.1, r.2 ++ q.2)) (s, [])
  let s := r.1
  let rest := r.2
  let joined : Nat → Bool := fun f => rest.any (fun a => a.flows.contains f)
  let wake : Nat × Flow → Nat × Flow := fun p =>
    if p.2.wait = .matrixTeam ∧ !joined p.1 then (p.1, { p.2 with wait := .none }) else p
  s.updCtx c x (fun k =>
    { k with mxArr := rest, flows := k.flows.map wake
             heldWaits := k.heldWaits.filter (fun p => p.2 != .matrixTeam || joined p.1) })

/-- Two operations with the same operands (17 R341). -/
def MxOp.same (a b : MxOp) : Bool :=
  a.ld == b.ld && a.la == b.la && a.lb == b.lb && a.scalar == b.scalar && a.scales == b.scales

/-- One group's arrival at a code address. -/
def Env.arrive (e : Env) (o : MxOp) (size : Nat) (s : State) : Planned :=
  let k := s.ctx e.core e.ctx
  let team := e.group / size
  let joins : MxArrival → Bool := fun a => a.site == e.addr && a.team == team && !a.arrived.getLsbD e.group
  let bit : Word := 1#32 <<< e.group
  let after : State → State := fun s =>
    let s := s.issueArrivals e.core e.ctx
    if e.last then e.setFlow (fun fl =>
      if (s.ctx e.core e.ctx).mxArr.any (fun a => a.flows.contains e.flow) then { fl with wait := .matrixTeam } else fl) s
    else s
  match k.mxArr.find? joins with
  | some a =>
    if a.stale || !a.op.same o then e.trap 0x02 0x20 s
    else
      (s, .go (fun s => after (s.updCtx e.core e.ctx (fun k =>
        { k with mxArr := (k.mxArr.takeWhile (fun a => !joins a)) ++ [{ a with arrived := a.arrived ||| bit, flows := a.flows ++ [e.flow] }]
                   ++ ((k.mxArr.dropWhile (fun a => !joins a)).drop 1) }))))
  | none =>
    (s, .go (fun s => after (s.updCtx e.core e.ctx (fun k =>
      { k with mxArr := k.mxArr ++ [{ site := e.addr, team := team, arrived := bit, op := o, flows := [e.flow] }] }))))

/-- An engine operation: checked, then queued (17 R339 to R342). -/
def planEngineOp (kind : MxKind) (e : Env) (s : State) : Planned :=
  let k := s.ctx e.core e.ctx
  let size := if e.simt then s.mxTeam k else 0
  if e.simt && size == 0 && !e.first then (s, .go id)
  else
    let o := e.mxOp kind k.batchNext
    match o.cause k.spadLen with
    | some (c, d, a) => (s, .trap (e.trapAt { cause := c, detail := d, fault := dword a }))
    | none =>
      let q := (s.core e.core).mxQ
      if Config.matrixMax ≤ q.length || tileBusy q o then (s, .hold e.busy)
      else match s.bindTiles e.core e.ctx e.flow (o.tiles.map (fun t => (e.ctx, t))) o.tiles with
      | .full => (s, .hold e.busy)
      | .stops y t => if y = e.ctx then (s, .trap (e.trapAt t)) else (s, .hold (fun s => e.busy (s.stopOwner e.core y t)))
      | .bound s =>
        let s := if kind == .mst || kind == .mplane || kind == .munplane then s.closeInterval e.core e.ctx e.flow else s
        if size = 0 then (s, .go (fun s => s.enqueueMx o)) else e.arrive o size s

/-! ### Scale loads and batches (17 R344, R351, R352) -/

def planScl (e : Env) (s : State) : Planned :=
  if e.simt && !e.first then (s, .go id)
  else
    let base := e.objAddr
    let w := e.o.bytes
    if base % w ≠ 0 then (s, .trap (e.trapAt { cause := 0x06, fault := dword base }))
    else if e.k.spadLen < base + 16 * w then
      (s, .trap (e.trapAt { cause := 0x0E, detail := 0x1, fault := dword base }))
    else
      let entry : Nat → Word := fun i =>
        let x := leNat (s.readPiece e.core e.ctx e.flow 0 (.spad e.core e.ctx (base + w * i)) w)
        loWord (if w = 2 then x % 2 ^ 16 else x % 2 ^ 24)
      let ws := (List.range 16).map (fun i => (⟨.scale e.o.d (16 * e.o.b + i), entry i⟩ : Write))
      (s, .go (fun s => (s.updCtx e.core e.ctx (fun k =>
        { k with mxArr := k.mxArr.map (fun a => { a with scl := true }) })).deliver 5 ws))

def planMbatch (e : Env) (s : State) : Planned :=
  if e.simt && !e.first then (s, .go id)
  else
    (s, .go (fun s =>
      let n := (s.ctx e.core e.ctx).batchNext
      (s.updCtx e.core e.ctx (fun k => { k with batchNext := (n + 1) % 2 ^ 16 })).deliver 1 [⟨.s e.o.d, loWord n⟩]))

/-- The closed batches of a context with operations that have not completed. -/
def State.openBatches (s : State) (c x : Nat) : List Nat :=
  let next := (s.ctx c x).batchNext
  ((((s.core c).mxQ.filter (fun o => o.ctx == x && o.batch != next)).map MxOp.batch)).eraseDups

def planMwait (e : Env) (s : State) : Planned :=
  if e.simt && !e.first then (s, .go id)
  else
    let pending := s.openBatches e.core e.ctx
    let hold : Planned := (s, .hold (e.setFlow (fun fl => { fl with wait := .batch })))
    if e.o.form = 1 then (if pending.length ≤ e.o.b then (s, .go id) else hold)
    else
      let n := (e.k.readS e.o.a).toNat % 2 ^ 16
      let next := (s.ctx e.core e.ctx).batchNext
      if (n + 2 ^ 16 - next) % 2 ^ 16 < 2 ^ 15 then e.trap 0x02 0x21 s
      else if pending.any (fun m => (n + 2 ^ 16 - m) % 2 ^ 16 < 2 ^ 15) then hold
      else (s, .go id)

/-- The matrix family by major. -/
def planMatrix (e : Env) (s : State) : Planned :=
  match e.o.major with
  | 0x5D => planEngineOp .mma e s
  | 0x5E => planEngineOp .mmaq e s
  | 0x5F => planEngineOp .mzero e s
  | 0x60 => planEngineOp .mld e s
  | 0x61 => planEngineOp .mst e s
  | 0x62 => planEngineOp .mplane e s
  | 0x63 => planEngineOp .munplane e s
  | 0x64 => planEngineOp .mtr e s
  | 0x65 => planEngineOp .madd e s
  | 0x66 => planEngineOp .mscale e s
  | 0x67 => planScl e s
  | 0x68 => planMbatch e s
  | _ => planMwait e s

end Sys2Proof.Machine
end

