-- ==== Sys2Proof/Machine/Engine.lean ====
section
/-! DEFINITION. Engine.lean: the engine commands, majors 0x6A to 0x73: their checks at issue, and the engines at work (18
R354 to R370, R414; 08 R171 to R173). -/

namespace Sys2Proof.Machine

/-! ### Fields of descriptors -/

/-- A 32-bit field as a signed number. -/
def i32At (bs : List Byte) (off : Nat) : Int := (BitVec.ofNat 32 (fieldAt bs off 4)).toInt

/-- A notify field: its reserved bits are clear, and the object's offset (18 R355). -/
def notifyOk (n : Nat) : Bool := n < 2 ^ 17
def notifyOf (n : Nat) : Option Nat := if n / 2 ^ 16 % 2 = 1 then some (n % 2 ^ 16 * 32) else none

/-- A check that fails: cause, DETAIL and fault address; the checks of a command in the order of 18 R414. -/
structure Check where
  bad : Bool
  cause : Nat
  detail : Nat
  addr : Nat := 0
  deriving DecidableEq, Repr

def firstBad (cs : List Check) : Option Check := cs.find? Check.bad

def Env.failCheck (e : Env) (c : Check) (s : State) : Planned :=
  (s, .trap (e.trapAt { cause := c.cause, detail := c.detail, fault := dword c.addr }))

/-- A run of the context's own scratchpad. -/
def ownRange (k : Ctx) (a n : Nat) : Check := { bad := k.spadLen < a + n, cause := 0x0E, detail := 0x1, addr := a }
def malformedIf (b : Bool) : Check := { bad := b, cause := 0x02, detail := 0x40 }
def notMultiple (a n : Nat) : Check := { bad := a % n != 0, cause := 0x06, detail := 0, addr := a }

/-- The checks of a notify field: its bits, and later its object (18 R414, steps 2 and 3). -/
def notifyObject (k : Ctx) (n : Nat) : Check :=
  match notifyOf n with
  | some off => ownRange k off 32
  | none => malformedIf false

/-- The descriptor at a scratchpad offset as the command reads it at issue (18 R354). -/
def Env.descriptor (e : Env) (s : State) (off n : Nat) : List Byte :=
  s.readPiece e.core e.ctx e.flow 0 (.spad e.core e.ctx off) n

/-- The checks of a descriptor's own place (18 R414, step 1). -/
def descPlace (k : Ctx) (off n : Nat) : List Check := [notMultiple off 32, ownRange k off n]

/-! ### Elements of `cpy` (18 R359 to R361) -/

/-- The offset of element number k: its indices are the digits of k in the extents, dimension 0 fastest. -/
def elemOffset (dims : List (Nat × Int)) (k : Nat) : Int :=
  match dims with
  | [] => 0
  | (n, st) :: r => ((k % n : Nat) : Int) * st + elemOffset r (k / n)

def CopyDesc.srcDims (d : CopyDesc) : List (Nat × Int) := d.dims.map (fun p => (p.1, p.2.1))
def CopyDesc.dstDims (d : CopyDesc) : List (Nat × Int) := d.dims.map (fun p => (p.1, p.2.2))

/-- An address in a space: modulo 2^64 in `.g`, else modulo 2^32. -/
def spaceAddr (space : Nat) (a : Int) : Nat := lowBits (if space = 2 then 64 else 32) a

/-- Elements of a plain copy, or planes of a plane copy. -/
def CopyDesc.count (d : CopyDesc) (plane : Bool) : Nat :=
  let dims := if plane then d.dims.drop 2 else d.dims
  dims.foldl (fun n p => n * p.1) (if plane then planeCount d.elem else 1)

/-- Bytes written by one of them. -/
def CopyDesc.unitBytes (d : CopyDesc) (plane : Bool) : Nat := if plane then 512 else 2 ^ d.elem

/-- Bytes of one row of packed elements of a format (12 R248). -/
def rowBytesOf (ty : Nat) : Nat := 8 * elemBits ty

/-- Source and destination address of a plain element. -/
def CopyDesc.place (d : CopyDesc) (k : Nat) : Nat × Nat :=
  (spaceAddr d.sspace (d.src + elemOffset d.srcDims k), spaceAddr d.dspace (d.dst + elemOffset d.dstDims k))

/-- Row x of tile t, and plane p of it. -/
def CopyDesc.tileRow (d : CopyDesc) (t x : Nat) : Nat :=
  spaceAddr d.sspace (d.src + (x : Int) * ((d.dims.getD 1 (0, 0, 0)).2.1) + elemOffset (d.srcDims.drop 2) t)
def CopyDesc.tilePlane (d : CopyDesc) (t p : Nat) : Nat :=
  spaceAddr 0 (d.dst + 512 * (p : Int) + elemOffset (d.dstDims.drop 2) t)

/-- The least and the greatest offset of a copy's elements. -/
def spanOf (dims : List (Nat × Int)) : Int × Int :=
  dims.foldl (fun r p =>
    let x := ((p.1 - 1 : Nat) : Int) * p.2
    (r.1 + min x 0, r.2 + max x 0)) (0, 0)

/-- A run of n bytes in `.s` or `.d` against the current grants (07 R138). -/
def State.localCheck (s : State) (k : Ctx) (space a n : Nat) : Option Check :=
  let bad : Nat → Option Check := fun d => some { bad := true, cause := 0x0E, detail := d, addr := a }
  match space with
  | 0 => if k.spadLen < a + n then bad 0x1 else none
  | 1 =>
    let rank := bitsOf a 23 20
    if 2 ^ 24 ≤ a then bad 0x5
    else if k.handler ∨ s.patchTeams k ≤ rank then bad 0x2
    else
      let grant : Ctx → Option Check := fun q => if q.spadLen < a % 2 ^ 20 + n then bad 0x3 else none
      match s.peerTeam k rank, s.peerAway k rank with
      | some (c, x), _ => grant (s.ctx c x)
      | none, some q => grant q
      | none, none => bad 0x4
  | _ => none

/-- Every element of one side of a copy lies in the grants; elements of `.s` whose span lies in the grant all do. -/
def State.sideCheck (s : State) (k : Ctx) (space n count : Nat) (base : Nat) (dims : List (Nat × Int)) :
    Option Check :=
  let sp := spanOf dims
  if space = 2 then none
  else if space = 0 ∧ 0 ≤ (base : Int) + sp.1 ∧ (base : Int) + sp.2 + n ≤ k.spadLen then none
  else (List.range count).findSome? (fun i => s.localCheck k space (spaceAddr space (base + elemOffset dims i)) n)

/-! ### Issue of `cpy` and `cpyl` -/

/-- A checked command is held until the interval closes; one beyond the 64 of an interval closes it first (09
R201). -/
def Env.holdCommand (e : Env) (queue : Nat) (op : EngOp) (notify : Option Nat) (s : State) : Planned :=
  let s := if Config.engMax ≤ (s.ctx e.core e.ctx).held.length then s.closeInterval e.core e.ctx e.flow else s
  (s, .go (fun s => s.updCtx e.core e.ctx (fun k =>
    { k with held := k.held ++ [{ id := k.nextCmd, queue := queue, op := op, site := e.addr, notify := notify, flow := e.flow }]
             nextCmd := k.nextCmd + 1 })))

/-- The checks of a copy's places after its fields (18 R414, steps 3 to 5); a stride that is no multiple reports its
side's base address (log 31). (log 31, DEDUCED) -/
def State.copyChecks (s : State) (k : Ctx) (d : CopyDesc) (plane : Bool) (notify : Nat) : List Check :=
  let se := if plane then rowBytesOf d.elem else 2 ^ d.elem
  let de := if plane then 8 else 2 ^ d.elem
  let steps : Nat → Nat → (Nat × Int × Int → Int) → List (Nat × Int × Int) → List Check := fun n base f ps =>
    ps.map (fun p => { bad := f p % (n : Int) != 0, cause := 0x06, detail := 0, addr := base })
  let ranges : List (Option Check) :=
    if plane then
      [s.sideCheck k d.sspace se (d.count false) d.src d.srcDims,
       s.sideCheck k 0 (512 * planeCount d.elem) (d.count true / planeCount d.elem) d.dst (d.dstDims.drop 2)]
    else [s.sideCheck k d.sspace se (d.count false) d.src d.srcDims,
          s.sideCheck k d.dspace de (d.count false) d.dst d.dstDims]
  [notifyObject k notify, notMultiple d.src se, notMultiple d.dst de]
    ++ steps se d.src (fun p => p.2.1) d.dims ++ steps de d.dst (fun p => p.2.2) d.dims ++ ranges.filterMap id

/-- The descriptor of `cpy` (18 R359). -/
def copyDesc (bs : List Byte) : CopyDesc :=
  let n := fieldAt bs 19 1
  { src := fieldAt bs 0 8, dst := fieldAt bs 8 8, sspace := fieldAt bs 16 1, dspace := fieldAt bs 17 1
    elem := fieldAt bs 18 1
    dims := (List.range n).map (fun d => (fieldAt bs (32 + 12 * d) 4, i32At bs (36 + 12 * d), i32At bs (40 + 12 * d))) }

/-- Is a field of it outside its range (18 R359, R361, R356)? -/
def copyBad (bs : List Byte) (plane : Bool) : Bool :=
  let d := copyDesc bs
  let n := fieldAt bs 19 1
  let one := d.dims.getD 0 (0, 0, 0)
  let two := d.dims.getD 1 (0, 0, 0)
  2 < d.sspace || 2 < d.dspace || (if plane then d.elem < 9 || 13 < d.elem else 4 < d.elem)
    || n < 1 || 10 < n || d.dims.any (fun p => p.1 == 0)
    || fieldAt bs 24 8 != 0 || fieldAt bs 152 8 != 0 || fieldAt bs (32 + 12 * n) (120 - 12 * n) != 0
    || (d.sspace != 2 && 2 ^ 32 ≤ d.src) || (d.dspace != 2 && 2 ^ 32 ≤ d.dst)
    || (plane && (d.dspace != 0 || n < 2 || one.1 != 64 || two.1 != 64 || one.2.1 != 0 || one.2.2 != 0 || two.2.2 != 0))
    || !notifyOk (fieldAt bs 20 4)
    || 2 ^ 31 ≤ d.count plane * d.unitBytes plane

def planCpy (e : Env) (s : State) : Planned :=
  let off := (e.k.readS e.o.a).toNat
  let plane := e.o.form == 2 && e.o.sub == 1
  match firstBad (descPlace e.k off 160) with
  | some c => e.failCheck c s
  | none =>
    let bs := e.descriptor s off 160
    if copyBad bs plane then e.failCheck (malformedIf true) s
    else
      let d := copyDesc bs
      let notify := fieldAt bs 20 4
      match firstBad (s.copyChecks e.k d plane notify) with
      | some c => e.failCheck c s
      | none => e.holdCommand 0 (.copy d plane) (notifyOf notify) s

/-- `cpyl` (18 R362): a copy of 4 B elements in one dimension. -/
def planCpyl (e : Env) (s : State) : Planned :=
  let w := (e.k.readS (e.o.b + 1)).toNat
  let len := (e.k.readS e.o.b).toNat
  let d : CopyDesc :=
    { src := e.k.readS64 e.o.a, dst := e.k.readS64 e.o.d, sspace := bitsOf w 19 18, dspace := bitsOf w 21 20, elem := 2
      dims := [(len / 4, 4, 4)] }
  let bad := d.sspace == 3 || d.dspace == 3 || bitsOf w 31 22 != 0 || bitsOf w 17 17 != 0 || len % 4 != 0 || 2 ^ 31 ≤ len
    || (d.sspace != 2 && 2 ^ 32 ≤ d.src) || (d.dspace != 2 && 2 ^ 32 ≤ d.dst)
  let notify := w % 2 ^ 17
  if bad then e.failCheck (malformedIf true) s
  else match firstBad (s.copyChecks e.k d false notify) with
    | some c => e.failCheck c s
    | none => e.holdCommand 0 (.copy d false) (notifyOf notify) s

/-! ### Issue of the gathers (18 R363, R364) -/

/-- Bytes that a gather command counts. -/
def gatherBytes (kind : GatherKind) (d : GatherDesc) : Nat :=
  match kind with
  | .gat | .sct => d.idx.length * d.rowBytes
  | .plane => 512 * planeCount d.etype
  | .gpl => 512 * planeCount d.etype + 256 * d.nblk

/-- A gather descriptor without its index list. -/
def gatherDesc (bs : List Byte) (idx : List Nat) : GatherDesc :=
  { table := fieldAt bs 0 8, tstride := fieldAt bs 8 8, idx := idx, rowBytes := fieldAt bs 24 4
    local_ := fieldAt bs 28 4, lstride := fieldAt bs 32 4, etype := fieldAt bs 36 1, nblk := fieldAt bs 37 1
    scales := fieldAt bs 40 8, sstride := fieldAt bs 48 8, slocal := fieldAt bs 56 4 }

def gatherBad (bs : List Byte) (kind : GatherKind) : Bool :=
  let d := gatherDesc bs []
  let n := fieldAt bs 20 4
  let rows := kind == .gat || kind == .sct
  n < 1 || (if rows then 65535 < n else 64 < n)
    || (if rows then d.rowBytes < 4 || 65536 < d.rowBytes else d.rowBytes != 0 || d.lstride != 0)
    || (if rows then d.etype != 0 else d.etype < 9 || 13 < d.etype)
    || (if kind = .gpl then 2 < d.nblk else d.nblk != 0)
    || fieldAt bs 38 2 != 0 || !notifyOk (fieldAt bs 60 4)
    || (rows && 2 ^ 31 ≤ n * d.rowBytes)

def planGather (kind : GatherKind) (e : Env) (s : State) : Planned :=
  let off := (e.k.readS e.o.a).toNat
  match firstBad (descPlace e.k off 64) with
  | some c => e.failCheck c s
  | none =>
    let bs := e.descriptor s off 64
    let list := fieldAt bs 16 4
    let n := fieldAt bs 20 4
    let notify := fieldAt bs 60 4
    let d := gatherDesc bs []
    let rows := kind == .gat || kind == .sct
    if gatherBad bs kind then e.failCheck (malformedIf true) s
    else
      let align := [notMultiple list 4, notMultiple d.slocal 4, notMultiple d.table 4, notMultiple d.tstride 4,
          notMultiple d.scales 4, notMultiple d.sstride 4]
        ++ (if rows then [notMultiple d.local_ 4, notMultiple d.lstride 4, notMultiple d.rowBytes 4]
            else [notMultiple d.local_ 8])
      let ranges := [ownRange e.k list (4 * n)]
        ++ (if rows then (List.range n).map (fun i => ownRange e.k (lowBits 32 ((d.local_ + i * d.lstride : Nat) : Int)) d.rowBytes)
            else [ownRange e.k d.local_ (512 * planeCount d.etype)]
              ++ (if d.nblk = 0 then [] else [ownRange e.k d.slocal (256 * d.nblk)]))
      match firstBad ([notifyObject e.k notify] ++ align ++ ranges) with
      | some c => e.failCheck c s
      | none =>
        let ids := e.descriptor s list (4 * n)
        let d := gatherDesc bs ((List.range n).map (fun i => fieldAt ids (4 * i) 4))
        e.holdCommand 1 (.gather kind d) (notifyOf notify) s

/-! ### Issue of `coll`, `qfence`, `qstat`, `send` and `launch` -/

def collDesc (bs : List Byte) (off : Nat) : CollDesc :=
  { src := fieldAt bs 0 8, dst := fieldAt bs 8 8, count := fieldAt bs 16 4, tag := fieldAt bs 20 4
    ndev := fieldAt bs 24 2, rank := fieldAt bs 26 2, red := fieldAt bs 28 1, root := fieldAt bs 30 2
    list := fieldAt bs 32 8, status := off + 44 }

/-- Bytes of an element of a TYPE (13 R258). -/
def typeBytes (ty : Nat) : Nat := if ty = 9 ∨ ty = 10 then 2 else 4

/-- Elements of a member's result (18 R366). SUB: 0 allred, 1 redscat, 2 allgath, 3 alltoall, 4 bcst (13 R261). -/
def collOut (sub : Nat) (d : CollDesc) : Nat :=
  match sub with
  | 1 => d.count / d.ndev
  | 2 => d.count * d.ndev
  | _ => d.count

def collBad (bs : List Byte) (sub ty : Nat) : Bool :=
  let d := collDesc bs 0
  d.ndev < 1 || 16384 < d.ndev || d.ndev ≤ d.rank || fieldAt bs 29 1 != 0 || fieldAt bs 48 16 != 0
    || (if sub ≤ 1 then 2 < d.red else d.red != 0) || (if sub = 4 then d.ndev ≤ d.root else d.root != 0)
    || ((sub == 1 || sub == 3) && d.count % d.ndev != 0) || !notifyOk (fieldAt bs 40 4)
    || 2 ^ 31 ≤ collOut sub d * typeBytes ty

/-- An irrevocable command in a task (06 R127). (log 56, DEDUCED) -/
def Env.unlessTask (e : Env) (detail : Nat) (s : State) (next : Planned) : Planned :=
  if e.k.task.isSome then e.trap 0x0B detail s else next

/-- The effect of a command that clears `.idem` (11 R232; 06 R136). -/
def Planned.clearsIdem (e : Env) (p : Planned) : Planned :=
  match p.2 with
  | .go f => (p.1, .go (fun s => f (s.updCtx e.core e.ctx (fun k => { k with idem := false }))))
  | _ => p

/-- (log 57, DEDUCED) -/
def planColl (e : Env) (s : State) : Planned :=
  let off := (e.k.readS e.o.a).toNat
  match firstBad (descPlace e.k off 64) with
  | some c => e.failCheck c s
  | none =>
    let bs := e.descriptor s off 64
    let d := collDesc bs off
    let notify := fieldAt bs 40 4
    let w := typeBytes e.o.ty
    if collBad bs e.o.sub e.o.ty then e.failCheck (malformedIf true) s
    else match firstBad [notifyObject e.k notify, notMultiple d.src w, notMultiple d.dst w, notMultiple d.list 4] with
      | some c => e.failCheck c s
      | none =>
        e.unlessTask 0x5 s
          (if e.waitsParked s then (s, .hold e.awaitParked)
           else Planned.clearsIdem e
            (e.holdCommand 2 (.coll e.o.sub e.o.ty d) (notifyOf notify) (s.closeInterval e.core e.ctx e.flow)))

def planQfence (e : Env) (s : State) : Planned :=
  let mask : BitVec 4 := if e.o.form = 1 then BitVec.ofNat 4 e.o.b else (e.k.readS e.o.a).setWidth 4
  if mask = 0 then (s, .go id) else e.holdCommand 0 (.fence mask) none s

/-- Entries of a queue issued and not performed, those held included (18 R368). -/
def Ctx.queueLoad (k : Ctx) (q : Nat) : Nat :=
  (SMap.get [] k.eq q).length + (k.held.filter (fun c => c.queues.contains q)).length

def planQstat (e : Env) (s : State) : Planned :=
  let q := (e.k.readS e.o.a).toNat % 4
  let k := s.ctx e.core e.ctx
  let v := min (k.queueLoad q) 0xFFFF + (if (SMap.find? k.eqStopped q).isSome then 2 ^ 16 else 0)
  (s, .go (fun s => s.deliver 1 [⟨.s e.o.d, loWord v⟩]))

/-- The operands that `send` and `launch` share: the completion word and the notify field (18 R369, R370). -/
def Env.completion (e : Env) : Nat × Nat := ((e.k.readS e.o.b).toNat, (e.k.readS (e.o.b + 1)).toNat)

def planSend (e : Env) (s : State) : Planned :=
  let off := (e.k.readS e.o.a).toNat
  let (compl, notify) := e.completion
  match firstBad (descPlace e.k off 32) with
  | some c => e.failCheck c s
  | none =>
    let len := fieldAt (e.descriptor s off 4) 2 2
    match firstBad [malformedIf (!notifyOk notify), notifyObject e.k notify, notMultiple compl 8,
        ownRange e.k off (32 + len), ownRange e.k compl 8] with
    | some c => e.failCheck c s
    | none =>
      e.unlessTask 0x4 s (e.releasing 4 s (fun s =>
        Planned.clearsIdem e (e.holdCommand 3 (.send off compl) (notifyOf notify) s)))

def planLaunch (e : Env) (s : State) : Planned :=
  let (compl, notify) := e.completion
  match firstBad [malformedIf (!notifyOk notify), notifyObject e.k notify, notMultiple compl 8, ownRange e.k compl 8] with
  | some c => e.failCheck c s
  | none =>
    e.unlessTask 0x3 s (e.releasing 4 s (fun s =>
      Planned.clearsIdem e
        (e.holdCommand 3 (.launch (e.k.readS e.o.d).toNat (e.k.readS64 e.o.a) compl) (notifyOf notify) s)))

/-- The engine commands by major; a uniform command enters once for an execution by a flow (18 R354). -/
def planEngine (e : Env) (s : State) : Planned :=
  if e.simt && !e.first then (s, .go id)
  else match e.o.major with
  | 0x6A => planCpy e s
  | 0x6B => planCpyl e s
  | 0x6C => planGather (if e.o.form = 2 ∧ e.o.sub = 1 then .plane else .gat) e s
  | 0x6D => planGather .sct e s
  | 0x6E => planGather .gpl e s
  | 0x6F => planColl e s
  | 0x70 => planQfence e s
  | 0x71 => planQstat e s
  | 0x72 => planSend e s
  | _ => planLaunch e s

/-! ### The engines at work -/

/-- Why an engine stops before an element: it waits, or it faults. -/
inductive EngStop where
  | wait
  | fault (f : EngFault)
  deriving DecidableEq, Repr

abbrev EngRes (α : Type) := State × Except EngStop α

/-- A task's engine asks for the granules an access touches; it goes on while it holds them all (18 R358). -/
def State.engineLocks (s : State) (c x : Nat) (gs : List Nat) : State × Bool :=
  match (s.ctx c x).task with
  | none => (s, true)
  | some t => gs.foldl (fun (r : State × Bool) g =>
      if !r.2 || s.aborting (some t) then (r.1, false)
      else if r.1.holdsLock t g then r
      else
        let s := r.1.requestLock t c x engineFlow g
        (s, s.holdsLock t g)) (s, true)

/-- The translation of a command's access: a page that the command has translated stands (03 R65). -/
def State.enginePage (s : State) (c x id a : Nat) (write : Bool) : State × Except TransFault Place2 :=
  let k := s.ctx c x
  match k.engPages.find? (fun p => p.cmd == id && p.page == a / 4096 && (p.write || !write)) with
  | some p => (s, .ok ⟨p.pa + a % 4096, p.peer⟩)
  | none =>
    match s.translate c k.asid a write with
    | (s, .error f) => (s, .error f)
    | (s, .ok p) =>
      let page : EngPage := ⟨id, a / 4096, write, p.pa - a % 4096, p.peer⟩
      (s.updCtx c x (fun k => { k with engPages := page :: k.engPages }), .ok p)

/-- Where an element of a command lies: none in the grant of a team that has exited (18 R356). -/
def State.enginePlace (s : State) (c x id space a n : Nat) (write : Bool) : EngRes (Option Spot) :=
  let k := s.ctx c x
  match space with
  | 0 => (s, .ok (some (.spad c x a)))
  | 1 => match s.peerTeam k (bitsOf a 23 20) with
    | some (c', x') => (s, .ok (some (.spad c' x' (a % 2 ^ 20))))
    | none => if s.peerParked k (bitsOf a 23 20) then (s, .error .wait) else (s, .ok none)
  | _ =>
    match s.enginePage c x id a write with
    | (s, .error f) => (s, .error (.fault { cause := f.cause, detail := f.detail, fault := f.addr a, write := write }))
    | (s, .ok p) =>
      match p.peer with
      | some d =>
        if !s.peerReached d then (s, .error (.fault { cause := 0x16, detail := 0, fault := a, write := write }))
        else (s, .ok (some (.peer d p.pa a)))
      | none =>
        if Config.regSpace ≤ p.pa then (s, .error (.fault { cause := 0x06, detail := 0, fault := a, write := write }))
        else
          let r := s.engineLocks c x (s.granules k a p.pa n)
          (r.1, if r.2 then .ok (some (.mem p.pa a)) else .error .wait)

/-- A byte of a command's source: where the command has overwritten it, as it was or as it is (18 R360). -/
def EngCmd.oldByte (cmd : EngCmd) (old : Bool) (p : Spot) (i : Nat) (now : Byte) : Byte :=
  if old then ((oldKey p i).bind (SMap.find? cmd.old)).getD now else now

/-- The bytes of an element of a command's source. -/
def State.engineLoad (s : State) (c x : Nat) (cmd : EngCmd) (old : Bool) (space a n : Nat) : EngRes (List Byte) :=
  match s.enginePlace c x cmd.id space a n false with
  | (s, .error e) => (s, .error e)
  | (s, .ok none) => (s, .ok (s.freeBytes (a % 2 ^ 40) n))
  | (s, .ok (some p)) =>
    let k := s.ctx c x
    let give : List Byte → EngRes (List Byte) := fun bs =>
      (s, .ok ((List.zip (List.range n) bs).map (fun q => cmd.oldByte old p q.1 q.2)))
    match p with
    | .spad c' x' off => give ((s.core c').spad.readBytes ((s.ctx c' x').spadBase + off) n)
    | .mem pa va =>
      match s.physCheck k.part pa false with
      | .media => (s, .error (.fault { cause := 0x15, detail := 0x1, fault := pa / 128 * 128 }))
      | .ok => give (match k.task with
          | some t => s.taskBytes t pa n
          | none => s.mem.readBytes pa n)
      | a => (s.logPhys k.part pa a, .error (.fault { cause := 0x08, detail := 0x1, fault := va }))
    | _ => give (s.freeBytes (a % 2 ^ 40) n)

/-- The bytes of a place as they stand, kept with the command before it writes them (18 R360). -/
def State.keepOld (s : State) (cmd : EngCmd) (p : Spot) (n : Nat) (now : List Byte) : EngCmd :=
  let _ := s
  { cmd with old := (List.range n).foldl (fun m i => match oldKey p i with
      | some key => if (SMap.find? m key).isSome then m else SMap.insert m key (now.getD i 0)
      | none => m) cmd.old }

/-- Bytes of a command land (18 R355, R358): answers the command and how many of them count. Bytes that the home slice refuses
are dropped and logged (02 R23), those of a task too; a store to a peer stays outstanding until it is acknowledged (02 R39), and
one to a peer that no port reaches is a fault (18 R357). -/
def State.engineStore (s : State) (c x : Nat) (cmd : EngCmd) (space a : Nat) (bs : List Byte) : EngRes (EngCmd × Nat) :=
  let n := bs.length
  match s.enginePlace c x cmd.id space a n true with
  | (s, .error e) => (s, .error e)
  | (s, .ok none) => (s, .ok (cmd, 0))
  | (s, .ok (some p)) =>
    let k := s.ctx c x
    match p with
    | .spad c' x' off =>
      let at_ := (s.ctx c' x').spadBase + off
      let cmd := s.keepOld cmd p n ((s.core c').spad.readBytes at_ n)
      (s.foreignSpad c' x' off bs, .ok (cmd, n))
    | .mem pa _ =>
      match k.task with
      | some t =>
        let cmd := s.keepOld cmd p n (s.taskBytes t pa n)
        match s.fullSlice t (wordsOf pa n) with
        | some q => (s.sliceCapacity t q, .error .wait)
        | none => (s.checkedWrite k.part pa (fun s => (s.specWrite t pa bs).noteBudget c x cmd.flow), .ok (cmd, n))
      | none =>
        let cmd := s.keepOld cmd p n (s.mem.readBytes pa n)
        (s.checkedWrite k.part pa (fun s => s.homeWrite pa bs), .ok (cmd, n))
    | .peer d pa va => ((s.reply (.peerWrite d pa bs)).sendStore c x ⟨.peer d pa, bs, dword va, cmd.flow⟩, .ok (cmd, n))
    | .reg _ _ => (s, .ok (cmd, n))

/-- Several runs of one source, one after another. -/
def State.engineLoads (s : State) (c x : Nat) (cmd : EngCmd) (old : Bool) (space : Nat) :
    List (Nat × Nat) → EngRes (List Byte)
  | [] => (s, .ok [])
  | (a, n) :: r =>
    match s.engineLoad c x cmd old space a n with
    | (s, .error e) => (s, .error e)
    | (s, .ok bs) =>
      match s.engineLoads c x cmd old space r with
      | (s, .ok q) => (s, .ok (bs ++ q))
      | e => e

/-- One plane of 64 rows of packed elements (12 R248, R249): words of 8 B, bit y of word x from element y of row x. -/
def planeBytes (ty p : Nat) (rows : List (List Byte)) : List Byte :=
  let w := elemBits ty
  ((List.range 64).map (fun x =>
    match rows[x]? with
    | none => List.replicate 8 0
    | some bs =>
      let v := leNat bs
      leBytes 8 ((List.range 64).map (fun y =>
        let el := v / 2 ^ (y * w) % 2 ^ w
        let b := match planeBit ty p with
          | some n => el.testBit n
          | none => hiddenBit ty el
        if b then 2 ^ y else 0)).sum)).flatten

/-- Lists of equal length. -/
def chunks (n : Nat) : Nat → List Byte → List (List Byte)
  | 0, _ => []
  | k + 1, bs => bs.take n :: chunks n k (bs.drop n)

/-- A run of bytes in words of 4 B. -/
def wordRuns (space a n : Nat) : List (Nat × Nat) := (List.range (n / 4)).map (fun i => (spaceAddr space ((a + 4 * i : Nat) : Int), 4))

/-- Elements of a command that lands element by element, and the bytes of one. -/
def EngCmd.elements (cmd : EngCmd) : Nat × Nat :=
  match cmd.op with
  | .copy d plane => (d.count plane, d.unitBytes plane)
  | .gather _ d => (d.idx.length * (d.rowBytes / 4), 4)
  | _ => (0, 1)

/-- The source of an element, its runs and the bytes to write, and where it goes. -/
def EngCmd.source (cmd : EngCmd) (i : Nat) : Nat × List (Nat × Nat) :=
  match cmd.op with
  | .copy d true =>
    (d.sspace, (List.range 64).map (fun x => (d.tileRow (i / planeCount d.elem) x, rowBytesOf d.elem)))
  | .copy d false => (d.sspace, [((d.place i).1, 2 ^ d.elem)])
  | .gather kind d =>
    let per := d.rowBytes / 4
    let n := i / per
    let w := 4 * (i % per)
    if kind = .sct then (0, [(spaceAddr 0 ((d.local_ + n * d.lstride + w : Nat) : Int), 4)])
    else (2, [(spaceAddr 2 ((d.table + d.idx.getD n 0 * d.tstride + w : Nat) : Int), 4)])
  | _ => (0, [])

def EngCmd.target (cmd : EngCmd) (i : Nat) (bs : List Byte) : Nat × Nat × List Byte :=
  match cmd.op with
  | .copy d true =>
    let p := i % planeCount d.elem
    (0, d.tilePlane (i / planeCount d.elem) p, planeBytes d.elem p (chunks (rowBytesOf d.elem) 64 bs))
  | .copy d false => (d.dspace, (d.place i).2, bs)
  | .gather kind d =>
    let per := d.rowBytes / 4
    let n := i / per
    let w := 4 * (i % per)
    if kind = .sct then (2, spaceAddr 2 ((d.table + d.idx.getD n 0 * d.tstride + w : Nat) : Int), bs)
    else (0, spaceAddr 0 ((d.local_ + n * d.lstride + w : Nat) : Int), bs)
  | _ => (0, 0, [])

/-- Bytes counted by the page they land in, the page with the latest byte last (18 R355). -/
def addPart (ps : List (Nat × Nat)) (page n : Nat) : List (Nat × Nat) :=
  if n = 0 then ps
  else
    let old := match List.find? (fun (p : Nat × Nat) => p.1 == page) ps with
      | some p => p.2
      | none => 0
    ps.filter (fun p => p.1 != page) ++ [(page, old + n)]

/-- One element moves. -/
def State.moveElement (s : State) (c x : Nat) (cmd : EngCmd) (parts : List (Nat × Nat)) :
    EngRes (EngCmd × List (Nat × Nat)) :=
  let i := cmd.done
  let src := cmd.source i
  match s.engineLoads c x cmd (Config.freeBool (s.tick * 2 ^ 32 + i)) src.1 src.2 with
  | (s, .error e) => (s, .error e)
  | (s, .ok bs) =>
    let t := cmd.target i bs
    match s.engineStore c x cmd t.1 t.2.1 t.2.2 with
    | (s, .error e) => (s, .error e)
    | (s, .ok (cmd, n)) =>
      let page := 4 * (t.2.1 / 4096) + t.1
      let inPage := min n (4096 - t.2.1 % 4096)
      (s, .ok ({ cmd with done := i + 1 }, addPart (addPart parts page inPage) (page + 4) (n - inPage)))

/-- Elements move until the end of the service unit, a wait or a fault. -/
def State.moveUnit (s : State) (c x : Nat) (cmd : EngCmd) (parts : List (Nat × Nat)) (stop : Nat) :
    Nat → State × EngCmd × List (Nat × Nat) × Option EngStop
  | 0 => (s, cmd, parts, none)
  | fuel + 1 =>
    if stop ≤ cmd.done then (s, cmd, parts, none)
    else match s.moveElement c x cmd parts with
      | (s, .error e) => (s, cmd, parts, some e)
      | (s, .ok (cmd, parts)) => s.moveUnit c x cmd parts stop fuel

/-- The end of the 4 KiB service unit that a command's next element lies in (09 R201). -/
def EngCmd.unitEnd (cmd : EngCmd) : Nat :=
  let (n, w) := cmd.elements
  min n ((cmd.done * w / 4096 + 1) * 4096 / w)

/-- The locks that a unit of a task's command touches are asked for first; a unit waits until it holds them. -/
def State.unitLocks (s : State) (c x : Nat) (cmd : EngCmd) : State × Bool :=
  if (s.ctx c x).task.isNone then (s, true)
  else
    ((List.range (cmd.unitEnd - cmd.done)).map (fun i => cmd.done + i)).foldl (fun (r : State × Bool) i =>
      if !r.2 then r
      else
        let src := cmd.source i
        let t := cmd.target i []
        let one : State × Bool → Nat × Nat × Nat × Bool → State × Bool := fun r q =>
          if !r.2 then r
          else match r.1.enginePlace c x cmd.id q.1 q.2.1 q.2.2.1 q.2.2.2 with
            | (s, .error .wait) => (s, false)
            | (s, _) => (s, true)
        let r := src.2.foldl (fun r p => one r (src.1, p.1, p.2, false)) r
        one r (t.1, t.2.1, cmd.elements.2, true)) (s, true)

/-- Counting steps on the command's object. -/
def State.countParts (s : State) (c x : Nat) (cmd : EngCmd) (ns : List Nat) : State :=
  match cmd.notify with
  | none => s
  | some off => ns.foldl (fun s n => s.countStep c ((s.ctx c x).spadBase + off) 0 n 0) s

/-- The head of a queue that is not stopped. -/
def Ctx.engineHead (k : Ctx) (q : Nat) : Option EngCmd :=
  if (SMap.find? k.eqStopped q).isSome then none else (SMap.get [] k.eq q).head?

def Ctx.putHead (k : Ctx) (q : Nat) (cmd : EngCmd) : Ctx :=
  { k with eq := SMap.set [] k.eq q (cmd :: (SMap.get [] k.eq q).drop 1) }

/-- The head leaves its queue: it has performed or is abandoned. -/
def Ctx.popHead (k : Ctx) (q : Nat) : Ctx :=
  let l := SMap.get [] k.eq q
  { k with eq := SMap.set [] k.eq q (l.drop 1)
           engPages := k.engPages.filter (fun p => (l.head?.map EngCmd.id) != some p.cmd) }

/-- Is a fence at the head of every queue it names? -/
def Ctx.fenceReady (k : Ctx) (cmd : EngCmd) : Bool :=
  cmd.queues.all (fun q => match k.engineHead q with
    | some h => h.id == cmd.id
    | none => false)

/-- A queue's head has performed; the end of a team may have waited for it (18 R358). -/
def State.finishHead (s : State) (c x q : Nat) : State := (s.updCtx c x (fun k => k.popHead q)).tryTeamEnd c x

/-- The rows of `gat.plane` and `gpl`, and their scale entries (18 R363, R364). -/
def GatherDesc.rowAt (d : GatherDesc) (n : Nat) : Nat := spaceAddr 2 ((d.table + d.idx.getD n 0 * d.tstride : Nat) : Int)
def GatherDesc.scaleAt (d : GatherDesc) (n b : Nat) : Nat :=
  spaceAddr 2 ((d.scales + d.idx.getD n 0 * d.sstride + 4 * b : Nat) : Int)

/-- A plane gather reads every row, then writes its planes and scale entries, and counts in one step. -/
def State.gatherPlanes (s : State) (c x q : Nat) (cmd : EngCmd) (d : GatherDesc) : State :=
  let n := d.idx.length
  let rb := rowBytesOf d.etype
  let rows := ((List.range n).map (fun i => wordRuns 2 (d.rowAt i) rb)).flatten
  let scales := ((List.range d.nblk).map (fun b => (List.range n).map (fun i => (d.scaleAt i b, 4)))).flatten
  match s.engineLoads c x cmd false 2 (rows ++ scales) with
  | (s, .error _) => s
  | (s, .ok bs) =>
    let k := s.ctx c x
    let rs := chunks rb n (bs.take (rb * n))
    let es := bs.drop (rb * n)
    let planes := ((List.range (planeCount d.etype)).map (fun p => planeBytes d.etype p rs)).flatten
    let s := s.foreignSpad c x d.local_ planes
    let s := (List.range d.nblk).foldl (fun s b =>
      let mine := (es.drop (4 * n * b)).take (4 * n)
      s.foreignSpad c x (d.slocal + 256 * b) (mine ++ List.replicate (256 - 4 * n) 0)) s
    (s.countParts c x cmd [512 * planeCount d.etype + 256 * d.nblk]).finishHead c x q

/-- An engine's next unit lands (18 R355, R358, R360): its parts count, or the bytes before a cut as one part. -/
def State.landUnit (s : State) (c x q : Nat) (cmd : EngCmd) : State :=
  let r := s.unitLocks c x cmd
  if !r.2 then r.1
  else
    match r.1.moveUnit c x cmd [] cmd.unitEnd 4096 with
    | (s, cmd, parts, stop) =>
      let s := s.updCtx c x (fun k => k.putHead q cmd)
      let s := match stop with
        | none => s.countParts c x cmd (parts.map Prod.snd)
        | some _ => if parts = [] then s else s.countParts c x cmd [(parts.map Prod.snd).sum]
      if cmd.elements.1 ≤ cmd.done then s.finishHead c x q else s

/-! ### Faults during execution (18 R357) -/

/-- The fault that the next access of a queue's head meets, with the state after the events of a refused read. -/
def State.faultOf (s : State) (c x q : Nat) : State × Option EngFault :=
  let pick : {α : Type} → EngRes α → State × Option EngFault := fun r => match r.2 with
    | .error (.fault f) => (r.1, some f)
    | _ => (s, none)
  match (s.ctx c x).engineHead q with
  | none => (s, none)
  | some cmd =>
    match cmd.op, cmd.refused with
    | .copy _ _, some a | .gather _ _, some a => (s, some { cause := 0x16, detail := 0, fault := a.toNat })
    | op, _ => match op with
    | .copy _ _ | .gather .gat _ | .gather .sct _ =>
      if cmd.elements.1 ≤ cmd.done then (s, none) else pick (s.moveElement c x cmd [])
    | .gather _ d =>
      let n := d.idx.length
      let rows := ((List.range n).map (fun i => wordRuns 2 (d.rowAt i) (rowBytesOf d.etype))).flatten
      let scales := ((List.range d.nblk).map (fun b => (List.range n).map (fun i => (d.scaleAt i b, 4)))).flatten
      pick (s.engineLoads c x cmd false 2 (rows ++ scales))
    | .coll sub ty d =>
      let e := typeBytes ty
      match s.engineRead c x d.list (4 * d.ndev) (lineCount (4 * d.ndev)) with
      | (s, .error f) => (s, some f)
      | (_, .ok _) =>
        match s.engineRead c x d.src (e * d.count) (lineCount (e * d.count)) with
        | (s, .error f) => (s, some f)
        | (_, .ok _) =>
          ((List.range (collOut sub d)).findSome? (fun i =>
            match pick (s.enginePlace c x cmd.id 2 (spaceAddr 2 ((d.dst + e * i : Nat) : Int)) e true) with
            | (t, some f) => some (t, some f)
            | _ => none)).getD (s, none)
    | .launch _ addr _ =>
      if cmd.msg != [] then (s, none)
      else match s.engineRead c x addr 256 (lineCount 256) with
        | (s, .error f) => (s, some f)
        | (_, .ok _) => (s, none)
    | _ => (s, none)

def State.nextFault (s : State) (c x q : Nat) : Option EngFault := (s.faultOf c x q).2

/-- The record of an engine's fault. -/
def State.engineRecord (s : State) (c x q : Nat) (cmd : EngCmd) (f : EngFault) : TrapRecord :=
  let r := s.record c x 255
    { cause := f.cause, detail := f.detail, slots := 0x2000, lanes := BitVec.ofNat 32 q, fault := dword f.fault
      write := f.write, addr := some cmd.site, pass := some 0xFE, peer := f.cause == 0x16 }
  { r with flags := if f.cause = 0x07 ∧ f.detail = 0 then r.flags ||| 2 else r.flags &&& 0xFD, lwb := 0 }

/-- ENGINE_FAULT: the queue stops in order and writes its record; the context runs on. -/
def State.engineFault (s : State) (c x q : Nat) : State :=
  match s.faultOf c x q, (s.ctx c x).engineHead q with
  | (s, some f), some cmd =>
    let r := s.engineRecord c x q cmd f
    let s := s.queueRecord r
    s.updCtx c x (fun k => { k with eqStopped := SMap.insert k.eqStopped q r })
  | _, _ => s

/-! ### Messages and launches (18 R369, R370; 04 R85 to R88) -/

/-- The completion word of a message command: one 8 B store, counted (18 R369). -/
def State.complete (s : State) (c x : Nat) (cmd : EngCmd) (compl status : Nat) : State :=
  let s := s.foreignSpad c x compl (leBytes 4 status ++ leBytes 4 1)
  (s.countParts c x cmd [8]).finishHead c x cmd.queue

/-- Is a logical core one of a partition (02 R27), and online (01 R18)? -/
def State.coreOf (s : State) (part core : Nat) : Bool :=
  core < Config.cores && (SMap.get 0 s.att.partCores part).testBit core && !s.mgmt.offline.contains core

/-- Why a message is refused (04 R88; 18 R369), as a STATUS; 0 where it is accepted. The target and the header are
judged before the entry that the header names (notes/assumptions/26.md). (log 26, DEDUCED) -/
def State.messageStatus (s : State) (part : Nat) (bs : List Byte) : Nat :=
  let target := fieldAt bs 12 2
  let p := SMap.get {} (s.core target).amPort (fieldAt bs 1 1)
  let len := fieldAt bs 2 2
  if !s.coreOf part target then 5
  else if fieldAt bs 0 1 ≠ 1 ∨ fieldAt bs 14 2 ≠ 0 ∨ 4064 < len then 4
  else if fieldAt bs 4 4 % 4 ≠ 0 then 7
  else if !p.valid then 1
  else if p.part ≠ part then 2
  else if p.zoneSize * 256 < fieldAt bs 8 4 + len then 3
  else 0

/-- Handler contexts of a core that are free of a running or a coming handler (04 R88). -/
def Core.handlersFree (co : Core) : Nat := 4 - (co.ctxs.filter (fun p => p.2.handler)).length - co.messages.length

/-- An accepted message: its payload is written to the zone, and its handler is to start (04 R88). -/
def State.acceptMessage (s : State) (vf : Nat) (bs : List Byte) (sender : Option (Nat × Nat)) : State :=
  let target := fieldAt bs 12 2
  let entry := fieldAt bs 1 1
  let p := SMap.get {} (s.core target).amPort entry
  let dest := fieldAt bs 8 4
  let len := fieldAt bs 2 2
  let m : Message :=
    { entry := entry, handler := BitVec.ofNat 32 (fieldAt bs 4 4), dest := dest, len := len
      arg := (List.range 4).map (fun i => BitVec.ofNat 32 (fieldAt bs (16 + 4 * i) 4)), vf := vf, sender := sender }
  let s := s.spadWrite target (p.zoneBase * 256 + dest) ((bs.drop 32).take len)
  s.updCore target (fun co => { co with messages := co.messages ++ [m] })

/-- The head `send` of a context is refused, accepted, or waits for a handler context (18 R369). -/
def State.sendHead (s : State) (c x : Nat) (cmd : EngCmd) (compl : Nat) : State :=
  let k := s.ctx c x
  let status := s.messageStatus k.part cmd.msg
  if cmd.done ≠ 0 then s
  else if status ≠ 0 then (s.logRefusal 0x600 (fieldAt cmd.msg 12 2)).complete c x cmd compl status
  else if (s.core (fieldAt cmd.msg 12 2)).handlersFree = 0 then s
  else (s.acceptMessage k.vf cmd.msg (some (c, x))).updCtx c x (fun k => k.putHead 3 { cmd with done := 1 })

/-- LAUNCH_APPEND: the head `launch` of a context appends its packet or is refused (18 R370; 04 R85); during a reset of its VF,
whose queues drop and count what comes, nothing is appended (02 R42). A queue of another SOURCE answers 6 and does not count
in DROPPED. (log 132, DESIGN CHOICE) -/
def State.launchAppend (s : State) (c x : Nat) : State :=
  let k := s.ctx c x
  match k.engineHead 3 with
  | none => s
  | some cmd =>
    match cmd.op with
    | .launch i addr compl =>
      let r := if cmd.msg != [] then (s, some cmd.msg)
        else match s.engineRead c x addr 256 (lineCount 256) with
          | (s, .ok bs) => (s, some bs)
          | (s, .error _) => (s, none)
      match r with
      | (s, none) => s
      | (s, some bs) =>
        let b := SMap.get {} s.att.vfs k.vf
        let q := b.qbase + i
        match (if i < b.qcount then s.queueEntry b.part q else none) with
        | none => (s.logRefusal 0x601 q).complete c x cmd compl 6
        | some e =>
          if !e.enabled ∨ e.source ≠ 3 then (s.logRefusal 0x601 q).complete c x cmd compl 6
          else if b.resetBusy then
            ((s.putQueue b.part q { e with dropped := min (e.dropped + 1) 0xFFFFFFFF }).logRefusal 0x601 q).complete c x cmd compl 6
          else if 2 ^ e.log2 < distance (e.tail + 1) e.progress then s
          else
            let slot := e.ringBase + e.tail % 2 ^ e.log2 * 256
            let s := match s.physCheck b.part slot true with
              | .ok => s.homeWrite slot bs
              | a => s.logPhys b.part slot a
            let s := s.putQueue b.part q
              { e with tail := (e.tail + 1) % 2 ^ 32, pending := (s.cached q).isNone || e.pending }
            s.complete c x cmd compl 0
    | _ => s

/-- Does a command wait for stores of its context that were sent before its release and are not done (08 R173)? -/
def State.engineBehind (s : State) (cmd : EngCmd) : Bool := cmd.after.any (fun t => s.sent.any (fun e => e.tag == t))

/-- ENGINE_PART_LANDED: a context's engine queue takes its next step. -/
def State.engineStep (s : State) (c x q : Nat) : State :=
  let k := s.ctx c x
  match k.engineHead q with
  | none => s
  | some cmd =>
    match cmd.op with
    | .fence _ =>
      if k.fenceReady cmd then
        (s.updCtx c x (fun k => cmd.queues.foldl (fun k q => k.popHead q) k)).tryTeamEnd c x
      else s
    | .copy _ _ | .gather .gat _ | .gather .sct _ => s.landUnit c x q cmd
    | .gather _ d => s.gatherPlanes c x q cmd d
    | .send _ compl => s.sendHead c x cmd compl
    | .coll _ _ _ | .launch _ _ _ => s

/-! ### Collectives (18 R365, R366) -/

/-- A member of a collective on this device. -/
structure Member where
  core : Nat
  ctx : Nat
  cmd : EngCmd
  sub : Nat
  ty : Nat
  d : CollDesc
  list : List Byte
  deriving DecidableEq, Repr

/-- Every context whose collective queue has a collective at its head, with its list as the engine reads it. -/
def State.collHeads (s : State) : List Member :=
  (s.cores.map (fun p => p.2.ctxs.filterMap (fun q =>
    match q.2.engineHead 2 with
    | none => none
    | some cmd => match cmd.op with
      | .coll sub ty d =>
        match (s.engineRead p.1 q.1 d.list (4 * d.ndev) (lineCount (4 * d.ndev))).2 with
        | .ok bs => some ⟨p.1, q.1, cmd, sub, ty, d, bs⟩
        | .error _ => none
      | _ => none))).flatten

def Member.entry (m : Member) (r : Nat) : Nat := fieldAt m.list (4 * r) 4

/-- Is a member's own entry at its RANK (18 R365)? -/
def State.rankHolds (s : State) (m : Member) : Bool :=
  m.entry m.d.rank == s.att.wyundId % 2 ^ 14 + (s.ctx m.core m.ctx).part * 2 ^ 14

/-- Is one list the beginning of another, or the same? -/
def sameList (a b : List Byte) : Bool := a.take b.length == b.take a.length

/-- The members on this device of the collective that a context waits for, by TAG and LIST; members that disagree on NDEV have
lists of which one begins the other (18 R365, R366). (log 124, DEDUCED) -/
def State.membersOf (s : State) (c x : Nat) : List Member :=
  let all := s.collHeads
  match all.find? (fun m => m.core == c && m.ctx == x) with
  | none => []
  | some me => all.filter (fun m => m.d.tag == me.d.tag && sameList m.list me.list)

/-- Ranks of a list that name this device. -/
def State.localRanks (s : State) (me : Member) : List Nat :=
  (List.range me.d.ndev).filter (fun r => me.entry r % 2 ^ 14 == s.att.wyundId % 2 ^ 14)

/-- A combination of two elements (18 R366; 12 R241). -/
def combine (red ty a b : Nat) : Nat :=
  if isFloatCode ty then
    let t := floatFmt ty
    match red with
    | 0 => t.rnd 0 (exactSum 0 [t.val a, t.val b])
    | 1 => fminmax t false a b
    | _ => fminmax t true a b
  else
    let t := intType ty
    match red with
    | 0 => (a + b) % 2 ^ 32
    | 1 => if t.read a ≤ t.read b then a else b
    | _ => if t.read a ≤ t.read b then b else a

/-- Element i of a member's output: the elements of the inputs it comes from; none where one of them is missing. -/
def collElement (m : Member) (input : Nat → Nat → Option Nat) (i : Nat) : Option Nat :=
  let d := m.d
  let c := d.count / d.ndev
  let reduce : Nat → Option Nat := fun j =>
    (List.range (d.ndev - 1)).foldl (fun a r => match a, input (r + 1) j with
      | some x, some y => some (combine d.red m.ty x y)
      | _, _ => none) (input 0 j)
  match m.sub with
  | 0 => reduce i
  | 1 => reduce (d.rank * c + i)
  | 2 => input (i / d.count) (i % d.count)
  | 3 => input (i / c) (d.rank * c + i % c)
  | _ => input d.root i

/-- The output of a member lands, its parts count, STATUS follows (18 R366). -/
def State.endMember (s : State) (m : Member) (status : Nat) (out : List (Option Nat)) : State :=
  let e := typeBytes m.ty
  let put : State × List (Nat × Nat) → Nat × Option Nat → State × List (Nat × Nat) := fun r p =>
    match p.2 with
    | none => r
    | some v =>
      let a := spaceAddr 2 ((m.d.dst + e * p.1 : Nat) : Int)
      match r.1.engineStore m.core m.ctx m.cmd 2 a (leBytes e v) with
      | (s, .ok (_, n)) => (s, addPart r.2 (p.1 * e / 4096 * 2 ^ 64 + a / 4096) n)
      | (s, .error _) => (s, r.2)
  let r := (List.zip (List.range out.length) out).foldl put (s, [])
  let s := r.1.countParts m.core m.ctx m.cmd (r.2.map Prod.snd)
  let s := s.foreignSpad m.core m.ctx m.d.status (leBytes 4 status)
  s.finishHead m.core m.ctx 2

/-- COLLECTIVE_END: every member on this device ends, once all of them have issued. A member on another device gives
free inputs, and may disagree. (log 58, DESIGN CHOICE) -/
def State.collectiveEnd (s : State) (c x : Nat) : State :=
  let ms := s.membersOf c x
  match ms with
  | [] => s
  | me :: _ =>
    let ranks := (ms.map s.localRanks).foldl (fun a b => if a.length < b.length then b else a) []
    let issued := decide (ranks.length ≤ ms.length)
    let present := ranks.all (fun r => ms.any (fun m => m.d.rank == r && s.rankHolds m))
    let wrong := ms.any (fun m => m.sub != me.sub || m.ty != me.ty || m.d.count != me.d.count || m.d.ndev != me.d.ndev
        || m.d.red != me.d.red || m.d.root != me.d.root || !s.rankHolds m)
      || (ranks.length < me.d.ndev && Config.freeBool s.tick)
    let faulty := ms.any (fun m => (s.nextFault m.core m.ctx 2).isSome)
    if wrong && issued then ms.foldl (fun s m => s.endMember m 2 []) s
    else if wrong || !present || faulty then s
    else
      let gone : Nat → Bool := fun r =>
        let dev := me.entry r % 2 ^ 14
        dev != s.att.wyundId % 2 ^ 14
          && (ms.any (fun m => m.cmd.done == 1 || m.cmd.lost.contains dev) || !s.peerReached dev)
      let lost := (List.range me.d.ndev).any gone
      let e := typeBytes me.ty
      let inputs : List (Nat × List Byte) := ms.filterMap (fun m =>
        match (s.engineRead m.core m.ctx m.d.src (e * m.d.count) (lineCount (e * m.d.count))).2 with
        | .ok bs => some (m.d.rank, bs)
        | .error _ => none)
      let input : Nat → Nat → Option Nat := fun r i =>
        match List.find? (fun (p : Nat × List Byte) => p.1 == r) inputs with
        | some p => some (fieldAt p.2 (e * i) e)
        | none => if gone r then none
          else some (leNat (s.freeBytes (r * 2 ^ 32 + i) e))
      ms.foldl (fun t m =>
        t.endMember m (if lost then 1 else 0) ((List.range (collOut m.sub m.d)).map (collElement m input))) s

end Sys2Proof.Machine
end

