-- ==== Sys2Proof/Machine/System.lean ====
section
/-! DEFINITION. System.lean: task, grow, service-call, trap, user-interrupt and trace instructions, majors 0x74 to 0x7D (18
R371 to R378; 06 R122, R127 to R131; 07 R140; 09 R183). -/

namespace Sys2Proof.Machine

/-! ### Tasks (18 R371, R372) -/

def planTend (e : Env) (s : State) : Planned :=
  if e.k.task.isNone then e.trap 0x02 0x30 s
  else if e.waitsParked s then (s, .hold e.awaitParked)
  else if e.simt && !e.last then (s, .go id)
  else
    let s := s.closeInterval e.core e.ctx e.flow
    (s, .jump (fun s =>
      let s := if e.simt then s else s.updCtx e.core e.ctx Ctx.landAll
      e.setFlow (fun fl => { fl.goto (if e.simt then e.after else e.addr) none with wait := .ended }) s))

def planTabort (e : Env) (s : State) : Planned :=
  let split := e.o.form == 2 && e.o.sub == 1
  if e.simt && !e.first then (s, .go id)
  else match e.k.task with
    | none => e.trap 0x02 0x31 s
    | some t =>
      if split && s.smallestGrain t then e.trap 0x0C 0x0A s
      else (s, .jump (fun s => s.abortTask e.core e.ctx (if split then 0x0A else 0x09) split))

/-! ### Scratchpad grants (07 R139, R140) -/

/-- Bytes of scratchpad of a core: its banks of 64 KiB. -/
def Core.spadSize (co : Core) : Nat := co.spadBanks * 65536

/-- The runs of scratchpad that are taken: the grants of contexts, one of them left out, the landing zones of valid AM_PORT
entries (04 R86), and what a running matrix operation of a destroyed context holds (17 R342). -/
def Core.spadTaken (co : Core) (but : Option Nat) : List (Nat × Nat) :=
  (co.ctxs.filter (fun p => p.2.live && !p.2.handler && some p.1 != but)).map (fun p => (p.2.spadBase, p.2.spadLen))
    ++ (co.amPort.filter (fun p => p.2.valid)).map (fun p => (p.2.zoneBase * 256, p.2.zoneSize * 256))
    ++ co.mxQ.filterMap MxOp.holds

/-- Is a run free? -/
def Core.runFree (co : Core) (but : Option Nat) (a n : Nat) : Bool :=
  a + n ≤ co.spadSize && (co.spadTaken but).all (fun p => p.2 == 0 || a + n ≤ p.1 || p.1 + p.2 ≤ a)

/-- The lowest free run of n bytes. (log 21, DESIGN CHOICE) -/
def Core.findRun (co : Core) (but : Option Nat) (n : Nat) : Option Nat :=
  let starts := 0 :: (co.spadTaken but).map (fun p => p.1 + p.2)
  (starts.filter (fun a => co.runFree but a n)).foldl (fun b a => match b with
    | none => some a
    | some x => some (min x a)) none

/-- A grant moves or grows; added bytes read zero. -/
def State.moveGrant (s : State) (c x base len : Nat) : State :=
  let k := s.ctx c x
  let old := (s.core c).spad.slice k.spadBase k.spadLen
  let s := s.updCore c (fun co =>
    let m := (co.spad.zero k.spadBase k.spadLen).zero base len
    { co with spad := old.cells.foldl (fun m p => m.write (base + p.1) p.2) m })
  s.setCtx c x { s.ctx c x with spadBase := base, spadLen := len }

/-- Is an engine command in flight to a context's grant: one of its own that has begun, or a peer's with a `.d` side? -/
def State.grantBusy (s : State) (c x : Nat) : Bool :=
  let begun : EngCmd → Bool := fun e => e.done != 0
  let peer : EngCmd → Bool := fun e => match e.op with
    | .copy d _ => begun e && (d.sspace == 1 || d.dspace == 1)
    | _ => false
  (s.ctx c x).eq.any (fun q => q.2.any begun)
    || s.cores.any (fun p => p.2.ctxs.any (fun y => y.2.grid == (s.ctx c x).grid && y.2.eq.any (fun q => q.2.any peer)))

/-! ### `vgrow` and `sgrow` (18 R373) -/

/-- The limits of a context's grants: register blocks and scratchpad bytes. -/
def State.growLimit (s : State) (c : Nat) (k : Ctx) (regs : Bool) : Nat :=
  if k.handler then
    let p := SMap.get {} (s.core c).amPort k.zone
    if regs then p.hregs else p.zoneSize * 256
  else match s.grid? k.grid with
    | some g => if regs then g.pkt.regBudget else g.pkt.spadBudget
    | none => 0

/-- The tasks that hold register blocks or scratchpad on a core (06 R130). -/
def State.coreTasks (s : State) (c : Nat) : List Nat := ((s.core c).ctxs.filterMap (fun p => p.2.task)).eraseDups

def planGrow (e : Env) (s : State) : Planned :=
  if e.simt && !e.first then (s, .go id)
  else
    let k := s.ctx e.core e.ctx
    let regs := e.o.major == 0x76
    let raw := if e.o.form = 1 then e.o.b else (e.k.readS e.o.a).toNat
    let target := if regs then raw else if e.o.form = 1 then raw * 4096 else (raw + 255) / 256 * 256
    let now := if regs then k.blocks else k.spadLen
    let co := s.core e.core
    let wait : Planned := (s, .hold (e.setFlow (fun fl => { fl with wait := .grow })))
    let lack : Planned := match k.task with
      | none => wait
      | some t => (s, .hold (fun s =>
          e.setFlow (fun fl => { fl with wait := .grow }) (s.capacity t (s.coreTasks e.core))))
    if target ≤ now then
      (s, .go (fun s => s.deliver 1 [⟨.s e.o.d, loWord (if regs then k.nregs else k.spadLen)⟩]))
    else if s.growLimit e.core k regs < target ∨ (regs ∧ Config.blocks < target) then
      match k.task with
      | none => e.trap 0x0D (if regs then 1 else 2) s
      | some _ => (s, .go (fun s => s.updCtx e.core e.ctx (fun k =>
          { k with budgetEvent := some (k.budgetEvent.getD (if regs then 0x05 else 0x06, e.flow)) })))
    else if regs then
      if co.blocksFree < target - now then lack
      else (s, .go (fun s =>
        let n := Ctx.regsFor target k.laneCount
        (s.updCtx e.core e.ctx (fun k => { k with blocks := target, nregs := n })).deliver 1 [⟨.s e.o.d, loWord n⟩]))
    else
      let base := if co.runFree (some e.ctx) k.spadBase target then some k.spadBase else co.findRun (some e.ctx) target
      match base with
      | none => lack
      | some b =>
        if b ≠ k.spadBase ∧ s.grantBusy e.core e.ctx then wait
        else (s, .go (fun s => (s.moveGrant e.core e.ctx b target).deliver 1 [⟨.s e.o.d, loWord target⟩]))

/-! ### Service calls, traps and breakpoints (18 R374, R375; 03 R55) -/

def planSvc (e : Env) (s : State) : Planned :=
  if e.simt && !e.first then (s, .go id)
  else if e.k.task.isSome then
    (s, .trap (e.trapAt { cause := 0x0B, detail := 0x2, lanes := e.laneWord e.lanes }))
  else e.releasing 5 s (fun s => (s.updCtx e.core e.ctx (fun k => { k with idem := false }), .trap (e.trapAt
    { cause := 0x11, detail := e.o.imm.toNat % 2 ^ 16 + e.o.a * 2 ^ 16, lanes := e.laneWord e.lanes })))

def planTrap (e : Env) (s : State) : Planned :=
  if e.simt && e.lanes == [] then (s, .go id)
  else
    let v := if e.o.form = 2 then e.o.imm else e.k.readS e.o.a
    (s, .trap (e.trapAt { cause := 0x10, detail := v.toNat, lanes := e.laneWord e.lanes }))

def planBrk (e : Env) (s : State) : Planned :=
  if e.simt && e.lanes == [] then (s, .go id)
  else (s, .trap (e.trapAt { cause := 0x01, detail := 0x1, lanes := e.laneWord e.lanes }))

/-! ### User interrupts and markers (18 R376 to R378; 10 R210) -/

/-- What returns with the handler's flow: the stop group it was inside and its unchecked landing, where UIPC still names
them, and a matrix team it waits for (10 R210). -/
def Ctx.heldPlace (k : Ctx) : Option StopGroup × Option (Word × Nat) × Wait :=
  match k.heldFlow with
  | none => (none, none, .none)
  | some h =>
    let group := match h.group with
      | some g => if h.here = k.uipc then some g else none
      | none => none
    let landing := if h.group.isNone && h.pc == k.uipc then h.landing else none
    let waits := decide (h.wait = .matrixTeam) && k.mxArr.any (fun a => a.flows.contains k.handlerFlow)
    (group, landing, if waits then .matrixTeam else if h.wait = .ended then .ended else .none)

/-- The context as the handler's return leaves it: the handler's flow at UIPC, the other flows with the waits they had,
and the late-write buffer landing with UIPC's bundle as issue cycle 0 (10 R206). -/
def Ctx.leaveHandler (k : Ctx) (f : Nat) : Ctx :=
  let waits : SMap Flow := k.flows.map (fun p =>
    (p.1, if p.1 = f then p.2
      else { p.2 with wait := if p.2.wait = .handler then SMap.get .none k.heldWaits p.1 else p.2.wait }))
  let late := k.lwb.map (fun r => { r with due := k.icyc + 1 + r.due })
  let place := k.heldPlace
  let k := { k with flows := waits, inHandler := false, handlerFlow := 255, heldWaits := [], heldFlow := none, lwb := []
                    flight := late ++ k.flight }
  k.updFlow f (fun fl => { fl.goto k.uipc place.2.1 with group := place.1, wait := place.2.2 })

def planUiret (e : Env) (s : State) : Planned :=
  let k := s.ctx e.core e.ctx
  if !k.inHandler then e.trap 0x02 0x32 s
  else if k.flows.any (fun p => p.1 != e.flow && p.2.masks != [] && p.2.wait != .handler) then e.trap 0x03 0x13 s
  else if e.simt && !e.last then (s, .go id)
  else (s, .jump (fun s =>
    let s := s.updCtx e.core e.ctx (fun k => k.leaveHandler e.flow)
    s.emitEvent e.core e.ctx e.flow 0x3 0 k.uipc (some e.addr)))

def planUimask (e : Env) (s : State) : Planned :=
  if e.simt && !e.first then (s, .go id)
  else
    let v : BitVec 16 := if e.o.form = 1 then (if e.o.b = 0 then 0 else 0xFFFF) else (e.k.readS e.o.a).setWidth 16
    let old := e.k.uimask
    (s, .go (fun s =>
      (s.updCtx e.core e.ctx (fun k => { k.pendSetting s.cycle 0x1E with uimask := v })).deliver 1
        [⟨.s e.o.d, old.setWidth 32⟩]))

def planTrc (e : Env) (s : State) : Planned :=
  if e.simt && !e.first then (s, .go id)
  else
    let v := if e.o.form = 0 then e.k.readS e.o.a else if e.o.form = 1 then BitVec.ofNat 32 e.o.b else e.o.imm
    (s, .go (fun s => e.packet e.flow 0x07 (leBytes 4 v.toNat) s))

/-- The system family by major. -/
def planSystem (e : Env) (s : State) : Planned :=
  match e.o.major with
  | 0x74 => planTend e s
  | 0x75 => planTabort e s
  | 0x76 | 0x77 => planGrow e s
  | 0x78 => planSvc e s
  | 0x79 => planTrap e s
  | 0x7A => planBrk e s
  | 0x7B => planUiret e s
  | 0x7C => planUimask e s
  | _ => planTrc e s

end Sys2Proof.Machine
end

