-- ==== Sys2Proof/Machine/Issue.lean ====
section
/-! DEFINITION. Issue.lean: issuing one instruction-pass of a SIMT flow, or one bundle of a VLIW thread (05 R104, R105; 09
R186, R188, R190 to R196; 10 R202 to R206; 03 R66). -/

namespace Sys2Proof.Machine

/-- The family of an op by its major (13 R257). -/
def planOp (e : Env) (s : State) : Planned :=
  if e.o.major = 0 then (s, .go id)
  else if e.o.major ≤ 0x14 then planScalar e s
  else if e.o.major ≤ 0x26 then planControl e s
  else if e.o.major ≤ 0x4F then planLane e s
  else if e.o.major ≤ 0x5C then planMemory e s
  else if e.o.major ≤ 0x69 then planMatrix e s
  else if e.o.major ≤ 0x73 then planEngine e s
  else planSystem e s

/-- A trap raised at issue; cause 0x0C ends the grid (06 R134). -/
def State.raise (s : State) (t : Trap) : State :=
  if t.cause = 0x0C then s.grainFault s.cur.core s.cur.ctx s.cur.flow t else takeTrap t s

/-! ### What an issue waits for -/

/-- The scoreboard's name of a register for a group. -/
def Reg.name (g : Nat) : Reg → RegName
  | .v r => .v r g
  | .p n => .p n g
  | .s r => .s r
  | .ps => .ps
  | .setting n => .setting n
  | .scale n => .scale n

/-- Registers that an op reads or writes. -/
def opRegs (o : Opd) (simt : Bool) : List Reg := opReads o simt ++ opWrites o simt

/-- Does an `sgets` write a lane register of every group at its one issue (14 R272)? -/
def getsLanes (o : Opd) : Bool := o.major == 0x13 && decide (o.a ≤ 1)

/-- The registers of an instruction-pass as the scoreboard names them; `perm` reads those of every group (15 R305), and an
`sgets` of a per-lane register writes those of every group (14 R272). -/
def Ctx.passNames (k : Ctx) (o : Opd) (g : Nat) : List RegName :=
  (opRegs o true).map (Reg.name g)
    ++ (if o.major = 0x48 then (List.range k.groups).flatMap (fun h => (opReads o true).map (Reg.name h)) else [])
    ++ (if getsLanes o then (List.range k.groups).map (fun h => .v o.d h) else [])

/-- Does an instruction-pass wait for a load that is outstanding or for a parked pass (09 R190; 03 R66)? An instruction that
only reads what a parked pass reads waits too: one sentence of R66 lets it issue, the next keeps the source pending, and
R190 lets no instruction read a pending register. (log 105, DEDUCED) -/
def Ctx.passHeld (k : Ctx) (o : Opd) (g : Nat) : Bool :=
  let names := k.passNames o g
  k.pend.any (fun p => p.till.isNone && names.contains p.reg)

/-- Is a register of an instruction-pass pending in a core cycle (09 R190; 23 R409)? -/
def Ctx.passPending (k : Ctx) (o : Opd) (g cycle : Nat) : Bool :=
  let names := k.passNames o g
  k.pend.any (fun p => (match p.till with
    | none => true
    | some t => cycle < t) && names.contains p.reg)

/-- Does a bundle read or write the destination of an outstanding load (09 R188)? -/
def Ctx.bundleHeld (k : Ctx) (os : List Opd) : Bool :=
  let same : RegName → Reg → Bool := fun p r => match p, r with
    | .v a _, .v b => a == b
    | .p a _, .p b => a == b
    | .s a, .s b => a == b
    | _, _ => false
  k.pend.any (fun p => p.till.isNone && os.any (fun o => (opRegs o false).any (same p.reg)))

/-- A memory access pass of the lanes. -/
def accessPass (major : Nat) : Bool := 0x50 ≤ major && major ≤ 0x53

/-- Has a group a parked pass (03 R66)? -/
def State.groupParked (s : State) (c x g : Nat) : Bool := (s.core c).parked.any (fun p => p.ctx == x && p.group == g)

/-- Waits of a flow that is not ready, whose issue is tried again; every other wait ends by its own event (05 R104). -/
def Wait.tries : Wait → Bool
  | .parked | .collapse | .grow | .expand | .batch | .busy | .room => true
  | _ => false

/-- Does a stop group hold a store, atomic or reduction? -/
def StopGroup.stores (g : StopGroup) : Bool := g.ops.any (fun o => 0x51 ≤ o.op.major.toNat && o.op.major.toNat ≤ 0x53)

/-- Waits that are themselves pre-emption points. -/
def Wait.isPoint : Wait → Bool
  | .seam | .bwait _ _ _ _ _ _ | .lock _ | .room | .claim _ | .collapse | .barrier _ _ | .grow | .batch | .matrixTeam | .ended
    | .handler => true
  | _ => false

/-- Is a context at a pre-emption point (10 R208)? -/
def Ctx.atPoint (k : Ctx) : Bool :=
  if k.vliw then (k.flow 255).wait.isPoint || (k.delay.isNone && (k.loops == [] || k.refill))
  else k.flows.all (fun p => p.2.wait.isPoint || (match p.2.group with
    | some g => !g.stores
    | none => true))

/-- A VLIW pre-emption that has its point waits for the operations of the matrix queue that the context has issued (17 R342). -/
def State.drainsMatrix (s : State) (c x : Nat) : Bool :=
  let k := s.ctx c x
  k.vliw && (k.stopPending || k.cooling) && k.atPoint && (s.core c).mxQ.any (fun o => o.ctx == x)

/-- Waits in which an issue may be tried. -/
def Wait.retries (w : Wait) : Bool := w == .none || w.tries

/-- Instructions that stand behind a release: stores, atomics, reductions, barrier arrivals and engine commands, the stores of
the matrix unit among them (08 R163). -/
def afterRelease (major : Nat) : Bool :=
  (0x51 ≤ major && major ≤ 0x57 && major != 0x54) || major == 0x5B || major == 0x5C || (0x61 ≤ major && major ≤ 0x63)
    || (0x6A ≤ major && major ≤ 0x73 && major != 0x71)

/-- Does an instruction wait for the stores that an earlier release of its context covers? -/
def State.releaseHolds (s : State) (k : Ctx) (o : Opd) : Bool :=
  afterRelease o.major && k.released.any (fun r => r.tags.any (fun t => s.sent.any (fun e => e.tag == t)))

/-- May a flow issue at all: its context is live, on its clusters (05 R96) and not stopped, and the flow waits for nothing
but a retry? -/
def State.mayIssue (s : State) (c x f : Nat) : Bool :=
  let k := s.ctx c x
  k.live && k.stopped.isNone && k.budgetEvent.isNone && (k.flow f).wait.retries
    && (k.stepping.isNone || k.stepping == some f) && !s.mgmt.halted && (s.core c).rolled == [] && !(s.core c).retiring
    && k.bound && !s.trapOwed c x && !s.awaitsRoom k.task && !s.aborting k.task && !s.drainsMatrix c x

/-- An outstanding load whose value is refused. -/
def Ctx.badLoad (k : Ctx) : Option (Load × Trap) := k.loads.findSome? (fun l => l.trap.map (fun t => (l, t)))

/-- The context takes the trap of a refused load (07 R148; 02 R39). (log 49, DEDUCED) -/
def State.loadFault (s : State) (l : Load) (t : Trap) : State :=
  let s := s.updCc (fun k =>
    { (k.clearTag l.tag).updFlow l.flow (fun fl => { fl with asked := fl.asked.filter (fun p => p.2 != l.tag) }) with
        loads := k.loads.filter (fun q => q.tag != l.tag) })
  s.stopContext s.cur.core s.cur.ctx l.flow t

/-! ### SIMT passes -/

/-- The frame of an instruction-pass. -/
def State.passEnv (s : State) (n : Info) (addr : Word) (g : Nat) (mask : Word) (first last : Bool)
    (shadow : List Shadow) : Env :=
  let k := applyShadow s.cc shadow
  let o := opd n
  { core := s.cur.core, ctx := s.cur.ctx, flow := s.cur.flow, slot := (unitSlot (classOf o.major)).getD 0, simt := true
    group := g, first := first, last := last, lanes := passLanes k mask g o, addr := addr, info := n, o := o, k := k }

/-- Values that the passes still to come must read: what the pass overwrites of the registers that all groups share (09
R191; 10 R415). -/
def newShadows (k : Ctx) (old : List Shadow) (o : Opd) : List Shadow :=
  let add : List Shadow → Nat → Nat → Word → List Shadow := fun l kind num v =>
    if l.any (fun e => e.kind == kind && e.num == num) then l else l ++ [⟨kind, num, v⟩]
  (opWrites o true).foldl (fun l r => match r with
    | .s n => add l 1 n (k.readS n)
    | .ps => add l 2 0 (k.ps.setWidth 32)
    | .setting n => add l 3 n (match n with
      | 0x16 => k.cycleHi
      | 0x17 => k.privHi
      | 0x18 => k.privLo
      | 0x19 => k.privSz
      | 0x1A => k.tileHi
      | 0x1B => k.tileLo
      | 0x1C => k.uivec
      | 0x1D => k.uipend.setWidth 32
      | 0x1E => k.uimask.setWidth 32
      | _ => k.uipc)
    | _ => l) old

/-- What a pass overwrites of lane registers that passes still to come read: in a stop group with a `perm`, which reads the
lanes of other groups, its lanes' registers; by an `sgets` of a per-lane register, those of every group. (log 19, DEDUCED) -/
def StopGroup.keepLanes (q : StopGroup) (k : Ctx) (o : Opd) (g : Nat) : StopGroup :=
  if !getsLanes o && !q.ops.any (fun p => p.op.major == 0x48) then q
  else
    let lanes := if getsLanes o then List.range (32 * k.groups) else (List.range 32).map (fun l => 32 * g + l)
    (opWrites o true).foldl (fun (q : StopGroup) r => match r with
      | .v n => { q with oldV := lanes.foldl (fun m l => match SMap.find? m (laneKey n l) with
          | some _ => m
          | none => SMap.insert m (laneKey n l) (k.readV n l)) q.oldV }
      | .p n => { q with oldP := lanes.foldl (fun m l => match SMap.find? m (laneKey n l) with
          | some _ => m
          | none => SMap.insert m (laneKey n l) (k.readP n l)) q.oldP }
      | _ => q) q

/-- The context with the lane registers that a stop group keeps. -/
def StopGroup.recall (q : StopGroup) (k : Ctx) : Ctx :=
  if q.oldV = [] ∧ q.oldP = [] then k
  else { k with v := q.oldV.foldl (fun m p => SMap.set 0 m p.1 p.2) k.v
                pr := q.oldP.foldl (fun m p => SMap.set false m p.1 p.2) k.pr }

/-- Does an instruction of a stop group issue in a pass: a scalar issues in the first one only (05 R105)? -/
def StopGroup.issues (g : StopGroup) (pass pos : Nat) : Bool :=
  match g.ops[pos]? with
  | none => false
  | some o => pass == g.first || !isScalar o.op.major.toNat

/-- The next position of a pass. -/
def StopGroup.nextPos (g : StopGroup) (pass start : Nat) : Option Nat :=
  (List.range g.ops.length).find? (fun p => start ≤ p && g.issues pass p)

/-- The code address after a stop group. -/
def StopGroup.after (g : StopGroup) : Word :=
  match g.ops.getLast? with
  | some o => o.addr + BitVec.ofNat 32 o.op.len
  | none => 0

/-- The flow moves on: to the group's next instruction-pass, pass-major, or past the group (05 R105). -/
def Flow.advance (f : Flow) : Flow :=
  match f.group with
  | none => f
  | some g =>
    match g.nextPos g.pass (g.pos + 1) with
    | some p => { f with group := some { g with pos := p } }
    | none =>
      match (f.passes.filter (fun q => g.pass < q)).findSome? (fun q => (g.nextPos q 0).map (fun p => (q, p))) with
      | some (q, p) => { f with group := some { g with pass := q, pos := p } }
      | none => { f with pc := g.after, group := none }

/-- The stop group that an instruction issues in: the one its flow is inside, or one of its own. -/
def Flow.inGroup (f : Flow) (n : Info) : StopGroup :=
  match f.group with
  | some g => g
  | none => openGroup f [⟨f.pc, n⟩]

/-- Undo-log keys of a pass or bundle's register writes (10 R212). -/
def undoKeys (k : Ctx) (o : Opd) (simt : Bool) (g slot : Nat) : List Nat :=
  (opWrites o simt).flatMap (fun r => match r with
    | .v n =>
      if simt then (if getsLanes o then (List.range k.groups).map (fun h => undoReg k n (32 * h)) else [undoReg k n (32 * g)])
      else if slot < 8 then [undoReg k n (16 * slot)]
      else (List.range k.clusters).map (fun c => undoReg k n (16 * c))
    | _ => [])

/-- Does the checkpoint hold an op's effect: atomics and reductions beyond scratchpad, and arrivals (16 R323)? -/
def Env.exactlyOnce (e : Env) : Bool :=
  match e.o.major with
  | 0x52 | 0x53 => e.o.space != 0
  | 0x56 | 0x57 | 0x5B | 0x5C => true
  | _ => false

/-- Is a cause one for which a SIMT pass parks (03 R66)? -/
def parks (t : Trap) : Bool := (t.cause == 0x07 && t.detail == 0) || (t.cause == 0x08 && t.detail == 0)

/-- The flow's marks of an issue: it no longer counts as ready and is not boosted (05 R108). -/
def Flow.issued (f : Flow) : Flow :=
  { f with ready := 0, boost := none, closed := false, asked := f.asked.filter (fun p => replayKey ≤ p.1) }

/-- A pass parks, once the ring has a slot: its record is written, its registers stay pending, and the flow goes on (03
R66). (log 32, DEDUCED) -/
def State.parkNow (s : State) (c : Nat) (p : ParkedPass) : State :=
  let s := s.closeInterval c p.ctx p.flow
  let s := (s.enterRecord p.record).emitEvent c p.ctx p.flow 0x1 p.record.cause p.record.codeAddr
  let tag := (s.ctx c p.ctx).nextTag
  let names := (opRegs (opd p.op) true).map (Reg.name p.group)
  let o := opd p.op
  let k := s.ctx c p.ctx
  let old := ((k.flow p.flow).group.map StopGroup.old).getD []
  let keep : StopGroup → StopGroup := fun q => { q.keepLanes k o p.group with parked := q.parked ++ [tag] }
  let s := s.updCtx c p.ctx (fun k =>
    { k.updFlow p.flow (fun fl => { fl with group := fl.group.map keep }.advance.issued) with
        nextTag := tag + 1, pend := k.pend ++ names.map (fun n => ⟨n, none, tag⟩) })
  (s.updCore c (fun co => { co with parked := co.parked ++ [{ p with tag := tag, old := old }] })).checkpoint c p.ctx

/-- A pass is parked; where the ring is full the flow stands at the trap point with no state changed (03 R51). -/
def State.parkPass (s : State) (e : Env) (pos : Nat) (shadow : List Shadow) (t : Trap) : State :=
  let p : ParkedPass :=
    ⟨e.ctx, e.flow, e.group, laneMask e.lanes, e.addr, pos, e.info, 0, shadow, s.record e.core e.ctx e.flow t, false, []⟩
  if s.ringFull e.core then s.oweTrap e.core (.park e.core p) else s.parkNow e.core p

/-- A replay that faulted again, once the ring has a slot: the interval closes, the pass stays parked, and its new record is
written (08 R158; 03 R66). -/
def State.reparkNow (s : State) (c : Nat) (p : ParkedPass) : State :=
  let s := (s.closeInterval c p.ctx p.flow).enterRecord p.record
  let s := s.emitEvent c p.ctx p.flow 0x1 p.record.cause p.record.codeAddr
  s.updCore c (fun co => { co with parked := co.parked.map (fun q =>
    if q.ctx == p.ctx && q.tag == p.tag then { p with replaying := false } else q) })

/-- A pass in the table whose replay faulted again; where the ring is full nothing changes until a slot frees (03 R51). -/
def State.reparkPass (s : State) (c : Nat) (p : ParkedPass) : State :=
  if s.trapOwed c p.ctx then s
  else if s.ringFull c then s.oweTrap c (.park c p) else s.reparkNow c p

/-- A pass whose trap waited for a slot: one that parks, or one of the table that was replayed, unless it has left the table. -/
def State.parkOwed (s : State) (c : Nat) (p : ParkedPass) : State :=
  if !(s.ctx c p.ctx).live then s
  else if p.tag = 0 then s.parkNow c p
  else if (s.core c).parked.any (fun q => q.ctx == p.ctx && q.tag == p.tag) then s.reparkNow c p
  else s

/-- Traps that wait for slots of a section's ring are taken, in their order, while it has slots (03 R51). -/
def State.payTraps (s : State) (n : Nat) : Nat → State
  | 0 => s
  | fuel + 1 =>
    match (s.sect n).owed with
    | [] => s
    | o :: rest =>
      if Config.trapMax ≤ (s.sect n).trapQ.length then s
      else
        let s := s.updSect n (fun q => { q with owed := rest })
        (match o with
          | .stop c x f t => if (s.ctx c x).live then s.stopNow c x f t else s
          | .park c p => s.parkOwed c p
          | .record r => s.enterRecord r).payTraps n fuel

/-- The parked-pass table of a core is full (03 R66). -/
def State.tableFull (s : State) (c : Nat) : Bool := decide (32 ≤ (s.core c).parked.length)

/-- The marks of an issue on a flow that is still there: a fragment may have merged (05 R101). -/
def Ctx.markIssued (k : Ctx) (f : Nat) : Ctx := if (SMap.find? k.flows f).isSome then k.updFlow f Flow.issued else k

/-- An effect's state, with its first writes in the undo log, those of scratchpad words and pattern entries among them, and
the flow moved on. -/
def State.finishPass (s : State) (e : Env) (words : List Nat) (f : State → State) : State :=
  let k := s.ctx e.core e.ctx
  let s := s.noteUndo (words ++ undoKeys k e.o true e.group e.slot)
  let s := f s
  let keep : StopGroup → StopGroup := fun q => { q.keepLanes k e.o e.group with shadow := newShadows k q.shadow e.o }
  s.updCtx e.core e.ctx (fun k => k.updFlow e.flow (fun fl => { fl with group := fl.group.map keep }.advance.issued))

/-- The decode causes among the traps of an issue (10 R204, step 2). -/
def isDecodeCause (t : Trap) : Bool :=
  t.cause == 0x0F || (t.cause == 0x02 && t.detail != 0x40) || t.cause == 0x03 || t.cause == 0x05 || t.cause == 0x04

/-- A landing-pad cause stands behind the decode causes that an issue finds, and before every other one (10 R204). -/
def landFirst (landing : Option Trap) (p : Planned) : Planned :=
  match landing, p.2 with
  | none, _ => p
  | some t, .trap d => if isDecodeCause d then p else (p.1, .trap t)
  | some t, _ => (p.1, .trap t)

/-- May the state of a context, not the word alone, give an op a decode cause (14 R275, R277, R283, R287; 16 R330; 17 R352; 18
R371, R372, R377; 19 R388)? -/
def stateCauses (major : Nat) : Bool :=
  [0x14, 0x19, 0x1B, 0x21, 0x26, 0x56, 0x57, 0x69, 0x74, 0x75, 0x7B].contains major

/-- The first instruction of a stop group that the state of its context gives a decode cause, with its trap: nothing of the
group performs then (09 R191). One whose registers are pending is judged when it issues. -/
def State.groupCause (s : State) (g : StopGroup) : Option (Nat × Trap) :=
  let passes := s.cf.passes
  (List.range g.ops.length).findSome? (fun i =>
    match g.ops[i]? with
    | none => none
    | some o =>
      if !stateCauses o.op.major.toNat then none
      else passes.findSome? (fun p =>
        if !g.issues p i || s.cc.passPending (opd o.op) p s.cycle then none
        else match (planOp (s.passEnv o.op o.addr p (maskOf s.cf.masks p) (p == g.first) (passes.all (fun q => q ≤ p)) []) s).2 with
          | .trap t => if isDecodeCause t then some (i, { t with addr := some o.addr, pass := some p }) else none
          | _ => none))

/-- The decode cause of an instruction behind the first of a stop group; one of the first itself is raised by its issue. -/
def State.laterCause (s : State) (g : StopGroup) : Option Trap :=
  if g.ops.length ≤ 1 then none
  else match s.groupCause g with
    | some (i, t) => if i = 0 then none else some t
    | none => none

/-- A flow that has stopped at an instruction, for an event of another party, has issued it (05 R108); one that is not ready
has not. -/
def State.markStopped (s : State) : State :=
  if s.cf.wait.retries then s else s.updCc (fun k => k.markIssued s.cur.flow)

/-- One instruction-pass issues. -/
def issuePass (n : Info) (s : State) : State :=
  let c := s.cur.core
  let x := s.cur.ctx
  let k := s.cc
  let fl := s.cf
  let g := fl.inGroup n
  let addr := match g.ops[g.pos]? with
    | some o => o.addr
    | none => fl.pc
  let o := opd n
  let landing := if fl.group.isNone then landingTrap (padKind n) fl.landing fl.pc else none
  match encodingCause n k.simtPlace with
  | some d => s.raise (decodeTrap (0x03, d) (simtSlots k o) addr)
  | none =>
    if k.passHeld o g.pass || (accessPass o.major && s.groupParked c x g.pass) || s.releaseHolds k o then s.updCf (fun fl => { fl with wait := .busy })
    else
      let s := s.updCf (fun fl => { fl with group := some g, wait := .none, landing := none })
      let last := fl.passes.all (fun p => p ≤ g.pass)
      let e := s.passEnv n addr g.pass (maskOf fl.masks g.pass) (g.pass == g.first) last g.shadow
      let e := { e with k := g.recall e.k }
      match landFirst (landing.map (fun t => { t with slots := simtSlots k o })) (planOp e s) with
      | (s, .trap t) => if accessPass o.major && parks t && !s.tableFull c then s.parkPass e g.pos g.shadow t else s.raise t
      | (s, .go f) =>
        let s := s.finishPass e [] f
        if e.exactlyOnce then s.checkpoint c x else s
      | (s, .record words once f) =>
        let s := s.finishPass e words f
        if once || e.exactlyOnce then s.checkpoint c x else s
      | (s, .jump f) =>
        let s := f s
        if s.cc.live then s.updCc (fun k => k.markIssued s.cur.flow) else s
      | (s, .hold f) => (f s).markStopped

/-! ### VLIW bundles -/

/-- The frame of an op of a bundle. -/
def State.slotEnv (s : State) (slot : Nat) (n : Info) (addr : Word) : Env :=
  let k := s.cc
  let o := opd n
  { core := s.cur.core, ctx := s.cur.ctx, flow := s.cur.flow, slot := slot, simt := false, group := 0, first := true
    last := true, lanes := slotLanes k slot o, addr := addr, info := n, o := o, k := k }

/-- Every op of a bundle planned on the state before the bundle; an op whose stage guard fails does nothing, but a
branch notes it (11 R227; 10 R218). (log 44, DEDUCED) -/
def planSlots (addr : Word) (s0 : State) : State → List (Nat × Info) → State × List (Env × Plan)
  | s, [] => (s, [])
  | s, (slot, n) :: r =>
    let e := s0.slotEnv slot n addr
    if !e.stage && !isControl e.o.major then planSlots addr s0 s r
    else
      let p := planOp e s
      let q := planSlots addr s0 p.1 r
      (q.1, (e, p.2) :: q.2)

/-- The trap of a bundle in which several slots raise causes (10 R204). -/
def bundleTrap (ps : List (Env × Plan)) : Option Trap :=
  let ts := ps.filterMap (fun p => match p.2 with
    | .trap t => some t
    | _ => none)
  let decode := ts.filter isDecodeCause
  let among := if decode = [] then ts else decode
  let slots := among.foldl (fun m t => m ||| t.slots) 0
  let pick := if decode = [] then among.head?
    else [0x0F, 0x02, 0x03, 0x05, 0x04].findSome? (fun c => decode.find? (fun t => t.cause == c))
  pick.map (fun t => { t with slots := slots })

/-- The step of an iteration boundary (09 R195): the loop goes on at START, stops for a pre-emption, or pops. -/
inductive Boundary where
  | again (start : Word)
  | drained (start : Word)
  | pops
  deriving DecidableEq, Repr

def Ctx.boundary (k : Ctx) (en : LoopEntry) : Ctx × Boundary :=
  let start := decide (0 < en.count.toNat) && !en.drain
  let ps : BitVec 8 := (k.ps <<< 1) ||| (if start then 1 else 0)
  let en' := if start then { en with count := en.count - 1, begun := en.begun + 1 } else en
  let k := { k with ps := ps, loops := k.loops.dropLast ++ [en'] }
  if ps &&& ((1#8 <<< en.stages) - 1) ≠ 0 then (k, .again en.start)
  else if en.drain && en.count != 0 then (k, .drained en.start)
  else (k, .pops)

/-- The boundary step of a thread's innermost loop, with the address at which the thread goes on. -/
def State.iterate (s : State) (c x : Nat) (en : LoopEntry) (next : Word) : Except Trap (State × Word) :=
  let r := (s.ctx c x).boundary en
  let s := s.setCtx c x r.1
  match r.2 with
  | .again a => .ok (s, a)
  | .drained a => .ok (s.updCtx c x (fun k => { k with refill := true }), a)
  | .pops => (s.popLoop c x).map (fun s => (s, next))

/-- The resumption of a drained loop: DRAIN clears and the boundary step is performed before START issues (09 R196). -/
def State.refillLoop (s : State) (c x : Nat) : State :=
  let k := s.ctx c x
  match k.refill, k.loops.getLast? with
  | true, some en =>
    let en := { en with drain := false }
    let k := { k with refill := false, drainSpilled := [], loops := (k.loops.dropLast ++ [en]).map (fun e => { e with drain := false }) }
    match (s.setCtx c x k).iterate c x en en.stop with
    | .ok (s, a) => s.updCtx c x (fun k => k.updFlow 255 (fun fl => { fl with pc := a }))
    | .error _ => s.setCtx c x k
  | _, _ => s

/-- Where a thread stands after a bundle that set no position: the next bundle, the loop's start, or the target of a
branch whose second delay bundle this was (09 R192, R195). A delay bundle at END is no iteration boundary (14 R282). -/
def State.nextBundle (s : State) (c x : Nat) (addr next : Word) (due : Option Delay) : Except Trap State :=
  let k := s.ctx c x
  let step := match k.loops.getLast?, due with
    | some en, none => if en.stop = addr then s.iterate c x en next else .ok (s, next)
    | _, _ => .ok (s, next)
  step.map (fun p =>
    match due with
    | some d =>
      if d.left ≤ 1 then
        p.1.updCtx c x (fun k => { k.updFlow 255 (fun fl => { fl with pc := d.target, landing := d.landing }) with delay := none })
      else
        p.1.updCtx c x (fun k => { k.updFlow 255 (fun fl => { fl with pc := p.2 }) with
          delay := some { d with left := d.left - 1 } })
    | none => p.1.updCtx c x (fun k => k.updFlow 255 (fun fl => { fl with pc := p.2 })))

/-- An `ssets` to TILEHI or TILELO, which the spills of its own bundle do not see (14 R272, 19 R388). -/
def Env.setsTile (e : Env) : Bool := e.o.major == 0x14 && (e.o.d == 0x1A || e.o.d == 0x1B)

/-- The effects of a bundle's ops in slot order, a change of TILEBASE last; answers whether one of them set the position. -/
def runSlots (s : State) (ps : List (Env × Plan)) : State × Bool :=
  (ps.filter (fun p => !p.1.setsTile) ++ ps.filter (fun p => p.1.setsTile)).foldl (fun r p => match p.2 with
    | .go f | .record _ _ f => (f r.1, r.2)
    | .jump f => (f r.1, true)
    | _ => r) (s, false)

/-- The entries that a plan makes in the undo log besides its registers', and whether a checkpoint must hold its effect. -/
def Plan.words : Plan → List Nat
  | .record ws _ _ => ws
  | _ => []

def Plan.once : Plan → Bool
  | .record _ b _ => b
  | _ => false

/-- A task's bundle of an `atom` and a `redm` whose words together find a slice full waits, as each of them would alone (06 R123,
R130). -/
def bundleRoom (s : State) (ps : List (Env × Plan)) : Option (State → State) :=
  let atoms := (ps.map Prod.fst).filter (fun e => (e.o.major == 0x52 || e.o.major == 0x53) && e.o.space != 0 && e.k.task.isSome)
  match atoms with
  | e :: _ :: _ =>
    let as := atoms.flatMap (fun e => match (e.locateAll .atomic s).2 with
      | .ok as => as
      | .error _ => [])
    (e.noRoom s as).map (fun q => e.awaitRoom q)
  | _ => none

/-- One bundle issues: the ops that stand in its slots, its own address, and the address after it. A cause of what follows
it, the fill of a loop entry, leaves nothing of the bundle (10 R205). -/
def runBundle (ops : List (Nat × Info)) (addr next : Word) (s : State) : State :=
  let c := s.cur.core
  let x := s.cur.ctx
  let k := s.cc
  if k.bundleHeld (ops.map (fun p => opd p.2)) || ops.any (fun p => s.releaseHolds k (opd p.2)) then
    s.updCf (fun fl => { fl with wait := .busy })
  else
    let s0 := s.updCf (fun fl => { fl with wait := .none, landing := none, pc := addr })
    let r := planSlots addr s0 s0 ops
    match bundleTrap r.2 with
    | some t => r.1.raise t
    | none =>
      let holds := r.2.filterMap (fun p => match p.2 with
        | .hold f => some f
        | _ => none)
      if !holds.isEmpty then holds.foldl (fun s f => f s) r.1
      else match bundleRoom r.1 r.2 with
      | some f => f r.1
      | none =>
        let keys := r.2.flatMap (fun p => p.2.words ++ undoKeys k p.1.o false 0 p.1.slot)
        let s := r.1.noteUndo keys
        let q := runSlots s r.2
        if !(q.1.ctx c x).live then q.1
        else
          let s := q.1.updCtx c x (fun k => ({ k with icyc := k.icyc + 1 }).land (k.icyc + 1))
          let s := s.updCf Flow.issued
          let s := if q.2 then .ok s else s.nextBundle c x addr next k.delay
          match s with
          | .error t => r.1.raise t
          | .ok s => if r.2.any (fun p => p.2.once || p.1.exactlyOnce) then s.checkpoint c x else s

/-- The decode causes that the issue of a bundle's ops finds (10 R204, step 2): those of the machine's state, beside those
of the words. -/
def issueCauses (s : State) (addr : Word) (ops : List (Nat × Info)) : List (Nat × Nat × Nat) :=
  let s0 := s.updCf (fun fl => { fl with wait := .none, landing := none, pc := addr })
  (planSlots addr s0 s0 ops).2.filterMap (fun p => match p.2 with
    | .trap t => if isDecodeCause t then some (p.1.slot, t.cause, t.detail) else none
    | _ => none)

/-- A bundle given as words issues: every slot is checked before any of them takes effect. Decode causes, those of a header
with reserved bits and of the issue of other slots among them, come before the landing pad's (10 R204). -/
def issueWords (badHeader : Bool) (b : Bundle) (next : Word → Word) (s : State) : State :=
  let s := s.refillLoop s.cur.core s.cur.ctx
  let fl := s.cf
  let words := wordCauses s s.cc fl.pc b ++ (if badHeader then [(16, 0x03, 0x01)] else [])
  let ops := goodOps s.cc b
  match words, landingTrap ((ops.map (fun p => padKind p.2)).flatten) fl.landing fl.pc with
  | [], none => runBundle ops fl.pc (next fl.pc) s
  | _, landing =>
    match decodeCauses (words ++ issueCauses s fl.pc ops) fl.pc, landing with
    | some t, _ => s.raise t
    | none, some t => s.raise t
    | none, none => s

/-- One op issues as the only op of a bundle, in the cursor's slot. -/
def issueAlone (n : Info) (s : State) : State :=
  let s := s.refillLoop s.cur.core s.cur.ctx
  let fl := s.cf
  match s.cc.opCause s fl.pc s.cur.slot (.ok n), landingTrap (padKind n) fl.landing fl.pc with
  | some cd, _ =>
    let found := if cd.1 = 0x05 then issueCauses s fl.pc [(s.cur.slot, n)] else []
    s.raise ((decodeCauses ((s.cur.slot, cd) :: found) fl.pc).getD (decodeTrap cd (1#16 <<< s.cur.slot) fl.pc))
  | none, some t => s.raise ((decodeCauses (issueCauses s fl.pc [(s.cur.slot, n)]) fl.pc).getD t)
  | none, none => runBundle [(s.cur.slot, n)] fl.pc (fl.pc + BitVec.ofNat 32 (4 + n.len)) s

/-! ### Issuing for the current flow -/

/-- What a context notes after an issue: a step has begun, unless the flow was not ready, and a stop asked for inside a loop
drains the loop that is innermost; a loop pushed while another drains is not drained (09 R196; 10 R211). -/
def Ctx.noteIssue (k : Ctx) (f : Nat) : Ctx :=
  let k := if k.stepping.isSome && !(k.flow f).wait.tries then { k with stepped := true } else k
  if (k.stopPending || k.cooling) && k.vliw && !k.refill && k.drainSpilled == [] && k.loops.all (fun e => !e.drain) then
    { k with loops := k.loops.dropLast ++ (k.loops.getLast?.map (fun e => { e with drain := true })).toList }
  else k

/-- The frame of every issue: a flow that waits issues nothing, and a refused load traps first. -/
def whenIssuing (f : State → State) (s : State) : Out :=
  if s.mayIssue s.cur.core s.cur.ctx s.cur.flow then
    match s.cc.badLoad with
    | some (l, t) => .next (s.loadFault l t)
    | none =>
      let s := f s
      .next (if s.cc.live then s.updCc (fun k => k.noteIssue s.cur.flow) else s)
  else .next s

/-- ISSUE of one instruction for the current flow. -/
def issue (n : Info) (s : State) : Out :=
  whenIssuing (fun s => if s.cc.vliw then issueAlone n s else issuePass n s) s

/-- A bundle of a VLIW thread (11 R222); a SIMT flow meets its header as an unassigned word. -/
def issueBundle (b : Bundle) (s : State) : Out :=
  whenIssuing (fun s =>
    if s.cc.vliw then issueWords false b (fun pc => pc + BitVec.ofNat 32 (4 + 4 * b.words.length)) s
    else s.raise (decodeTrap (0x02, 0) 0 s.cf.pc)) s

/-- A bundle whose header has reserved bits set issues its trap (11 R222; 10 R204). -/
def issueBadHeader (b : Bundle) (s : State) : Out := whenIssuing (issueWords true b id) s

/-- A pattern reference of a VLIW thread (09 R193). -/
def issueReference (i : Nat) (s : State) : Out :=
  whenIssuing (fun s =>
    if s.cc.vliw then
      match SMap.find? s.cc.pats i with
      | none => s.raise (decodeTrap (0x0F, 0x1) 0 s.cf.pc)
      | some p => if p.valid then issueWords false (patBundle p.words) (fun pc => pc + 2) s
        else s.raise (decodeTrap (0x0F, 0x2) 0 s.cf.pc)
    else s.raise (decodeTrap (0x02, 0) 0 s.cf.pc)) s

end Sys2Proof.Machine
end

