-- ==== Sys2Proof/Machine/ExecControl.lean ====
section
/-! DEFINITION. ExecControl.lean: the meanings of the control family, majors 0x18 to 0x26 (13 R257): each issues its op for the current
flow, and the family's plan gives the effect. -/

namespace Sys2Proof.Machine

/-- BRA (R273): Direct branch; divergent in SIMT, with delay bundles in VLIW. -/
def execBra (f : OpF) (imm : Word) (s : State) : Out :=
  issue ⟨0x18, 0x00, 2, f, .i imm⟩ s

/-- BRX (R275): Indirect jump checked against lpad.j. -/
def execBrx (f : OpF) (s : State) : Out :=
  issue ⟨0x19, 0x00, 0, f, .none⟩ s

/-- CALL (R277): Direct call pushing the return address. -/
def execCall (f : OpF) (imm : Word) (s : State) : Out :=
  issue ⟨0x1A, 0x00, 2, f, .i imm⟩ s

/-- CALLX (R277): Indirect call, serving SIMT targets one at a time. -/
def execCallx (f : OpF) (s : State) : Out :=
  issue ⟨0x1B, 0x00, 0, f, .none⟩ s

/-- RET (R277): Return from the return-address stack or the fragment's overlay. -/
def execRet (f : OpF) (s : State) : Out :=
  issue ⟨0x1C, 0x00, 0, f, .none⟩ s

/-- LPAD_C (R276): Landing pad for calls and handlers. -/
def execLpadC (f : OpF) (s : State) : Out :=
  issue ⟨0x1D, 0x00, 0, f, .none⟩ s

/-- LPAD_J (R276): Landing pad for indirect jumps. -/
def execLpadJ (f : OpF) (s : State) : Out :=
  issue ⟨0x1D, 0x01, 0, f, .none⟩ s

/-- SEAM (R101): Reconvergence point: the flow arrives and waits, and the parts merge. -/
def execSeam (f : OpF) (s : State) : Out :=
  issue ⟨0x1E, 0x00, 0, f, .none⟩ s

/-- LOOP (R280): Push a hardware loop entry. -/
def execLoop (f : OpF) (imm : Word) (s : State) : Out :=
  issue ⟨0x1F, 0x00, 2, f, .i imm⟩ s

/-- LEXIT (R281): Leave the innermost loop after two delay bundles. -/
def execLexit (f : OpF) (s : State) : Out :=
  issue ⟨0x20, 0x00, 0, f, .none⟩ s

/-- COLLAPSE (R283): Claim two clusters and switch the team to a VLIW thread. -/
def execCollapse (f : OpF) (s : State) : Out :=
  issue ⟨0x21, 0x00, 0, f, .none⟩ s

/-- COLLAPSE_N (R283): Claim 2^imm6 clusters and switch to VLIW. -/
def execCollapseN (f : OpF) (s : State) : Out :=
  issue ⟨0x21, 0x00, 1, f, .none⟩ s

/-- EXPAND (R284): Return the clusters and switch the thread back to SIMT. -/
def execExpand (f : OpF) (s : State) : Out :=
  issue ⟨0x22, 0x00, 0, f, .none⟩ s

/-- YIELD (R109): Set the yield flag. -/
def execYield (f : OpF) (s : State) : Out :=
  issue ⟨0x23, 0x00, 0, f, .none⟩ s

/-- EXIT (R286): End the guarded lanes or the thread after closing the interval. -/
def execExit (f : OpF) (s : State) : Out :=
  issue ⟨0x24, 0x00, 0, f, .none⟩ s

/-- TACK (R286): Close the checkpoint interval and open the next. -/
def execTack (f : OpF) (s : State) : Out :=
  issue ⟨0x25, 0x00, 0, f, .none⟩ s

/-- PTLOAD (R287): Load pattern-table entries from scratchpad. -/
def execPtload (f : OpF) (s : State) : Out :=
  issue ⟨0x26, 0x00, 0, f, .none⟩ s

end Sys2Proof.Machine
end

