-- ==== Sys2Proof/Machine/Launch.lean ====
section
/-! DEFINITION. Launch.lean: dispatch and its checks, claims of clusters, the start of teams, tasks and handlers, and the
end of grids (04 R78 to R90; 05 R89 to R97; 06 R115, R133; 07 R140). -/

namespace Sys2Proof.Machine

/-! ### Tables of a packet (04 R80) -/

/-- The tables as they were read, none where they do not translate. -/
structure Tables where
  map : Option (List Nat)
  asets : Option (List (Nat × Nat × Nat × Nat))
  bars : Option (List BarEntry)
  deriving DecidableEq, Repr

/-- Rows of a table of given entry size. -/
def rowsOf {α : Type} (size n : Nat) (bs : List Byte) (f : List Byte → α) : List α :=
  (List.range n).map (fun i => f ((bs.drop (size * i)).take size))

/-- The bytes of a packet table; one whose page is refused or poisoned is none, as one that does not translate. (log 51, DEDUCED) -/
def State.readTable (s : State) (p : Packet) (part va n : Nat) : State × Option (List Byte) :=
  s.readVirt p.asid part va n (pageCount n)

/-- Every table of a packet, read once at dispatch (04 R78), before any check: as many entries as its count says, be the
count in range or not (04 R82). -/
def State.readTables (s : State) (p : Packet) (part : Nat) : State × Tables :=
  let nm := p.mapCount
  let na := p.asetCount
  let nb := p.barCount
  let a := s.readTable p part p.mapAddr (2 * nm)
  let b := a.1.readTable p part p.asetAddr (16 * na)
  let c := b.1.readTable p part p.barAddr (8 * nb)
  (c.1,
   { map := a.2.map (fun bs => rowsOf 2 nm bs (fun r => fieldAt r 0 2))
     asets := b.2.map (fun bs => rowsOf 16 na bs (fun r => (fieldAt r 0 8, fieldAt r 8 6, fieldAt r 14 1, fieldAt r 15 1)))
     bars := c.2.map (fun bs => rowsOf 8 nb bs (fun r =>
       { index := fieldAt r 0 2, threads := fieldAt r 2 2, bytes := fieldAt r 4 4 })) })

/-! ### The checks of R82 -/

/-- Reserved bits of a packet. (log 62, DEDUCED) -/
def Packet.reservedSet (p : Packet) : Bool :=
  16 ≤ p.f 1 1 || 4096 ≤ p.f 12 2 || 16 ≤ p.f 14 1 || 4096 ≤ p.f 18 2 || p.f 36 4 != 0 || p.f 113 3 != 0
    || p.f 140 4 != 0 || p.f 146 110 != 0

/-- Column and row of a core on the mesh (04 R80). -/
def meshCol (c : Nat) : Nat := c % 16
def meshRow (c : Nat) : Nat := c / 16

def leastOf (ns : List Nat) : Nat := ns.foldl min (ns.headD 0)
def mostOf (ns : List Nat) : Nat := ns.foldl max 0

/-- The cores of a patch. -/
def patchCores (p : Packet) (map : List Nat) (patch : Nat) : List Nat := (map.drop (patch * p.patchTeams)).take p.patchTeams

def patchFits (p : Packet) (map : List Nat) (patch : Nat) : Bool :=
  let cs := patchCores p map patch
  let xs := cs.map meshCol
  let ys := cs.map meshRow
  mostOf xs - leastOf xs < p.patchW && mostOf ys - leastOf ys < p.patchH

/-- Bytes of scratchpad of a core beside its landing zones, which may overlap: units of 256 B that lie in none. -/
def Core.spadOffer (co : Core) : Nat :=
  let zones := co.amPort.filter (fun p => p.2.valid && p.2.zoneSize != 0)
  if zones.isEmpty then co.spadSize
  else 256 * ((List.range (co.spadSize / 256)).filter (fun u =>
    zones.all (fun p => u < p.2.zoneBase || p.2.zoneBase + p.2.zoneSize ≤ u))).length

/-- Check 0x08 for one core that n map entries name. -/
def State.coreHolds (s : State) (p : Packet) (c n : Nat) : Bool :=
  let co := s.core c
  n ≤ 16 && n * p.regs ≤ Config.blocks - co.blocksReserved && n * p.spad ≤ co.spadOffer
    && (p.mode != 2 || n * p.vliwClusters ≤ (if co.guarded then 6 else 8))

/-- May a partition's team run on a core (check 0x09)? -/
def State.coreReady (s : State) (part c : Nat) : Bool := s.coreOf part c && s.mgmt.sectReady.getLsbD (c / 8)

def setsOverlap : List (Nat × Nat) → Bool
  | [] => false
  | a :: r => r.any (fun b => a.1 < b.1 + b.2 && b.1 < a.1 + a.2) || setsOverlap r

def hasRepeat : List Nat → Bool
  | [] => false
  | a :: r => r.contains a || hasRepeat r

/-- Check 0x0B: the domain. (log 85, DEDUCED) -/
def Packet.domainBad (p : Packet) : Bool :=
  if p.restartable then
    let axes := List.range p.axes
    let order := axes.map p.splitAxis
    p.axes == 0 || 4 < p.axes || axes.any (fun a => p.grain a == 0 || p.extent a < p.grain a)
      || hasRepeat order || order.any (fun a => p.axes ≤ a) || p.f 81 1 / 4 ^ p.axes != 0
      || 2 ^ (Nat.log2 p.mapCount) != p.mapCount || (initialBoxes p).isNone
  else p.axes != 0 || p.teams == 0 || p.f 81 1 != 0

/-- The rows of R82 in table order, each with its code. -/
def State.packetChecks (s : State) (p : Packet) (part : Nat) (t : Tables) : List (Nat × Bool) :=
  let code := s.codeObjs.find? (fun o => o.handle.toNat == p.code && o.part == part)
  let space := SMap.get {} s.aspaces p.asid
  let map := t.map.getD []
  let cores := map.eraseDups
  let asets := t.asets.getD []
  let bars := t.bars.getD []
  let pt := p.patchTeams
  [ (0x01, p.kind != 1 && p.kind != 2)
  , (0x02, p.f 2 2 != 1)
  , (0x03, p.reservedSet || map.any (fun e => 256 ≤ e) || asets.any (fun a => a.2.2.2 != 0))
  , (0x04, code.isNone)
  , (0x05, p.entry % 4 != 0 || (match code with
      | some o => o.bytes ≤ p.entry
      | none => false))
  , (0x06, !space.valid || space.part != part)
  , (0x07, p.mode == 3 || p.groups == 0 || 32 < p.groups || (p.mode != 0 && p.groups != 1) || p.patchW == 0 || p.patchH == 0
      || 12 < p.patchW * p.patchH || pt == 0 || 12 < pt || p.mapCount == 0 || 4096 < p.mapCount || p.mapCount % pt != 0)
  , (0x08, cores.any (fun c => !s.coreHolds p c (map.filter (fun e => e == c)).length))
  , (0x09, cores.any (fun c => !s.coreReady part c))
  , (0x0A, (List.range (map.length / max pt 1)).any (fun q => !patchFits p map q))
  , (0x0B, p.domainBad)
  , (0x0C, (if p.restartable then 16 < p.asetCount else p.asetCount != 0)
      || asets.any (fun a => a.2.1 == 0 || a.2.2.1 < 3 || 12 < a.2.2.1 || a.1 % 2 ^ a.2.2.1 != 0 || a.2.1 % 2 ^ a.2.2.1 != 0
        || 2 ^ 57 < a.1 + a.2.1)
      || setsOverlap (asets.map (fun a => (a.1, a.2.1))))
  , (0x0D, p.regBudget < p.regs || p.spadBudget < p.spad
      || (if p.restartable then p.cycleBudget == 0 || p.wsetBudget == 0 || p.idem
          else p.cycleBudget != 0 || p.wsetBudget != 0))
  , (0x0E, p.mxTeam != 0 && (p.mode != 0 || p.mxTeam == 1 || 8 < p.mxTeam || p.groups < p.mxTeam || p.groups % p.mxTeam != 0))
  , (0x0F, 32 < p.barCount || bars.any (fun b => p.spad < b.index * 32 + 32 || b.threads == 0)
      || hasRepeat (bars.map BarEntry.index))
  , (0x10, t.map.isNone || t.asets.isNone || t.bars.isNone) ]

/-- The fault code of the first failing row; a marker is checked against its own bits only. -/
def State.packetFault (s : State) (p : Packet) (part : Nat) (t : Tables) : Option Nat :=
  let rows := if p.kind = 2 then
      [(0x02, p.f 2 2 != 1), (0x03, p.reservedSet)]
    else s.packetChecks p part t
  (rows.find? Prod.snd).map Prod.fst

/-! ### Claims (05 R94, R95) -/

/-- SIMT teams bound inside a block move to an eligible slice outside it, if there is one. -/
def State.clearBlock (s : State) (c b n : Nat) (but : Option Nat) : State :=
  (s.core c).ctxs.foldl (fun s p =>
    let co := s.core c
    let k := s.ctx c p.1
    let inside := k.clusterList.any (fun m => b ≤ m && m < b + n)
    if k.mode == .vliw || some p.1 == but || !inside then s
    else match co.chooseSlice (k.mode == .half) (some p.1) with
      | some m => s.setCtx c p.1 { k with base := m }
      | none => s) s

/-- The claims of a core in the order they arose: the first one not granted takes the lowest eligible block, whose teams
move away, and is granted when it holds no other team; a `collapse` also needs its missing register blocks. A reserved
block that has since become protected is given up (05 R97). (log 60, DEDUCED) -/
def State.settleClaims (s : State) (c : Nat) : Nat → State
  | 0 => s
  | fuel + 1 =>
    let co := s.core c
    match co.claims.find? (fun q => !q.granted) with
    | none => s
    | some q =>
      match (match q.block with
        | some b => if co.blockFree q.clusters b then some b else co.eligibleBlock q.clusters
        | none => co.eligibleBlock q.clusters) with
      | none => s.updCore c (fun co => { co with claims := co.claims.map (fun r => if r = q then { r with block := none } else r) })
      | some b =>
        let mine : Claim → Bool := fun r => r.ctx == q.ctx && r.grid == q.grid && r.team == q.team && !r.granted
        let put : State → (Claim → Claim) → State := fun s f =>
          s.updCore c (fun co => { co with claims := co.claims.map (fun r => if mine r then f r else r) })
        let s := (put s (fun r => { r with block := some b })).clearBlock c b q.clusters q.ctx
        let co := s.core c
        if !((List.range q.clusters).all (fun n => co.bound (b + n) q.ctx == 0)) then s
        else match q.ctx with
          | none => (put s (fun r => { r with granted := true })).settleClaims c fuel
          | some x =>
            let k := s.ctx c x
            if Ctx.blocksFor k.nregs (16 * q.clusters) - k.blocks ≤ co.blocksFree then
              (s.collapseCtx c x q.clusters b).settleClaims c fuel
            else s

/-- CLAIM_GRANT: what a core's claims can do now. -/
def State.claimStep (s : State) (c : Nat) : State := s.settleClaims c ((s.core c).claims.length + 1)

/-- The claim of a thread not yet started arises. -/
def State.claimFor (s : State) (c grid team clusters : Nat) : State :=
  if (s.core c).claims.any (fun q => q.ctx.isNone && q.grid == grid && q.team == team) then s
  else
    (s.updCore c (fun co => { co with claims := co.claims ++
      [{ ctx := none, grid := grid, team := team, clusters := clusters, block := none }] })).claimStep c

/-! ### Starting a context (05 R89; 04 R80, R81) -/

def modeOf (p : Packet) : Mode := match p.mode with | 0 => .simt | 1 => .half | _ => .vliw

/-- All lanes of a starting context (04 R80). -/
def startMasks (m : Mode) (groups : Nat) : SMap Word :=
  match m with
  | .simt => (List.range groups).map (fun g => (g, 0xFFFFFFFF#32))
  | .half => [(0, 0xFFFF#32)]
  | .vliw => [(0, 0xFFFFFFFF#32)]

/-- The lowest free work context. -/
def Core.freeWork (co : Core) : Option Nat := (List.range 16).find? (fun x => (SMap.find? co.ctxs x).isNone)

/-- The code window of a core under which a code object stands (03 R50). -/
def State.windowFor (s : State) (p : Packet) (part core : Nat) : Option Nat :=
  (s.codeObjs.find? (fun o => o.handle.toNat == p.code && o.part == part)).bind (fun o =>
    (List.find? (fun (q : Nat × Nat) => q.1 == core) o.places).map Prod.snd)

/-- Barrier entries initialised at phase 0 in a starting grant. -/
def initBarriers (m : Memory) (base : Nat) (bars : List BarEntry) : Memory :=
  bars.foldl (fun m b => m.writeBytes (base + b.index * 32)
    (padTo 32 ({ phase := 0, texp := b.threads, tcnt := 0, bbase := b.bytes, bexp := b.bytes, bcnt := 0, tadj := 0 } : Barrier).toBytes)) m

/-- A new context takes its place on a core: its window counts it, its grant reads zero, and its first interval
begins. -/
def State.install (s : State) (c x : Nat) (k : Ctx) (bars : List BarEntry) : State :=
  let owed := (s.core c).trc.enable && (s.core c).trc.mask.getLsbD x && (s.core c).trc.part == k.part
  let k := { k.updFlow 255 (fun fl => { fl with syncOwed := owed }) with start := s.cycle }
  let s := s.updCore c (fun co =>
    { co with ctxs := SMap.insert co.ctxs x k
              spad := if k.handler then co.spad else initBarriers (co.spad.zero k.spadBase k.spadLen) k.spadBase bars
              codeWin := match SMap.find? co.codeWin k.window with
                | some w => SMap.insert co.codeWin k.window { w with refs := w.refs + 1 }
                | none => co.codeWin })
  s.checkpoint c x

/-- What a team or task needs beside its claim: a context, register blocks, scratchpad and its code on the core. -/
def State.roomFor (s : State) (p : Packet) (part c : Nat) : Option (Nat × Nat × Nat) :=
  let co := s.core c
  match co.freeWork, co.findRun none p.spad, s.windowFor p part c with
  | some x, some b, some w =>
    if co.sramBusy || co.retiring || s.mgmt.halting || decide (co.blocksFree < p.regs) then none else some (x, b, w)
  | _, _, _ => none

/-- A team or a run of a task starts on a core if all its resources are free (05 R89); a VLIW thread's claim must be
granted. SPAD is granted as it stands. (log 135, DESIGN CHOICE) -/
def State.place (s : State) (id : Nat) (g : Grid) (c team mapIdx : Nat) (task : Option Nat) : Option State :=
  let p := g.pkt
  let m := modeOf p
  let claim := (s.core c).claims.find? (fun q => q.ctx.isNone && q.grid == id && q.team == team && q.granted)
  let seat := if m == .vliw then claim.bind Claim.block else (s.core c).chooseSlice (m == .half) none
  match s.roomFor p g.part c, seat with
  | some (x, run, w), some b =>
    let t := task.bind s.task?
    let base : Ctx :=
      { live := true, mode := m, groups := p.groups, clusters := if m == .vliw then p.vliwClusters else 0, base := b
        bound := true, part := g.part, vf := g.vf, asid := p.asid, window := w, grid := id, team := team, mapIdx := mapIdx
        task := task, blocks := p.regs, spadBase := run, spadLen := p.spad
        idem := p.idem && !p.restartable
        aborts := (t.map Task.aborts).getD 0, cause := (t.map Task.cause).getD 0
        sr := SMap.set 0 (SMap.set 0 [] 0 (loWord p.argAddr)) 1 (hiWord p.argAddr) }
    let k : Ctx := { base with nregs := Ctx.regsFor p.regs base.laneCount
                               flows := [(255, { pc := BitVec.ofNat 32 p.entry, masks := startMasks m p.groups })] }
    let s := s.updCore c (fun co => { co with claims := co.claims.filter (fun q =>
      !(q.ctx.isNone && q.grid == id && q.team == team)) })
    some (s.install c x k g.bars)
  | _, _ => none

/-! ### Teams of a plain grid (05 R90) -/

/-- Has every earlier packet of a queue ended, and has every earlier one started (04 R78)? -/
def State.priorEnded (s : State) (g : Grid) : Bool :=
  s.grids.all (fun q => q.2.queue != g.queue || q.2.done || !(distance g.number q.2.number < 2 ^ 31 && q.2.number != g.number))

/-- Contexts, registers and scratchpad for one more entry set aside on a core. -/
def Core.setAside (co : Core) (p : Packet) : Option Core :=
  match co.freeWork, co.findRun none p.spad with
  | some x, some b =>
    if co.blocksFree < p.regs then none
    else
      let k : Ctx := { live := true, blocks := p.regs, spadBase := b, spadLen := p.spad }
      some { co with ctxs := SMap.insert co.ctxs x k }
  | _, _ => none

def Core.setAsideAll (co : Core) (p : Packet) : Nat → Option Core
  | 0 => some co
  | n + 1 => (co.setAside p).bind (fun co => co.setAsideAll p n)

/-- Has every map entry's core free contexts, registers and scratchpad for its team (04 R78)? -/
def State.gridFits (s : State) (g : Grid) : Bool :=
  (g.map.eraseDups).all (fun c =>
    ((s.core c).setAsideAll g.pkt (g.map.filter (fun e => e == c)).length).isSome)

/-- A dispatched grid may start. -/
def State.mayStart (s : State) (g : Grid) : Bool :=
  !g.waiting || ((!g.pkt.waitPrior || s.priorEnded g) && s.gridFits g)

/-- Teams start one after another, or none of them. -/
def State.placeAll (s : State) (id : Nat) (g : Grid) : List Nat → Option State
  | [] => some s
  | k :: r =>
    match s.place id g (g.map.getD (k % g.pkt.mapCount) 0) k (k % g.pkt.mapCount) none with
    | none => none
    | some s => s.placeAll id g r

/-- Claims of threads that can start next. -/
def State.claimTeams (s : State) (id : Nat) (g : Grid) (ks : List Nat) : State :=
  if modeOf g.pkt == .vliw then
    ks.foldl (fun s k => s.claimFor (g.map.getD (k % g.pkt.mapCount) 0) id k g.pkt.vliwClusters) s
  else s

/-- The teams of the next patch instance, and whether their map slots are free. -/
def Grid.nextTeams (g : Grid) : List Nat :=
  (List.range (min g.pkt.patchTeams (g.pkt.teams - g.started))).map (fun i => g.started + i)
def Grid.slotsFree (g : Grid) (ks : List Nat) : Bool :=
  ks.all (fun k => k < g.pkt.mapCount || g.exited.contains (k - g.pkt.mapCount))

/-- The contexts that a start has added carry CAUSE 0x03: the run began after a flush (06 R119, R135). -/
def State.markRestart (s old : State) (id team : Nat) : State :=
  let mark : Nat → Nat × Ctx → Nat × Ctx := fun c p =>
    (p.1, if p.2.grid = id ∧ p.2.team = team ∧ (SMap.find? (old.core c).ctxs p.1).isNone then { p.2 with cause := 3 } else p.2)
  { s with cores := s.cores.map (fun (c : Nat × Core) => (c.1, { c.2 with ctxs := c.2.ctxs.map (mark c.1) })) }

/-- TEAM_START: a flushed team starts again, or the next patch instance starts in one step. -/
def State.startTeams (s : State) (id : Nat) : State :=
  match s.grid? id with
  | none => s
  | some g =>
    if g.pkt.restartable || g.done || g.verdict.isSome || g.pkt.kind != 1 then s
    else match g.restarts with
      | k :: r =>
        let s := s.claimTeams id g [k]
        (match s.placeAll id g [k] with
        | some s' => (s'.markRestart s id k).updGrid id (fun g => { g with restarts := r })
        | none => s)
      | [] =>
        if !s.mayStart g then s
        else
          let ks := g.nextTeams
          if ks = [] ∨ !g.slotsFree ks then s
          else
            let s := s.claimTeams id g ks
            match s.placeAll id g ks with
            | some s => s.updGrid id (fun g => { g with started := g.started + ks.length, waiting := false })
            | none => s

/-! ### Tasks (05 R91; 06 R115, R117, R133) -/

/-- Does an older task wait on a core for the resources that a capacity event frees: it takes them first (06 R130)? (log 81, DEDUCED) -/
def State.growWaits (s : State) (c num : Nat) : Bool :=
  (s.core c).ctxs.any (fun p => match p.2.task with
    | some t => s.olderTask t num && p.2.flows.any (fun q => q.2.wait == .grow)
    | none => false)

/-- The cores a pending task may be placed on, in the order they are tried (06 R133). -/
def State.taskCores (s : State) (g : Grid) (t : Task) : List Nat :=
  let cs := patchCores g.pkt g.map (t.mapIdx / max g.pkt.patchTeams 1)
  let x0 := leastOf (cs.map meshCol)
  let y0 := leastOf (cs.map meshRow)
  let inRect : Nat → Bool := fun c => x0 ≤ meshCol c && meshCol c < x0 + g.pkt.patchW && y0 ≤ meshRow c && meshRow c < y0 + g.pkt.patchH
  let ok := (List.range Config.cores).filter (fun c => inRect c && s.coreReady g.part c)
  (if ok.contains t.lastCore then [t.lastCore] else []) ++ ok.filter (fun c => c != t.lastCore)

/-- Is a task the oldest unfinished one of its grid (06 R112)? -/
def State.oldestUnfinished (s : State) (num : Nat) : Bool :=
  match s.task? num with
  | none => false
  | some t => s.tasks.list.all (fun p => p.1 == num || p.2.grid != t.grid || t.older p.2)

/-- A pending task is put in its place in age order (05 R91; 06 R117). -/
def insertOlder (p : Nat × Task × Grid) : List (Nat × Task × Grid) → List (Nat × Task × Grid)
  | [] => [p]
  | q :: r => if p.2.1.older q.2.1 then p :: q :: r else q :: insertOlder p r

/-- The pending tasks that may be placed on a core, oldest first (05 R91). -/
def State.pendingOn (s : State) (c : Nat) : List (Nat × Task × Grid) :=
  (s.tasks.list.filterMap (fun p => match s.grid? p.2.grid with
    | some g => if p.2.state == .pending && (s.taskCores g p.2).contains c then some (p.1, p.2, g) else none
    | none => none)).foldr insertOlder []

/-- Does a grid's oldest task wait for room on a core: it starts there before any other task of the grid (05 R112)? -/
def State.oldestWaits (s : State) (c id : Nat) : Bool :=
  (s.pendingOn c).any (fun q => q.2.1.grid == id && s.oldestUnfinished q.1)

/-- TASK_START: the next initial task takes its stamp and starts. -/
def State.startTask (s : State) (id : Nat) : State :=
  match s.grid? id with
  | none => s
  | some g =>
    if !g.pkt.restartable || g.done || g.verdict.isSome || g.pkt.kind != 1 || !s.mayStart g || decide (g.pkt.mapCount ≤ g.started) then s
    else
      let n := g.started
      let c := g.map.getD n 0
      let box := ((initialBoxes g.pkt).getD []).getD n []
      let num := s.tasks.next
      let s := s.claimTeams id g [n]
      let t : Task := { grid := id, stamp := s.tasks.age, box := box, mapIdx := n, lastCore := c }
      let s1 := { s with tasks := { s.tasks with list := SMap.insert s.tasks.list num t, next := num + 1, age := s.tasks.age + 1 } }
      match if s1.growWaits c num || s.oldestWaits c id then none else s1.place id g c n n (some num) with
      | none => s
      | some s2 =>
        let x := ((s.core c).freeWork).getD 0
        (s2.updTask num (fun t => { t with state := .running c x })).updGrid id
          (fun g => { g with started := n + 1, waiting := false })

/-- The number under which a pending task's claim stands: it follows the numbers of the initial tasks. -/
def pendingKey (num : Nat) : Nat := 8192 + num

/-- A pending task tried on its cores in order: the state after its start on the first one that has room. -/
def State.tryCores (s : State) (num : Nat) (t : Task) (g : Grid) : List Nat → Option (Nat × State)
  | [] => none
  | c :: r =>
    match if s.growWaits c num then none else s.place t.grid g c (pendingKey num) t.mapIdx (some num) with
    | some s' => some (c, s')
    | none => s.tryCores num t g r

/-- The claims of a pending task, on every core. -/
def State.dropClaims (s : State) (grid num : Nat) : State :=
  { s with cores := s.cores.map (fun (p : Nat × Core) => (p.1, { p.2 with claims := p.2.claims.filter (fun q =>
      !(q.ctx.isNone && q.grid == grid && q.team == pendingKey num)) })) }

/-- The youngest task of the same grid that holds resources on one of the cores is wounded: one that runs there, or one that is
pending and whose claim holds clusters, which it gives back (05 R95, R112). -/
def State.woundYoungest (s : State) (num : Nat) (t : Task) (cores : List Nat) : State :=
  let claims : Nat → Bool := fun y => cores.any (fun c => (s.core c).claims.any (fun q =>
    q.ctx.isNone && q.grid == t.grid && q.team == pendingKey y && q.block.isSome))
  let holders := s.tasks.list.filterMap (fun (p : Nat × Task) => match p.2.state with
    | .running c _ => if p.2.grid = t.grid ∧ cores.contains c then some p.1 else none
    | .pending => if p.2.grid = t.grid ∧ p.1 ≠ num ∧ claims p.1 then some p.1 else none
    | _ => none)
  match s.youngest holders num with
  | some y => if (s.task? y).any (fun x => x.state == .pending) then s.dropClaims t.grid y else s.woundTask y 0x01
  | none => s

/-- A pending task has started on a core: its claims on the others go. -/
def State.pendingStarted (s : State) (c x num : Nat) (t : Task) : State :=
  ((s.dropClaims t.grid num).updTask num (fun t => { t with state := .running c x, lastCore := c })).updCtx c x (fun k => { k with team := t.mapIdx })

/-- Pending tasks in age order: the first that starts on the core does so; a grid whose oldest task does not fit starts none
after it and has its youngest task wounded (05 R91, R112). -/
def State.startFirst (s : State) (c : Nat) (shut : List Nat) : List (Nat × Task × Grid) → State
  | [] => s
  | (num, t, g) :: r =>
    if shut.contains t.grid then s.startFirst c shut r
    else
      let s := if modeOf g.pkt == .vliw then s.claimFor c t.grid (pendingKey num) g.pkt.vliwClusters else s
      match s.tryCores num t g (s.taskCores g t) with
      | some (c', s') =>
        if c' = c then s'.pendingStarted c ((s.core c).freeWork.getD 0) num t else s.startFirst c (t.grid :: shut) r
      | none =>
        if s.oldestUnfinished num then (s.woundYoungest num t (s.taskCores g t)).startFirst c (t.grid :: shut) r
        else s.startFirst c shut r

/-- PENDING_TASK_START: the oldest pending task that may be placed on the core and fits there starts (05 R91). -/
def State.startPending (s : State) (c : Nat) : State := s.startFirst c [] (s.pendingOn c)

/-! ### Dispatch (04 R78) -/

/-- The bytes of a packet in a ring; none where the ring's frame is refused or early, which logs its event, or holds
media poison. -/
def State.packetBytes (s : State) (part : Nat) (e : QueueEntry) : State × Option (List Byte) :=
  let a := e.ringBase + e.head % 2 ^ e.log2 * 256
  match s.rangeCheck part a 256 false with
  | none => (s, some (s.mem.readBytes a 256))
  | some (l, x) => (s.logPhys part l x, none)

/-- PACKET_DISPATCH: the head packet of a switched-in queue is read with its tables and checked; a packet that fails
completes with a launch fault, and a marker without WAIT_PRIOR ends at once. Of a packet whose data are poisoned nothing is
used: its grid is over, and since its COMPL_ADDR is not known no record is written. (log 61, DESIGN CHOICE) -/
def State.dispatch (s : State) (q : Nat) : State :=
  match s.cached q, s.queueVf q with
  | some e, some (v, b) =>
    if !s.dispatchable q then s
    else
      let read := s.packetBytes b.part e
      let s := { read.1 with qc := { read.1.qc with rr := q + 1 } }
      let p : Packet := ⟨read.2.getD []⟩
      let r := if p.kind = 2 || read.2.isNone then (s, { map := some [], asets := some [], bars := some [] }) else s.readTables p b.part
      let s := r.1
      let t := r.2
      let id := s.nextGrid
      let fault := s.packetFault p b.part t
      let g : Grid :=
        { queue := q, number := e.head, pkt := p, vf := v, part := b.part, map := t.map.getD []
          asets := (t.asets.getD []).map (fun a => ⟨a.1, a.2.1, a.2.2.1⟩), bars := t.bars.getD [] }
      let s := { s with grids := SMap.insert s.grids id g, nextGrid := id + 1
                        qc := { s.qc with idle := SMap.insert s.qc.idle q 0 } }
      let s := s.putQueue b.part q { e with head := (e.head + 1) % 2 ^ 32 }
      if read.2.isNone then
        (s.updGrid id (fun g => { g with verdict := some (1, 1, 0, none), waiting := false, done := true })).advance q (s.grids.length + 1)
      else match fault with
      | some code => (s.updGrid id (fun g => { g with verdict := some (1, code, 0, none), waiting := false })).endGrid id
      | none =>
        if p.kind = 2 then
          if p.waitPrior then s else (s.updGrid id (fun g => { g with verdict := some (0, 0, 0, none), waiting := false })).endGrid id
        else s.claimTeams id g (List.range (if p.restartable then p.mapCount else p.teams))
  | _, _ => s

/-- MARKER: a marker with WAIT_PRIOR ends once every earlier packet of its queue has ended. -/
def State.markerStep (s : State) (id : Nat) : State :=
  match s.grid? id with
  | none => s
  | some g =>
    if g.pkt.kind = 2 ∧ g.waiting ∧ !g.done ∧ s.priorEnded g then
      (s.updGrid id (fun g => { g with verdict := some (0, 0, 0, none), waiting := false })).endGrid id
    else s

/-- GRID_END: a grid whose last team has exited, or whose last task has committed, ends. -/
def State.finishGrid (s : State) (id : Nat) : State := if s.gridOver id then s.endGrid id else s

/-! ### Active messages (04 R86 to R88; 02 R35) -/

/-- HANDLER_START: the handler of the oldest accepted message of a core starts in the lowest free handler context (05
R89), with the effect of `acq.dev`; a `send` that waits for it completes (18 R369). -/
def State.startHandler (s : State) (c : Nat) : State :=
  let co := s.core c
  let free := ((List.range 4).map (fun n => 16 + n)).find? (fun x => (SMap.find? co.ctxs x).isNone)
  match co.messages, free, co.chooseSlice false none with
  | m :: rest, some x, some b =>
    let p := SMap.get {} co.amPort m.entry
    if s.mgmt.halting || Config.blocks < co.blocksUsed + p.hregs then s
    else
      let regs : List Word := [loWord m.dest, loWord m.len] ++ m.arg
      let sr := (List.zip (List.range 6) regs).foldl (fun t q => SMap.set 0 t q.1 q.2) []
      let k : Ctx :=
        { live := true, mode := .simt, groups := 1, base := b, bound := true, part := p.part, vf := m.vf, asid := p.asid
          window := p.window, handler := true, zone := m.entry, blocks := p.hregs, nregs := Ctx.regsFor p.hregs 32
          spadBase := p.zoneBase * 256, spadLen := p.zoneSize * 256, sr := sr
          flows := [(255, { pc := m.handler, masks := startMasks .simt 1, landing := some (0, 0) })] }
      let s := s.updCore c (fun co => { invalidateL1 co with messages := rest })
      let s := s.install c x k []
      match m.sender with
      | none => s
      | some (sc, sx) =>
        match (s.ctx sc sx).engineHead 3 with
        | some cmd => match cmd.op with
          | .send _ compl => if cmd.done ≠ 0 then s.complete sc sx cmd compl 0 else s
          | _ => s
        | none => s
  | _, _, _ => s

/-- ACTIVE_MESSAGE: a message from an active-message QP is refused, answered with RNR NAK, or accepted. -/
def State.inboundMessage (s : State) (qp : Nat) (bs : List Byte) : State :=
  match SMap.find? s.att.qps qp with
  | none => s
  | some q =>
    if q.error then s.reply .accessNak
    else if q.kind ≠ 2 then s
    else
      let part := (SMap.get {} s.att.vfs q.vf).part
      let short := bs.length < 32 ∨ bs.length < 32 + fieldAt bs 2 2 ∨ 4096 < bs.length
      if short ∨ s.messageStatus part bs ≠ 0 then (s.logRefusal 0x600 qp).reply .accessNak
      else if (s.core (fieldAt bs 12 2)).handlersFree = 0 then s.reply .rnrNak
      else (s.acceptMessage q.vf bs none).reply .done

end Sys2Proof.Machine
end

