-- ==== Sys2Proof/Machine/Mipex.lean ====
section
/-! DEFINITION. Mipex.lean: Mipex code: its stream (19 R380), what its slots accept and what is refused at load (R381), the
meaning of its bundles (R382), and the translation into native VLIW code (R383). -/

namespace Sys2Proof.Machine

/-! ### The stream (19 R380) -/

/-- An op of a Mipex bundle: its native slot, where its op word stands, its words, and how they are read. -/
structure MipexOp where
  slot : Nat
  addr : Nat
  words : List Word
  info : Info
  deriving DecidableEq, Repr

/-- A Mipex bundle at its code address, with the bytes it takes and XC of its header. -/
structure MipexBundle where
  addr : Nat
  len : Nat
  xc : Nat
  ops : List MipexOp
  deriving DecidableEq, Repr

/-- MASK and XC of a header; none where it is no header or has a reserved bit set. -/
def mipexHeader (w : Word) : Option (BitVec 4 × Nat) :=
  if w.extractLsb' 30 2 = 0b10 ∧ w.extractLsb' 28 2 = 0 ∧ w.extractLsb' 0 21 = 0 then
    some (w.extractLsb' 24 4, (w.extractLsb' 21 3).toNat)
  else none

/-- The native slot of an op in Mipex slot 0 x, 1 y, 2 m or 3 c (19 R381); none for a class that the slot does not take. -/
def mipexSlot (letter xc major : Nat) : Option Nat :=
  match letter, classOf major with
  | 0, .c => some xc
  | 1, .k => some 10
  | 2, .ld => some 8
  | 2, .st => some 9
  | 2, .mx => some 12
  | 2, .aq => some 13
  | 2, .sc => some 14
  | 3, .br => some 15
  | _, _ => none

/-- One op: its op word, and its extended word where its FORM is 10. -/
def takeMipexOp (letter xc addr : Nat) (bs : List Byte) : Option (MipexOp × List Byte) :=
  (takeWord bs).bind (fun p =>
    let rest : Option (List Word × List Byte) :=
      if hasExt p.1 then (takeWord p.2).map (fun q => ([q.1], q.2)) else some ([], p.2)
    rest.bind (fun r =>
      match parse p.1 (r.1.headD 0), mipexSlot letter xc (fMajor p.1).toNat with
      | .ok n, some slot => some (⟨slot, addr, p.1 :: r.1, n⟩, r.2)
      | _, _ => none))

/-- The ops of a bundle in the order x, y, m, c. -/
def takeMipexOps (xc : Nat) : List Nat → Nat → List Byte → Option (List MipexOp × List Byte)
  | [], _, bs => some ([], bs)
  | l :: r, addr, bs =>
    (takeMipexOp l xc addr bs).bind (fun p =>
      (takeMipexOps xc r (addr + 4 * p.1.words.length) p.2).map (fun q => (p.1 :: q.1, q.2)))

/-- One bundle at a code address. -/
def takeMipexBundle (addr : Nat) (bs : List Byte) : Option (MipexBundle × List Byte) :=
  (takeWord bs).bind (fun h =>
    (mipexHeader h.1).bind (fun m =>
      (takeMipexOps m.2 ((List.range 4).filter (fun i => m.1.getLsbD i)) (addr + 4) h.2).map (fun p =>
        (⟨addr, bs.length - p.2.length, m.2, p.1⟩, p.2))))

/-- The bundles of a Mipex section; none where it does not hold bundles alone. The fuel bounds its words. -/
def parseMipex : Nat → Nat → List Byte → Option (List MipexBundle)
  | _, _, [] => some []
  | 0, _, _ => none
  | fuel + 1, addr, bs =>
    (takeMipexBundle addr bs).bind (fun p => (parseMipex fuel (addr + p.1.len) p.2).map (fun r => p.1 :: r))

/-! ### What is refused at load (19 R381) -/

def MipexBundle.branches (b : MipexBundle) : Bool := b.ops.any (fun o => isBranchOp o.info.major.toNat)

/-- The code address in a layout-I word: that of `bra`, of `call`, and END of `loop`. -/
def MipexOp.target (o : MipexOp) : Option Nat :=
  match o.info.major.toNat with
  | 0x18 | 0x1A | 0x1F => o.words[1]?.map (fun x => (x.extractLsb' 0 18).toNat)
  | _ => none

/-- END of every loop. -/
def loopEnds (bs : List MipexBundle) : List Nat :=
  (bs.flatMap MipexBundle.ops).filterMap (fun o => if o.info.major = 0x1F then o.target else none)

/-- An op that a kernel of a number of clusters and N registers may hold. -/
def MipexOp.allowed (clusters nregs : Nat) (o : MipexOp) : Bool :=
  let m := o.info.major.toNat
  o.info.form != 3 && !(opd o.info).s && m != 0x26 && m != 0x1E && m != 0x21 && m != 0x22
    && (encodingCause o.info { simt := false, half := false, slot := o.slot, nregs := nregs, clusters := clusters }).isNone

/-- A bundle that may stand where it stands: XC is one of the kernel's clusters, no branch op stands at END of a loop, and every
target is a bundle. -/
def MipexBundle.allowed (bs : List MipexBundle) (clusters nregs : Nat) (b : MipexBundle) : Bool :=
  b.xc < clusters && b.ops.all (MipexOp.allowed clusters nregs) && !(b.branches && (loopEnds bs).contains b.addr)
    && b.ops.all (fun o => (o.target.elim true (fun t => bs.any (fun q => q.addr == t))))

/-! ### Meaning (19 R382) -/

/-- The slots of a bundle as a native header names them, and its words in their order. -/
def MipexBundle.slots (b : MipexBundle) : BitVec 16 := b.ops.foldl (fun m o => m ||| (1#16 <<< o.slot)) 0

def MipexBundle.words (b : MipexBundle) : List Word :=
  (List.range 16).flatMap (fun n => (b.ops.filter (fun o => o.slot == n)).flatMap MipexOp.words)

/-- A bundle alone in native form takes the bytes of its Mipex form. -/
def MipexBundle.alone (b : MipexBundle) : List Byte := (encHeader b.slots :: b.words).flatMap unitBytes

/-- The window of the current context holds Mipex code, each bundle in native form at its Mipex address. -/
def State.withMipex (bs : List MipexBundle) (s : State) : State :=
  let base := (SMap.get {} (s.core s.cur.core).codeWin s.cc.window).base * 4096
  let place : Memory → MipexBundle → Memory := fun m b =>
    (List.zip (List.range b.alone.length) b.alone).foldl (fun m p => m.write (base + b.addr + p.1) p.2) m
  s.updCore s.cur.core (fun co => { co with istore := bs.foldl place co.istore })

/-- A bundle of Mipex code issues for the current flow: it reads every operand and writes every result, which the next bundle
sees, loads among them; a taken branch continues at its target at once, and a call returns to the bundle behind its own. The
code around it is that of the Mipex section, and a cause is raised as the bundle alone in native form raises it. -/
def issueMipex (bs : List MipexBundle) (b : MipexBundle) (s : State) : State :=
  let c := s.cur.core
  let x := s.cur.ctx
  let istore := (s.core c).istore
  let next := BitVec.ofNat 32 (b.addr + b.len)
  let t := runBundle (b.ops.map (fun o => (o.slot, o.info))) (BitVec.ofNat 32 b.addr) next (s.withMipex bs)
  let t := t.updCore c (fun co => { co with istore := istore })
  let calls := b.ops.any (fun o => o.info.major == 0x1A || o.info.major == 0x1B)
  if !(t.ctx c x).live || (t.ctx c x).icyc == s.cc.icyc then t
  else t.updCtx c x (fun k =>
    let k := k.landAll.returnLoads
    let k := if calls && k.delay.isSome then { k with ras := k.ras.dropLast ++ (k.ras.getLast?.map (fun r => { r with addr := next })).toList } else k
    match k.delay with
    | some d => { k.updFlow 255 (fun fl => { fl with pc := d.target, landing := d.landing }) with delay := none }
    | none => k)

/-! ### Translation (19 R383) -/

/-- A register that an op in a slot reads or writes: lane registers and predicates by cluster, none for every cluster. -/
abbrev MipexReg := Option Nat × Reg

def MipexOp.cluster (o : MipexOp) : Option Nat := if o.slot < 8 then some o.slot else none

def MipexOp.reads (o : MipexOp) : List MipexReg :=
  let p := opd o.info
  if p.major = 0x4F then [(some p.b, .v p.a)]
  else (opReads p false ++ (if p.lge then [Reg.p p.lg] else [])).map (fun r => (o.cluster, r))

def MipexOp.writes (o : MipexOp) : List MipexReg := (opWrites (opd o.info) false).map (fun r => (o.cluster, r))

def sameReg (a b : MipexReg) : Bool :=
  a.2 == b.2 && (match a.2, a.1, b.1 with
    | .v _, some c, some d | .p _, some c, some d => c == d
    | _, _, _ => true)

/-- The latency after which an op's results are visible (09 R185); none where the hardware interlocks them (09 R188). -/
def MipexOp.latency (o : MipexOp) : Option Nat :=
  let p := opd o.info
  if (p.major = 0x50 ∨ p.major = 0x52) ∧ p.space ≠ 0 then none else some (latencyOf p)

/-- Results that are due: a register and the issue cycle from which it is visible. -/
abbrev MipexDue := List (MipexReg × Nat)

/-- The first issue cycle, not before `cycle`, at which a bundle may issue: everything it reads has landed, and no result of
its own lands before an earlier one of the same register. -/
def MipexBundle.issueAt (b : MipexBundle) (due : MipexDue) (cycle : Nat) : Nat :=
  b.ops.foldl (fun m o =>
    let m := o.reads.foldl (fun m r => due.foldl (fun m d => if sameReg d.1 r then max m d.2 else m) m) m
    o.writes.foldl (fun m w => due.foldl (fun m d => if sameReg d.1 w then max m (d.2 - o.latency.getD 0) else m) m) m) cycle

/-- The results of a bundle issued in a cycle. -/
def MipexBundle.results (b : MipexBundle) (cycle : Nat) : MipexDue :=
  b.ops.flatMap (fun o => match o.latency with
    | some l => o.writes.map (fun w => (w, cycle + l))
    | none => [])

def lastDue (due : MipexDue) (cycle : Nat) : Nat := due.foldl (fun m d => max m d.2) cycle

/-- Is an op one that may continue elsewhere than behind its bundle, and in how many issue cycles: 3 for a taken branch, 1 for
a `loop` that skips its body? -/
def MipexBundle.leap (b : MipexBundle) : Option Nat :=
  if b.ops.any (fun o => o.info.major = 0x1F) then some 1
  else if b.ops.any (fun o => isBranchOp o.info.major.toNat && o.info.major != 0x24) then some 3
  else none

/-- Results of a branch's own bundle that land after the branch has reached its target. -/
def MipexBundle.residue (b : MipexBundle) : Nat :=
  match b.leap with
  | some n => (lastDue (b.results 0) 0) - n
  | none => 0

/-- A landing pad stands at the bundle. -/
def MipexBundle.pad (b : MipexBundle) : Bool := b.ops.any (fun o => padKind o.info != [])

/-- The bundles at which a path may arrive that is not their predecessor's: targets, the starts and the ends of loops, the
returns of calls, landing pads and kernel entries. -/
def arrivals (bs : List MipexBundle) (entries : List Nat) : List Nat :=
  entries
    ++ (bs.flatMap MipexBundle.ops).filterMap (fun o => if o.info.major = 0x1F then none else o.target)
    ++ (bs.filter MipexBundle.pad).map MipexBundle.addr
    ++ (bs.filter (fun b => b.leap.isSome)).map (fun b => b.addr + b.len)
    ++ (bs.filter (fun b => (loopEnds bs).contains b.addr)).map (fun b => b.addr + b.len)

/-- A Mipex bundle with the native bundles around it: a bundle of its landing pad alone, where results of a branch to the pad
land before the bundle's other ops may read them; the empty bundles before it, after it because it is a branch, and after it
because a loop ends with it or results land behind its landing pad. -/
structure MipexGroup where
  bundle : MipexBundle
  lead : Bool
  before : Nat
  delay : Nat
  after : Nat
  deriving DecidableEq, Repr

/-- One bundle is placed behind those before it: answers its group, the issue cycle after the group, and what is due. -/
def placeMipex (bs : List MipexBundle) (entries : List Nat) (residue : Nat) (b : MipexBundle) (cycle : Nat) (due : MipexDue) :
    MipexGroup × Nat × MipexDue :=
  let arrives := (arrivals bs entries).contains b.addr
  let lead := b.pad && b.ops.length != 1 && residue != 0
  let first := if lead then cycle + 1 else cycle
  let start := if arrives then lastDue due first else first
  let start := if lead || arrives && !b.pad then max start (first + residue) else start
  let ready := b.issueAt due start
  let issue := match b.leap with
    | some n => max ready (lastDue due 0 - n)
    | none => ready
  let due := due.filter (fun d => issue < d.2) ++ b.results issue
  let delay := if b.leap = some 3 then 2 else 0
  let next := issue + 1 + delay
  let next' := if (loopEnds bs).contains b.addr then lastDue due next else if b.pad && !lead then next + residue else next
  (⟨b, lead, issue - first, delay, next' - next⟩, next', due)

/-- Every bundle is placed in turn. -/
def placeAllMipex (all : List MipexBundle) (entries : List Nat) (residue : Nat) : List MipexBundle → Nat → MipexDue → List MipexGroup
  | [], _, _ => []
  | b :: r, cycle, due =>
    let p := placeMipex all entries residue b cycle due
    p.1 :: placeAllMipex all entries residue r p.2.1 p.2.2

/-- The ops that the bundle of a landing pad alone holds. -/
def MipexGroup.leadOps (g : MipexGroup) : List MipexOp := if g.lead then g.bundle.ops.filter (fun o => padKind o.info != []) else []

/-- The ops of the native bundle itself. -/
def MipexGroup.rest (g : MipexGroup) : MipexBundle :=
  if g.lead then { g.bundle with ops := g.bundle.ops.filter (fun o => padKind o.info == []) } else g.bundle

/-- The bytes of the native bundles that come before the bundle itself. -/
def MipexGroup.ahead (g : MipexGroup) : Nat :=
  4 * ((if g.lead then 1 + (g.leadOps.map (fun o => o.words.length)).sum else 0) + g.before)

def MipexGroup.size (g : MipexGroup) : Nat :=
  g.ahead + 4 * (1 + (g.rest.ops.map (fun o => o.words.length)).sum + g.delay + g.after)

/-- The groups with their native addresses. -/
def layMipex : Nat → List MipexGroup → List (Nat × MipexGroup)
  | _, [] => []
  | a, g :: r => (a, g) :: layMipex (a + g.size) r

/-- The native address of the bundle itself. -/
def bundleAt (p : Nat × MipexGroup) : Nat := p.1 + p.2.ahead

/-- The native address at which a path arrives at a bundle: its landing pad, or the empty bundles before it. -/
def entryAt (p : Nat × MipexGroup) : Nat := if p.2.bundle.pad && !p.2.lead then bundleAt p else p.1

/-- The native address of the last bundle of a group. -/
def endAt (p : Nat × MipexGroup) : Nat :=
  if p.2.after = 0 ∧ p.2.delay = 0 then bundleAt p else p.1 + p.2.size - 4

/-- The native address for a Mipex address. -/
def nativeFor (ps : List (Nat × MipexGroup)) (f : Nat × MipexGroup → Nat) (a : Nat) : Nat :=
  ((ps.find? (fun p => p.2.bundle.addr == a)).map f).getD a

/-- The words of an op with its code addresses rewritten: a layout-I word's target, END of a loop, and the words that the
code-address table lists. -/
def MipexOp.rewrite (o : MipexOp) (ps : List (Nat × MipexGroup)) (crel : List Nat) : List Word :=
  let put : Word → Nat → Word := fun w a => (w &&& 0xFFFC0000) ||| (BitVec.ofNat 32 a &&& 0x3FFFF)
  (List.zip (List.range o.words.length) o.words).map (fun p =>
    let t := (p.2.extractLsb' 0 18).toNat
    if p.1 = 1 ∧ o.target.isSome then put p.2 (nativeFor ps (if o.info.major = 0x1F then endAt else entryAt) t)
    else if crel.contains (o.addr + 4 * p.1) then put p.2 (nativeFor ps entryAt t)
    else p.2)

/-- The native units of a group: empty bundles and the bundle, its ops in ascending slot order. -/
def MipexGroup.units (g : MipexGroup) (ps : List (Nat × MipexGroup)) (crel : List Nat) : List Word :=
  let native : List MipexOp → List Word := fun ops =>
    encHeader (ops.foldl (fun m o => m ||| (1#16 <<< o.slot)) 0)
      :: ((List.range 16).flatMap (fun n => ops.filter (fun o => o.slot == n))).flatMap (fun o => o.rewrite ps crel)
  (if g.lead then native g.leadOps else []) ++ List.replicate g.before (encHeader 0) ++ native g.rest.ops
    ++ List.replicate (g.delay + g.after) (encHeader 0)

/-- Native code, and the map from its bundles to the Mipex bundle of each. -/
structure Translated where
  code : List Byte
  /-- native address, Mipex address -/
  map : List (Nat × Nat)
  /-- Mipex entry, native entry -/
  entries : List (Nat × Nat)
  deriving DecidableEq, Repr

/-- The native code of Mipex bundles from a window offset on; no bundles are joined, which R383 leaves to the translator. (log
114, DESIGN CHOICE) -/
def translateMipex (bs : List MipexBundle) (entries crel : List Nat) (base : Nat) : Translated :=
  let residue := bs.foldl (fun m b => max m b.residue) 0
  let ps := layMipex base (placeAllMipex bs entries residue bs 0 [])
  { code := (ps.flatMap (fun p => p.2.units ps crel)).flatMap unitBytes
    map := ps.flatMap (fun p => (if p.2.lead then [(p.1, p.2.bundle.addr)] else [])
      ++ (List.range p.2.before).map (fun i => (bundleAt p - 4 * (p.2.before - i), p.2.bundle.addr)) ++ [(bundleAt p, p.2.bundle.addr)]
      ++ (List.range (p.2.delay + p.2.after)).map (fun i => (p.1 + p.2.size - 4 * (p.2.delay + p.2.after - i), p.2.bundle.addr)))
    entries := entries.map (fun e => (e, nativeFor ps entryAt e)) }

end Sys2Proof.Machine
end

