-- ==== Sys2Proof/Machine/Save.lean ====
section
/-! DEFINITION. Save.lean: the save area of a context as bytes, its checks, and the return of a context from it (10 R209,
R415; 03 R59). -/

namespace Sys2Proof.Machine

/-! ### Late-write entries (10 R206) -/

/-- One late-write entry: the writes of one register, port, predicate or scale quarter of one cluster. -/
structure LateEntry where
  remain : Nat
  order : Nat
  kind : Nat
  cluster : Nat
  index : Nat
  port : Nat
  /-- lane within the cluster, value -/
  vals : List (Nat × Word)
  deriving DecidableEq, Repr

/-- KIND, CLUSTER, INDEX and lane of a write. -/
def Write.lateSite (w : Write) : Nat × Nat × Nat × Nat :=
  match w.dst with
  | .v r l => (1, l / 16, r, l % 16)
  | .port p l => (2, l / 16, p, l % 16)
  | .p n l => (4, l / 16, n, l % 16)
  | .scale g e => (5, 0, 4 * g + e / 16, e % 16)
  | .s r => (6, 0, r, 0)

/-- The entries of one result: its writes by register and cluster; the first register of a cluster takes its port with
it, and the port has no entry of its own. -/
def lateEntries (remain : Nat) (ws : List Write) : List LateEntry :=
  let sites := (ws.map (fun w => (w.lateSite.1, w.lateSite.2.1, w.lateSite.2.2.1))).eraseDups
  let vals : Nat × Nat × Nat → List (Nat × Word) := fun q =>
    (ws.filter (fun w => w.lateSite.1 == q.1 && w.lateSite.2.1 == q.2.1 && w.lateSite.2.2.1 == q.2.2)).map
      (fun w => (w.lateSite.2.2.2, w.val))
  let port : Nat → Option Nat := fun c => (sites.find? (fun q => q.1 == 2 && q.2.1 == c)).map (fun q => q.2.2)
  let firstReg : Nat → Option Nat := fun c => (sites.find? (fun q => q.1 == 1 && q.2.1 == c)).map (fun q => q.2.2)
  let kept := sites.filter (fun q => !(q.1 == 2 && (firstReg q.2.1).isSome))
  kept.map (fun (q : Nat × Nat × Nat) =>
    let both := if q.1 = 1 ∧ firstReg q.2.1 = some q.2.2 then port q.2.1 else none
    { remain := remain, order := 0, kind := if both.isSome then 3 else q.1, cluster := q.2.1, index := q.2.2
      port := both.getD 0, vals := vals q })

def LateEntry.toBytes (e : LateEntry) : List Byte :=
  let word : Nat → Word := fun l => ((e.vals.find? (fun p => p.1 == l)).map Prod.snd).getD 0
  let bits : Nat := (e.vals.map (fun p => if p.2 = 0 then 0 else 2 ^ p.1)).sum
  let mask : Nat := (e.vals.map (fun p => 2 ^ p.1)).sum
  let value := if e.kind = 4 then padTo 64 (leBytes 2 bits)
    else if e.kind = 6 then padTo 64 (leBytes 4 (word 0).toNat)
    else ((List.range 16).map (fun l => leBytes 4 (word l).toNat)).flatten
  padTo 80 (value ++ leBytes 2 (if e.kind = 6 then 0 else if e.kind = 5 then 0xFFFF else mask)
    ++ [byteOf e.kind, byteOf e.cluster, byteOf e.index, byteOf e.remain, byteOf e.order, byteOf e.port])

/-- Every late-write entry of a context: those that wait for `uiret`, and the results in flight; ORDER ranks the
entries of equal REMAIN (10 R206). -/
def Ctx.lateBuffer (k : Ctx) : List LateEntry :=
  let fs := k.lwb.map (fun f => (f.due, f.writes)) ++ k.flight.map (fun f => (f.due - k.icyc, f.writes))
  (fs.flatMap (fun p => lateEntries p.1 p.2)).foldl (fun (es : List LateEntry) e =>
    es ++ [{ e with order := (es.filter (fun d => d.remain == e.remain)).length }]) []

/-- A late-write entry from its bytes. -/
def LateEntry.ofBytes (bs : List Byte) : LateEntry :=
  let kind := fieldAt bs 66 1
  let mask := fieldAt bs 64 2
  let lanes := (List.range 16).filter (fun l => mask.testBit l)
  { kind := kind, cluster := fieldAt bs 67 1, index := fieldAt bs 68 1, remain := fieldAt bs 69 1, order := fieldAt bs 70 1
    port := fieldAt bs 71 1
    vals := if kind = 6 then [(0, BitVec.ofNat 32 (fieldAt bs 0 4))]
      else if kind = 4 then lanes.map (fun l => (l, if (fieldAt bs 0 2).testBit l then 1 else 0))
      else lanes.map (fun l => (l, BitVec.ofNat 32 (fieldAt bs (4 * l) 4))) }

/-- The register writes of an entry. A lane register's port takes 0 in the elements that were inactive (15 R290). -/
def LateEntry.writes (e : LateEntry) : List Write :=
  let idle := if e.kind = 3 then (List.range 16).filter (fun l => e.vals.all (fun p => p.1 != l)) else []
  idle.map (fun l => ⟨.port e.port (16 * e.cluster + l), 0⟩) ++ e.vals.flatMap (fun p =>
    let l := 16 * e.cluster + p.1
    match e.kind with
    | 1 => [⟨.v e.index l, p.2⟩]
    | 2 => [⟨.port e.index l, p.2⟩]
    | 3 => [⟨.v e.index l, p.2⟩, ⟨.port e.port l, p.2⟩]
    | 4 => [⟨.p e.index l, p.2⟩]
    | 5 => [⟨.scale (e.index / 4) (e.index % 4 * 16 + p.1), p.2⟩]
    | 6 => [⟨.s e.index, p.2⟩]
    | _ => [])

/-- The entries of a late-write buffer in the order in which they land. -/
def insertLate (e : LateEntry) : List LateEntry → List LateEntry
  | [] => [e]
  | d :: r => if e.order ≤ d.order then e :: d :: r else d :: insertLate e r

/-! ### Records of flows, parked passes, arrivals and shadows (10 R415) -/

/-- Fragments placed in detach order. -/
def insertFrag (p : Nat × Flow) : List (Nat × Flow) → List (Nat × Flow)
  | [] => [p]
  | q :: r => if p.2.detach ≤ q.2.detach then p :: q :: r else q :: insertFrag p r

def Ctx.fragments (k : Ctx) : List (Nat × Flow) := (k.flows.filter (fun p => p.1 < 64)).foldr insertFrag []

/-- Next pass index inside a stop group; 0xFF at a group boundary. -/
def Flow.passByte (f : Flow) : Nat := match f.group with
  | some g => g.pass
  | none => 0xFF

def retBytes (n : Nat) (es : List RetEntry) : List Byte := padTo n ((es.map (fun r => leBytes 4 r.addr.toNat)).flatten)

def fragRecord (index order : Nat) (f : Flow) : List Byte :=
  padTo 128 (leBytes 4 f.here.toNat ++ leBytes 4 (groupValid f.masks).toNat
    ++ [byteOf index, byteOf order, byteOf f.passByte, byteOf f.overlay.length] ++ retBytes 16 f.overlay.reverse)
    ++ maskBytes f.masks

def ParkedPass.toBytes (p : ParkedPass) : List Byte :=
  padTo 256 (leBytes 4 p.addr.toNat ++ [byteOf p.group, byteOf p.flow, byteOf p.pos, 0] ++ leBytes 4 p.lanes.toNat)

/-- The scalar words of a layout word as they were read. -/
def LayoutWord.raw (l : LayoutWord) : List Nat :=
  [l.base, l.s1 * 65536 + l.s0, (if l.orient then 2 ^ 20 else 0) + l.swz * 65536 + l.s2]

/-- The scalar operands of an arrival's record (10 R415). -/
def MxArrival.words (a : MxArrival) : List Nat :=
  ([a.op.ld, a.op.la, a.op.lb].filterMap id).flatMap LayoutWord.raw ++ [a.op.scalar.toNat]

def MxArrival.toBytes (a : MxArrival) : List Byte :=
  let scl := if a.scl || a.stale then 2 ^ 31 else 0
  padTo 32 (leBytes 4 (a.site.toNat % 2 ^ 18 + scl) ++ leBytes 4 a.arrived.toNat
    ++ ((a.words.take 6).map (leBytes 4)).flatten)

/-- A layout word from its three scalar words (17 R337). -/
def LayoutWord.ofRaw (b c d : Word) : LayoutWord :=
  { base := b.toNat, s1 := bitsOf c.toNat 31 16, s0 := bitsOf c.toNat 15 0, orient := bitsOf d.toNat 20 20 == 1
    swz := bitsOf d.toNat 19 16, s2 := bitsOf d.toNat 15 0 }

/-- An arrival as its record says it, over the operation that the model keeps of it. -/
def MxArrival.ofBytes (a : MxArrival) (bs : List Byte) : MxArrival :=
  let w : Nat → Word := fun i => BitVec.ofNat 32 (fieldAt bs (8 + 4 * i) 4)
  let take : Nat × Option LayoutWord → Nat × Option LayoutWord := fun p => match p.2 with
    | some _ => (p.1 + 3, some (LayoutWord.ofRaw (w p.1) (w (p.1 + 1)) (w (p.1 + 2))))
    | none => p
  let d := take (0, a.op.ld)
  let l := take (d.1, a.op.la)
  let r := take (l.1, a.op.lb)
  let written := fieldAt bs 3 1 / 128 == 1
  { a with site := BitVec.ofNat 32 (fieldAt bs 0 4 % 2 ^ 18), arrived := BitVec.ofNat 32 (fieldAt bs 4 4)
           op := { a.op with ld := d.2, la := l.2, lb := r.2, scalar := if r.1 < 6 then w r.1 else a.op.scalar }
           scl := written, stale := written }

/-- The stop-group shadows of a context with their flows. -/
def Ctx.shadowEntries (k : Ctx) : List (Nat × Shadow) :=
  k.flows.flatMap (fun p => match p.2.group with
    | some g => g.shadow.map (fun e => (p.1, e))
    | none => [])

def shadowBytes (p : Nat × Shadow) : List Byte :=
  leBytes 4 p.2.val.toNat ++ [byteOf p.2.kind, byteOf p.2.num, byteOf p.1, 0]

/-! ### The regions (10 R209) -/

/-- MODE as in the launch packet (04 R79). -/
def Ctx.modeByte (k : Ctx) : Nat :=
  match k.mode with
  | .simt => 0
  | .half => 1
  | .vliw => 2 + 4 * Nat.log2 (max k.clusters 1)

def Ctx.saveHeader (k : Ctx) (passes age : Nat) : List Byte :=
  let f := k.flow 255
  let flags := (if k.refill then 1 else 0) + (if k.inHandler then 2 else 0) + (if k.task.isSome then 4 else 0)
  padTo 256 (leBytes 2 1
    ++ [byteOf k.modeByte, byteOf k.groups, byteOf k.fragments.length, byteOf (k.seams.length + k.loops.length),
        byteOf passes, 0]
    ++ leBytes 2 k.blocks ++ leBytes 2 k.lateBuffer.length ++ leBytes 4 k.spadLen ++ leBytes 4 f.here.toNat
    ++ [byteOf k.window, byteOf f.passByte, byteOf flags, 0] ++ leBytes 4 (if k.vliw then 0 else groupValid f.masks).toNat
    ++ leBytes 4 k.stackSpilled ++ leBytes 8 age ++ [byteOf k.mxArr.length, byteOf k.shadowEntries.length])

def Ctx.saveSettings (k : Ctx) : List Byte :=
  padTo 256 ((([k.privLo, k.privHi, k.privSz, k.tileLo, k.tileHi, k.uivec].map (fun w => leBytes 4 w.toNat)).flatten)
    ++ leBytes 4 k.uipend.toNat ++ leBytes 4 k.uimask.toNat
    ++ (([k.uipc, k.uisrc, k.cycleHi, k.restartWord].map (fun w => leBytes 4 w.toNat)).flatten)
    ++ leBytes 8 k.taskCycles ++ leBytes 4 (k.ps.toNat + (if k.yield then 256 else 0)) ++ leBytes 4 k.rasSpilled
    ++ leBytes 4 k.ras.length ++ leBytes 4 k.batchNext)

/-- Words of a context by lane: the port file, cluster-major; zero in SIMT mode. -/
def Ctx.savePorts (k : Ctx) : List Byte :=
  ((List.range 8).flatMap (fun c => (List.range 3).flatMap (fun p => (List.range 16).flatMap (fun l =>
    leBytes 4 (if k.vliw then (k.readPort p (16 * c + l)).toNat else 0)))))

def Ctx.savePatterns (k : Ctx) : List Byte :=
  (List.range 512).flatMap (fun i => match SMap.find? k.pats i with
    | some p => (p.words.map (fun w => leBytes 4 w.toNat)).flatten
    | none => List.replicate 32 0)

def Ctx.savePreds (k : Ctx) : List Byte :=
  (List.range 1024).map (fun l =>
    if l < k.laneCount then byteOf (((List.range 7).map (fun n => if k.readP (n + 1) l then 2 ^ n else 0)).sum) else 0)

def Ctx.saveLanes (k : Ctx) : List Byte :=
  padTo (k.blocks * 1024) ((List.range k.nregs).flatMap (fun r => (List.range k.laneCount).flatMap (fun l =>
    leBytes 4 (k.readV r l).toNat)))

/-- The lane masks of the main flow; those of a VLIW team name the lanes of its clusters. -/
def Ctx.mainMasks (k : Ctx) : SMap Word :=
  if k.vliw then (List.range ((k.laneCount + 31) / 32)).map (fun g => (g, if 32 * g + 32 ≤ k.laneCount then 0xFFFFFFFF#32 else 0xFFFF#32))
  else (k.flow 255).masks

/-- The save area of a context, with its parked passes, its age and its scratchpad bytes. -/
def Ctx.saveBytes (k : Ctx) (passes : List ParkedPass) (age : Nat) (spad : List Byte) : List Byte :=
  let fr := k.fragments
  k.saveHeader passes.length age
    ++ ((List.range 64).flatMap (fun n => leBytes 4 (k.readS n).toNat))
    ++ k.saveSettings
    ++ padTo 256 (maskBytes k.mainMasks ++ retBytes 64 k.ras)
    ++ k.savePorts
    ++ padTo 30720 ((k.lateBuffer.map LateEntry.toBytes).flatten)
    ++ k.savePatterns
    ++ k.savePreds
    ++ ((List.zip (List.range fr.length) fr).flatMap (fun p => fragRecord p.2.1 p.1 p.2.2))
    ++ (k.seams.flatMap Seam.record)
    ++ (k.loops.flatMap LoopEntry.record)
    ++ (passes.flatMap ParkedPass.toBytes)
    ++ (k.mxArr.flatMap MxArrival.toBytes)
    ++ (k.shadowEntries.flatMap shadowBytes)
    ++ ((List.range 4).flatMap (fun g => (List.range 64).flatMap (fun e => leBytes 4 (k.readScale g e).toNat)))
    ++ k.saveLanes
    ++ spad

/-! ### Reading a save area -/

/-- Where the regions after the fragments begin: fragments, entries, parked passes, arrivals, shadows, scales, lanes,
scratchpad. -/
structure SaveShape where
  frags : Nat
  entries : Nat
  passes : Nat
  arrivals : Nat
  shadows : Nat
  scales : Nat
  lanes : Nat
  spad : Nat
  stop : Nat
  deriving DecidableEq, Repr

def saveShape (h : List Byte) : SaveShape :=
  let e := 0xC600 + 256 * fieldAt h 4 1
  let p := e + 256 * fieldAt h 5 1
  let a := p + 256 * fieldAt h 6 1
  let sd := a + 32 * fieldAt h 40 1
  let sc := sd + 8 * fieldAt h 41 1
  let ln := sc + 1024
  let sp := ln + 1024 * fieldAt h 8 2
  { frags := 0xC600, entries := e, passes := p, arrivals := a, shadows := sd, scales := sc, lanes := ln, spad := sp, stop := sp + fieldAt h 12 4 }

/-- Are n bytes zero? -/
def zeroRun (bs : List Byte) (off n : Nat) : Bool := ((bs.drop off).take n).all (fun b => b == 0)

/-- The header is acceptable: VERSION, reserved bits, the ranges of its counts, and what a context off-core cannot change
(notes/assumptions/23.md). -/
def Ctx.headerOk (k : Ctx) (h : List Byte) : Bool :=
  fieldAt h 0 2 == 1 && zeroRun h 7 1 && fieldAt h 22 1 < 8 && zeroRun h 23 1 && zeroRun h 42 214
    && fieldAt h 4 1 ≤ 19 && fieldAt h 5 1 ≤ 16 && fieldAt h 10 2 ≤ 384
    && fieldAt h 2 1 == k.modeByte && fieldAt h 3 1 == k.groups && fieldAt h 6 1 == k.passes.length
    && fieldAt h 8 2 == k.blocks && fieldAt h 12 4 == k.spadLen && fieldAt h 40 1 == k.mxArr.length

/-- The bytes that R415 does not assign in a seam or loop record, by its KIND; a seam entry's byte 16 and a loop entry's
masks are laid down as 0, as are the path of an entry that has none. -/
def entryZero (r : List Byte) : Bool :=
  zeroRun r 3 1 && zeroRun r 17 111 && (match fieldAt r 0 1 with
    | 1 => zeroRun r 8 9
    | 2 => zeroRun r 16 1
    | 3 => fieldAt r 2 1 < 2 && zeroRun r 128 128
    | _ => false)

/-- The n records of a size from an offset on. -/
def recordsAt (bs : List Byte) (off size n : Nat) : List (List Byte) :=
  (List.range n).map (fun i => (bs.drop (off + size * i)).take size)

/-- Every byte that no layout assigns is zero (10 R415). -/
def Ctx.unassignedZero (k : Ctx) (sh : SaveShape) (bs : List Byte) : Bool :=
  zeroRun bs 0x21A 2 && zeroRun bs 0x21E 2 && fieldAt bs 0x239 1 < 2 && zeroRun bs 0x23A 2 && zeroRun bs 0x246 0xBA
    && zeroRun bs (0x380 + 4 * fieldAt bs 0x240 4) (0x80 - 4 * fieldAt bs 0x240 4)
    && zeroRun bs (0xA00 + 80 * fieldAt bs 10 2) (0x7800 - 80 * fieldAt bs 10 2)
    && (recordsAt bs 0xA00 80 (fieldAt bs 10 2)).all (fun r => zeroRun r 72 8)
    && zeroRun bs (0xC200 + k.laneCount) (0x400 - k.laneCount)
    && (recordsAt bs 0xC200 1 0x400).all (fun r => fieldAt r 0 1 < 128)
    && (recordsAt bs sh.frags 256 (fieldAt bs 4 1)).all (fun r =>
      zeroRun r (12 + 4 * fieldAt r 11 1) (116 - 4 * fieldAt r 11 1))
    && (recordsAt bs sh.entries 256 (fieldAt bs 5 1)).all entryZero
    && (recordsAt bs sh.passes 256 (fieldAt bs 6 1)).all (fun r => zeroRun r 7 1 && zeroRun r 12 244)
    && (List.zip k.mxArr (recordsAt bs sh.arrivals 32 (fieldAt bs 40 1))).all (fun p =>
      fieldAt p.2 0 4 / 2 ^ 18 % 2 ^ 13 == 0 && zeroRun p.2 (8 + 4 * p.1.words.length) (24 - 4 * p.1.words.length))
    && (recordsAt bs sh.shadows 8 (fieldAt bs 41 1)).all (fun r => zeroRun r 7 1)
    && zeroRun bs (sh.lanes + 4 * (k.nregs * k.laneCount)) (sh.spad - (sh.lanes + 4 * (k.nregs * k.laneCount)))

/-- The PCs of a save area. -/
def savedPcs (sh : SaveShape) (bs : List Byte) : List Nat :=
  fieldAt bs 16 4 :: (List.range ((sh.entries - sh.frags) / 256)).map (fun i => fieldAt bs (sh.frags + 256 * i) 4)

/-- Words at an offset as the nonzero entries of a map. -/
def wordsAt (a : Array Byte) (off n : Nat) (key : Nat → Nat) : SMap Word :=
  ((List.range n).map (fun i =>
    (key i, BitVec.ofNat 32 (leNat ((List.range 4).map (fun b => a.getD (off + 4 * i + b) 0)))))).foldl
      (fun m p => SMap.set 0 m p.1 p.2) []

/-- The stop group of a flow as its saved position and pass say it: none at a group boundary, or where the position is no
instruction of the group. -/
def Flow.reloadGroup (f : Flow) (pc : Word) (pass : Nat) (shadow : List Shadow) : Option StopGroup :=
  if pass = 0xFF then none
  else f.group.bind (fun g => (g.ops.findIdx? (fun o => o.addr == pc)).map (fun i =>
    { g with pass := pass, pos := i, shadow := shadow }))

/-- A flow as saved: what it holds beside its record stays where its position is the one saved. -/
def Flow.reload (f : Flow) (pc : Word) (pass : Nat) (shadow : List Shadow) (masks : SMap Word) : Flow :=
  let wait : Wait := match f.wait with
    | .barrier p sc => .barrier p sc
    | .matrixTeam => .matrixTeam
    | .ended => .ended
    | .handler => .handler
    | _ => .none
  let g := f.reloadGroup pc pass shadow
  { f with pc := if g.isSome then f.pc else pc, masks := masks, group := g
           landing := if pc = f.here then f.landing else none, wait := wait, syncOwed := true }

/-- Return addresses as saved; the services of `callx` entries that still stand are kept. -/
def reloadRets (old : List RetEntry) (bs : List Byte) (off n : Nat) : List RetEntry :=
  (List.range n).map (fun i =>
    { addr := BitVec.ofNat 32 (fieldAt bs (off + 4 * i) 4), service := (old[i]?).bind RetEntry.service })

/-- The masks of a record: those of the groups that its group-valid word names. -/
def validMasks (gv : Nat) (m : SMap Word) : SMap Word := m.filter (fun p => gv.testBit p.1)

/-- The late-write buffer of a save area, an entry each: while the context is in its handler, as many as waited for `uiret`
when it was saved wait for it again (log 23, DESIGN CHOICE). -/
def Ctx.reloadLate (k : Ctx) (bs : List Byte) (handler : Bool) : Ctx :=
  let es := ((recordsAt bs 0xA00 80 (fieldAt bs 10 2)).map LateEntry.ofBytes)
  let waiting := if handler then (k.lwb.flatMap (fun f => lateEntries f.due f.writes)).length else 0
  let flights : Nat → List LateEntry → List Flight := fun base es =>
    (es.foldr insertLate []).map (fun e => { due := base + e.remain, writes := e.writes })
  { k with lwb := flights 0 (es.take waiting), flight := flights k.icyc (es.drop waiting) }

/-- The fragments of a save area, in detach order. -/
def Ctx.reloadFrags (k : Ctx) (bs : List Byte) (shadow : Nat → List Shadow) : List (Nat × Flow) :=
  (recordsAt bs (saveShape bs).frags 256 (fieldAt bs 4 1)).map (fun r =>
    let n := fieldAt r 8 1
    let old := k.flow n
    let f := old.reload (BitVec.ofNat 32 (fieldAt r 0 4)) (fieldAt r 10 1) (shadow n) (validMasks (fieldAt r 4 4) (masksOf r 128))
    (n, { f with detach := fieldAt r 9 1 + 1, overlay := (reloadRets old.overlay.reverse r 12 (min 4 (fieldAt r 11 1))).reverse }))

/-- The resident seam entries of a save area; a landing-pad check that a deferred path still owes is kept. -/
def Ctx.reloadSeams (k : Ctx) (rs : List (List Byte)) : List Seam :=
  (List.zip (List.range rs.length) rs).map (fun p =>
    let e := { Seam.ofRecord p.2 with calls := ((k.seams[p.1]?).map Seam.calls).getD 0 }
    match (k.seams[p.1]?).map Seam.deferred, e.deferred with
    | some (.waiting pc _ l), .waiting pc' m _ => { e with deferred := .waiting pc' m (if pc = pc' then l else none) }
    | _, _ => e)

/-- The resident loop entries of a save area; the iterations begun stand beside them. (log 46, DESIGN CHOICE) -/
def Ctx.reloadLoops (k : Ctx) (rs : List (List Byte)) : List LoopEntry :=
  (List.zip (List.range rs.length) rs).map (fun p =>
    { LoopEntry.ofRecord p.2 with begun := ((k.loops[p.1]?).map LoopEntry.begun).getD 0 })

/-- The parked passes of a save area, over the instructions that the model keeps of them. -/
def Ctx.reloadPasses (k : Ctx) (bs : List Byte) : List ParkedPass :=
  (List.zip k.passes (recordsAt bs (saveShape bs).passes 256 k.passes.length)).map (fun p =>
    { p.1 with addr := BitVec.ofNat 32 (fieldAt p.2 0 4), group := fieldAt p.2 4 1, flow := fieldAt p.2 5 1, pos := fieldAt p.2 6 1
               lanes := BitVec.ofNat 32 (fieldAt p.2 8 4) })

/-- A pattern entry as saved: all zero where it was never loaded. -/
def reloadPats (bs : List Byte) : SMap PatEntry :=
  (List.range 512).foldl (fun m i =>
    let ws := imageWords ((bs.drop (0x8200 + 32 * i)).take 32)
    if ws.all (fun w => w == 0) then m else SMap.insert m i { valid := (ws.headD 0).getLsbD 16, words := ws }) []

/-- The registers and records of a save area, over what the model keeps of the context (notes/assumptions/23.md). -/
def Ctx.reload (k : Ctx) (bs : List Byte) : Ctx :=
  let sh := saveShape bs
  let a := bs.toArray
  let w : Nat → Word := fun off => BitVec.ofNat 32 (fieldAt bs off 4)
  let shadows := (recordsAt bs sh.shadows 8 (fieldAt bs 41 1)).map (fun r =>
    (fieldAt r 6 1, ({ kind := fieldAt r 4 1, num := fieldAt r 5 1, val := BitVec.ofNat 32 (fieldAt r 0 4) } : Shadow)))
  let shadow : Nat → List Shadow := fun f => (shadows.filter (fun p => p.1 == f)).map Prod.snd
  let main := (k.flow 255).reload (w 16) (fieldAt bs 21 1) (shadow 255)
    (if k.vliw then (k.flow 255).masks else validMasks (fieldAt bs 24 4) (masksOf bs 0x300))
  let recs := recordsAt bs sh.entries 256 (fieldAt bs 5 1)
  let frs := k.reloadFrags bs shadow
  let handler := fieldAt bs 22 1 / 2 % 2 == 1
  { k.reloadLate bs handler with
      sr := wordsAt a 0x100 64 id
      privLo := w 0x200, privHi := w 0x204, privSz := w 0x208, tileLo := w 0x20C, tileHi := w 0x210
      uivec := w 0x214, uipend := BitVec.ofNat 16 (fieldAt bs 0x218 2), uimask := BitVec.ofNat 16 (fieldAt bs 0x21C 2)
      uipc := w 0x220, uisrc := w 0x224, cycleHi := w 0x228
      aborts := fieldAt bs 0x22E 2, idem := fieldAt bs 0x22D 1 % 2 == 1, cause := 2
      taskCycles := fieldAt bs 0x230 8
      ps := BitVec.ofNat 8 (fieldAt bs 0x238 1), yield := fieldAt bs 0x239 1 == 1
      rasSpilled := fieldAt bs 0x23C 4, batchNext := fieldAt bs 0x244 2
      stackSpilled := fieldAt bs 28 4, awaySpilled := k.awaySpilled.filter (fun p => p.1 < fieldAt bs 28 4)
      refill := fieldAt bs 22 1 % 2 == 1, inHandler := handler
      flows := frs.foldl (fun m p => SMap.insert m p.1 p.2) [(255, main)]
      detaches := max k.detaches (frs.length + 1)
      ras := reloadRets k.ras bs 0x380 (min 16 (fieldAt bs 0x240 4))
      ports := if k.vliw then wordsAt a 0x400 384 (fun i => i / 16 % 3 * 1024 + i / 48 * 16 + i % 16) else k.ports
      pats := reloadPats bs
      pr := (List.range (1024 * 7)).foldl (fun m i =>
        SMap.set false m ((i / 1024 + 1) * 1024 + i % 1024)
          (((a.getD (0xC200 + i % 1024) 0).getLsbD (i / 1024)))) []
      seams := if k.vliw then [] else k.reloadSeams recs
      loops := if k.vliw then k.reloadLoops recs else []
      passes := k.reloadPasses bs
      mxArr := (List.zip k.mxArr (recordsAt bs sh.arrivals 32 k.mxArr.length)).map (fun p => p.1.ofBytes p.2)
      scales := wordsAt a sh.scales 256 id
      v := wordsAt a sh.lanes (k.nregs * k.laneCount) (fun i => i / k.laneCount * 1024 + i % k.laneCount) }

/-! ### Fragment entries at a restore (05 R99, R103) -/

/-- The flows of a context take other fragment entries: every record that names one of them names the new one. -/
def Ctx.renumber (k : Ctx) (num : Nat → Nat) : Ctx :=
  { k with flows := (k.flows.map (fun p => (num p.1, p.2))).foldl (fun m p => SMap.insert m p.1 p.2) []
           seams := k.seams.map (Seam.renumber num)
           passes := k.passes.map (fun p => { p with flow := num p.flow })
           mxArr := k.mxArr.map (fun a => { a with flows := a.flows.map num })
           heldWaits := (k.heldWaits.map (fun p => (num p.1, p.2))).foldl (fun m p => SMap.insert m p.1 p.2) []
           handlerFlow := num k.handlerFlow }

/-- The entries that a context may use, its three reserved ones first (05 R99). -/
def Core.freeFragments (co : Core) (x : Nat) : List Nat :=
  let used := co.fragmentsUsed
  let own := if x < 16 then [3 * x, 3 * x + 1, 3 * x + 2] else []
  (own ++ (List.range 16).map (fun n => 48 + n)).filter (fun n => !used.contains n)

/-- The fragments of a context that returns take entries it may use there, where there are enough of them: the first one
detached takes the first. (log 108, DESIGN CHOICE) -/
def Ctx.seatFragments (k : Ctx) (free : List Nat) : Option Ctx :=
  let old := k.fragments.map Prod.fst
  if free.length < old.length then none
  else
    let names := (List.zip old free).foldl (fun m p => SMap.insert m p.1 p.2) ([] : SMap Nat)
    some ((k.renumber (fun n => SMap.get n names n)).noteNames names)

end Sys2Proof.Machine
end

