-- ==== Sys2Proof/Machine/CodeObj.lean ====
section
/-! DEFINITION. CodeObj.lean: the code object, an ELF64 file: its header, its sections, its launch records and its landing
pads, the checks at load, and the bytes of its window (19 R391 to R395; 03 R50; 09 R189). -/

namespace Sys2Proof.Machine

/-! ### The file (19 R392, R393) -/

/-- A section: its name, its type, whether it lies in the file, and its contents. -/
structure ElfSection where
  name : List Byte
  kind : Nat
  fits : Bool
  bytes : List Byte
  deriving DecidableEq, Repr

/-- What is read of a code object: e_flags, the kernel symbols with their indexes and values, and the sections that R393
defines, empty where there is none. -/
structure CodeFile where
  flags : Nat
  kernels : List (Nat × Nat)
  text : List Byte
  mipex : List Byte
  pattern : List Byte
  lpad : List Byte
  crel : List Byte
  launch : List Byte
  deriving DecidableEq, Repr

/-- A name in a string table. -/
def nameAt (strs : List Byte) (n : Nat) : List Byte := (strs.drop n).takeWhile (fun b => b != 0)

/-- The bytes of a range of the file. -/
def fileRange (bs : List Byte) (off n : Nat) : List Byte := (bs.drop off).take n

/-- The section headers and what they name, with the layout of ELF64. (log 113, PRESUMED) -/
def elfSections (bs : List Byte) : List ElfSection :=
  let heads := (List.range (fieldAt bs 60 2)).map (fun i => fileRange bs (fieldAt bs 40 8 + 64 * i) 64)
  let strings := heads.getD (fieldAt bs 62 2) []
  let strs := fileRange bs (fieldAt strings 24 8) (fieldAt strings 32 8)
  heads.map (fun h =>
    { name := nameAt strs (fieldAt h 0 4), kind := fieldAt h 4 4
      fits := decide (fieldAt h 24 8 + fieldAt h 32 8 ≤ bs.length)
      bytes := fileRange bs (fieldAt h 24 8) (fieldAt h 32 8) })

/-- The header of R392: the identification, ET_EXEC, the machine, the flags, and section headers in the file. -/
def elfHeaderOk (bs : List Byte) : Bool :=
  bs.take 8 == [0x7F, 0x45, 0x4C, 0x46, 2, 1, 1, 0] && fieldAt bs 16 2 == 2 && fieldAt bs 18 2 == 0xAF59
    && fieldAt bs 48 4 < 4 && fieldAt bs 58 2 == 64 && fieldAt bs 62 2 < fieldAt bs 60 2
    && fieldAt bs 40 8 + 64 * fieldAt bs 60 2 ≤ bs.length

/-- The names of R393: `.afx.` and text1, mipex, pattern, lpad, crel, launch. -/
def afxName (rest : List Byte) : List Byte := [46, 97, 102, 120, 46] ++ rest
def textName : List Byte := afxName [116, 101, 120, 116, 49]
def mipexName : List Byte := afxName [109, 105, 112, 101, 120]
def patternName : List Byte := afxName [112, 97, 116, 116, 101, 114, 110]
def lpadName : List Byte := afxName [108, 112, 97, 100]
def crelName : List Byte := afxName [99, 114, 101, 108]
def launchName : List Byte := afxName [108, 97, 117, 110, 99, 104]

/-- A symbol table's STT_FUNC symbols, by index, with their values. -/
def funcSymbols (bs : List Byte) : List (Nat × Nat) :=
  (List.range (bs.length / 24)).filterMap (fun i =>
    if fieldAt bs (24 * i + 4) 1 % 16 = 2 then some (i, fieldAt bs (24 * i + 8) 8) else none)

/-- A code object is read: its header, its sections, and the flags beside the code that is there. -/
def readCodeFile (bs : List Byte) : Option CodeFile :=
  let secs := elfSections bs
  let named : List Byte → List ElfSection := fun n => secs.filter (fun e => e.name == n)
  let all := [textName, mipexName, patternName, lpadName, crelName, launchName]
  let get : List Byte → List Byte := fun n => ((named n).head?.map ElfSection.bytes).getD []
  let syms := secs.filter (fun e => e.kind == 2)
  let flags := fieldAt bs 48 4
  if elfHeaderOk bs && all.all (fun n => (named n).length ≤ 1 && (named n).all ElfSection.fits) && syms.all ElfSection.fits
      && (flags % 2 == 1) == ((named textName) != []) && (flags / 2 % 2 == 1) == ((named mipexName) != []) then
    some { flags := flags, kernels := syms.flatMap (fun e => funcSymbols e.bytes), text := get textName, mipex := get mipexName
           pattern := get patternName, lpad := get lpadName, crel := get crelName, launch := get launchName }
  else none

/-! ### Launch records (19 R394) -/

/-- A launch record's 128 bytes. -/
structure LaunchRecord where
  bytes : List Byte
  deriving DecidableEq, Repr

def LaunchRecord.f (r : LaunchRecord) (off n : Nat) : Nat := fieldAt r.bytes off n

/-- The kernel's native entry and Mipex entry. -/
def LaunchRecord.native (r : LaunchRecord) : Option Nat := if r.f 68 4 = 0xFFFFFFFF then none else some (r.f 68 4)
def LaunchRecord.mipex (r : LaunchRecord) : Option Nat := if r.f 72 4 = 0xFFFFFFFF then none else some (r.f 72 4)

/-- Does the kernel launch in VLIW mode, and with how many clusters? -/
def LaunchRecord.vliw (r : LaunchRecord) : Bool := r.f 5 1 % 4 == 2
def LaunchRecord.clusters (r : LaunchRecord) : Nat := 2 ^ (r.f 5 1 / 4 % 4)

/-- The records: one for each kernel, at the head of the section. (log 113, PRESUMED) -/
def CodeFile.records (o : CodeFile) : List LaunchRecord :=
  (List.range o.kernels.length).map (fun i => ⟨fileRange o.launch (128 * i) 128⟩)

/-- The launch packet that a runtime makes of a record, with a number of map entries and, of a plain grid, one team. -/
def LaunchRecord.packet (r : LaunchRecord) (maps : Nat) : Packet :=
  let g : Nat → Nat → List Byte := fun off n => fileRange r.bytes off n
  let zeros : Nat → List Byte := fun n => List.replicate n 0
  ⟨[1] ++ g 98 1 ++ [1, 0] ++ zeros 10 ++ g 5 1 ++ g 6 1 ++ g 8 2 ++ g 96 2 ++ g 12 4 ++ g 10 2 ++ g 7 1 ++ g 66 1 ++ g 16 4
    ++ g 20 4 ++ zeros 4 ++ g 24 8 ++ g 32 16 ++ g 48 16 ++ g 64 1 ++ g 65 1 ++ leBytes 2 maps
    ++ leBytes 4 (if r.f 98 1 % 2 = 1 then 0 else 1) ++ zeros 24 ++ g 67 1 ++ zeros 143⟩

/-- The atomic sets and barriers of a record, from the tables of its section. -/
def LaunchRecord.tables (r : LaunchRecord) (launch : List Byte) : Tables :=
  { map := some []
    asets := some (rowsOf 16 (r.f 66 1) (launch.drop (r.f 80 4)) (fun b =>
      (fieldAt b 0 8, fieldAt b 8 6, fieldAt b 14 1, fieldAt b 15 1)))
    bars := some (rowsOf 8 (r.f 67 1) (launch.drop (r.f 84 4)) (fun b =>
      { index := fieldAt b 0 2, threads := fieldAt b 2 2, bytes := fieldAt b 4 4 })) }

/-- Does a record fail a launch check that does not depend on placement (04 R82: 0x03, 0x07 and 0x0B to 0x0F)? One map
entry for each team of a patch meets check 0x07, and a single initial task the others. -/
def State.recordFault (s : State) (part : Nat) (launch : List Byte) (r : LaunchRecord) : Option Nat :=
  let one := r.packet 1
  let patch := r.packet (max 1 one.patchTeams)
  let t := r.tables launch
  let rows := (s.packetChecks patch part t).filter (fun q => q.1 == 0x07)
    ++ (s.packetChecks one part t).filter (fun q => [0x03, 0x0B, 0x0C, 0x0D, 0x0E, 0x0F].contains q.1)
  (rows.find? Prod.snd).map Prod.fst

/-- A record's own fields: reserved bits, STREAM beside the entries, the entries in their sections, the symbol, the tables and
the pattern images. -/
def LaunchRecord.fits (r : LaunchRecord) (o : CodeFile) (bundles : List MipexBundle) : Bool :=
  let stream := r.f 4 1
  let flags := r.f 98 1
  zeroRun r.bytes 99 29 && flags == flags % 2 + flags / 8 % 2 * 8 && 1 ≤ stream && stream ≤ 3
    && (stream % 2 == 1) == r.native.isSome && (stream / 2 == 1) == r.mipex.isSome
    && r.native.all (fun e => e % 4 == 0 && e < o.text.length)
    && r.mipex.all (fun e => r.vliw && bundles.any (fun b => b.addr == e))
    && o.kernels.any (fun k => k.1 == r.f 0 4 && some k.2 == r.native.or r.mipex)
    && r.f 80 4 + 16 * r.f 66 1 ≤ o.launch.length && r.f 84 4 + 8 * r.f 67 1 ≤ o.launch.length
    && r.f 88 4 + 32 * r.f 92 4 ≤ o.pattern.length

/-! ### Landing pads (19 R391) -/

/-- The landing pads that stand in native code, with their kinds, read from the start on; a kernel's entry begins its mode's
stream, a `collapse` the VLIW stream and an `expand` the SIMT stream. (log 117, DEDUCED) -/
def nativePads (starts : List (Nat × Bool)) : Nat → Nat → Bool → List Byte → List (Nat × Nat)
  | 0, _, _, _ => []
  | fuel + 1, addr, vliw, bs =>
    if bs = [] then []
    else
      let vliw := ((starts.find? (fun p => p.1 == addr)).map Prod.snd).getD vliw
      if vliw then
        match decodeVliw bs with
        | .ok (.bundle b, r) =>
          let ops := (bundleOps (slotList b.slots) b.words).filterMap (fun p => match p.2 with
            | .ok n => some n
            | .error _ => none)
          (ops.flatMap padKind).map (fun k => (addr, k))
            ++ nativePads starts fuel (addr + 4 + 4 * b.words.length) (!ops.any (fun n => n.major == 0x22)) r
        | .ok (_, r) => nativePads starts fuel (addr + 2) true r
        | .error _ => nativePads starts fuel (addr + 2) true (bs.drop 2)
      else
        match decodeSimt bs with
        | .ok (n, r) => (padKind n).map (fun k => (addr, k)) ++ nativePads starts fuel (addr + n.len) (n.major == 0x21) r
        | .error _ => nativePads starts fuel (addr + 4) false (bs.drop 4)

/-- The landing pads of Mipex code. -/
def mipexPads (bs : List MipexBundle) : List (Nat × Nat) :=
  bs.flatMap (fun b => (b.ops.flatMap (fun o => padKind o.info)).map (fun k => (b.addr, k)))

/-- The entries of the landing-pad table for native (0) or Mipex code (1). -/
def CodeFile.listedPads (o : CodeFile) (code : Nat) : List (Nat × Nat) :=
  ((rowsOf 8 (o.lpad.length / 8) o.lpad (fun r => (fieldAt r 0 4, fieldAt r 4 1, fieldAt r 5 1))).filter
    (fun r => r.2.2 == code)).map (fun r => (r.1, r.2.1))

/-- The table lists what stands in the code, and nothing else. -/
def padsAgree (listed found : List (Nat × Nat)) : Bool :=
  listed.all (fun p => found.contains p) && found.all (fun p => listed.contains p)

def CodeFile.padsOk (o : CodeFile) (bundles : List MipexBundle) : Bool :=
  let starts := o.records.filterMap (fun r => r.native.map (fun e => (e, r.vliw)))
  o.lpad.length % 8 == 0
    && (rowsOf 8 (o.lpad.length / 8) o.lpad (fun r => fieldAt r 4 1 < 2 && fieldAt r 5 1 < 2 && fieldAt r 6 2 == 0)).all id
    && padsAgree (o.listedPads 0) (nativePads starts o.text.length 0 ((starts.head?.map Prod.snd).getD false) o.text)
    && padsAgree (o.listedPads 1) (mipexPads bundles)

/-! ### The checks at load, and the window's bytes (19 R395; 03 R50) -/

/-- The kernel that a Mipex bundle belongs to: the one whose entry is the last at or before it. (log 114, DESIGN CHOICE) -/
def CodeFile.kernelAt (o : CodeFile) (addr : Nat) : Option LaunchRecord :=
  o.records.foldl (fun m r => match r.mipex with
    | some e => if e ≤ addr ∧ m.all (fun q => q.mipex.all (fun f => f ≤ e)) then some r else m
    | none => m) none

/-- The clusters of the kernel that a Mipex bundle belongs to. -/
def CodeFile.clustersAt (o : CodeFile) (addr : Nat) : Nat := ((o.kernelAt addr).map LaunchRecord.clusters).getD 8

/-- N of that kernel: of its launch grant, or, of code that raises its grant by `vgrow`, of its budget (09 R183; 18 R373). -/
def CodeFile.nregsAt (o : CodeFile) (bundles : List MipexBundle) (addr : Nat) : Nat :=
  let grows := bundles.any (fun b => b.ops.any (fun p => p.info.major == 0x76))
  ((o.kernelAt addr).map (fun r =>
    Ctx.regsFor (if grows then max (r.f 8 2) (r.f 10 2) else r.f 8 2) (16 * r.clusters))).getD 64

/-- The code-address table names words of the Mipex code. -/
def CodeFile.crelList (o : CodeFile) : List Nat := rowsOf 4 (o.crel.length / 4) o.crel (fun r => fieldAt r 0 4)

def CodeFile.crelOk (o : CodeFile) : Bool :=
  o.crel.length % 4 == 0 && o.crelList.all (fun a => a % 4 == 0 && a + 4 ≤ o.mipex.length)

/-- The Mipex bundles of the kernels that begin at some entries, and of every kernel that theirs refer to. -/
def CodeFile.kernelCode (o : CodeFile) (bundles : List MipexBundle) (entries : List (Option Nat)) : Nat → List MipexBundle
  | 0 => bundles.filter (fun b => entries.contains ((o.kernelAt b.addr).bind LaunchRecord.mipex))
  | fuel + 1 =>
    let code := bundles.filter (fun b => entries.contains ((o.kernelAt b.addr).bind LaunchRecord.mipex))
    let named := code.flatMap (fun b => b.ops.flatMap (fun p => p.target.toList
      ++ ((List.zip (List.range p.words.length) p.words).filter (fun q => o.crelList.contains (p.addr + 4 * q.1))).map
        (fun q => (q.2.extractLsb' 0 18).toNat)))
    o.kernelCode bundles (entries ++ named.map (fun a => (o.kernelAt a).bind LaunchRecord.mipex)).dedup fuel

/-- The Mipex bundles of a code object that passes every check of R395. -/
def State.checkedObject (s : State) (part : Nat) (o : CodeFile) : Option (List MipexBundle) :=
  (parseMipex o.mipex.length 0 o.mipex).filter (fun bundles =>
    bundles.all (fun b => b.allowed bundles (o.clustersAt b.addr) (o.nregsAt bundles b.addr)) && o.crelOk && o.padsOk bundles
      && o.pattern.length % 32 == 0 && o.text.length % 2 == 0 && decide (128 * o.kernels.length ≤ o.launch.length)
      && o.records.all (fun r => r.fits o bundles && (s.recordFault part o.launch r).isNone))

/-- The bytes of an object's window: its native code, and behind it the translated Mipex code of the kernels that have no
other, with the map for debuggers; none where the object fails a check. -/
def State.codeImage (s : State) (part : Nat) (bs : List Byte) : Option Translated :=
  (readCodeFile bs).bind (fun o => (s.checkedObject part o).map (fun bundles =>
    let entries := o.records.filterMap (fun r => if r.native.isSome then none else r.mipex)
    let base := (o.text.length + 3) / 4 * 4
    if entries = [] then { code := o.text, map := [], entries := [] }
    else
      let code := o.kernelCode bundles (entries.map some) o.records.length
      let t := translateMipex code entries o.crelList base
      { t with code := o.text ++ List.replicate (base - o.text.length) 0 ++ t.code }))

/-- The map for debuggers as it stands in its buffer: each native bundle's address and its Mipex bundle's, 4 B each. (log 118, DESIGN CHOICE) -/
def Translated.mapBytes (t : Translated) : List Byte := t.map.flatMap (fun p => leBytes 4 p.1 ++ leBytes 4 p.2)

end Sys2Proof.Machine
end

