-- ==== Sys2Proof/Machine/Paging.lean ====
section
/-! DEFINITION. Paging.lean: the supervisor's work on page tables: entries written, translations dropped, pages mapped and
unmapped, and the servicing of replayable faults (02 R22, R23; 03 R61 to R63, R67, R68). -/

namespace Sys2Proof.Machine

/-! ### Dropping translations (03 R68) -/

/-- Bytes of a size code; 7 is the whole ASID. -/
def invalSize (n : Nat) : Nat :=
  match n with | 0 => 2 ^ 12 | 1 => 2 ^ 16 | 2 => 2 ^ 21 | 3 => 2 ^ 30 | 4 => 2 ^ 36 | _ => 2 ^ 64

def Inval.covers (i : Inval) (asid a n : Nat) : Bool :=
  let w := invalSize i.size
  let b := i.va / w * w
  asid == i.asid && a < b + w && b < a + n

/-- Does an invalidation match a pointer that a walk cache keeps? -/
def Inval.meetsWalk (i : Inval) (e : WalkEntry) : Bool :=
  i.covers e.asid (e.va * 2 ^ levelShift e.level) (2 ^ levelShift e.level)

/-- A context's engine commands translate the matching pages again at their next access. -/
def Ctx.dropPages (k : Ctx) (i : Inval) : Ctx :=
  { k with engPages := k.engPages.filter (fun p => !i.covers k.asid (p.page * 4096) 4096) }

/-- Every L1 TLB, section TLB and walk cache drops the matching entries, and so does every engine command in progress. -/
def State.dropTlb (s : State) (i : Inval) : State :=
  let keep : TlbEntry → Bool := fun e => !i.covers e.asid e.va e.size
  { s with cores := s.cores.map (fun (p : Nat × Core) => (p.1,
             { p.2 with l1tlb := p.2.l1tlb.filter keep
                        ctxs := p.2.ctxs.map (fun (q : Nat × Ctx) => (q.1, q.2.dropPages i)) }))
           sects := s.sects.map (fun (p : Nat × Section) => (p.1,
             { p.2 with tlb := p.2.tlb.filter keep, walkCache := p.2.walkCache.filter (fun e => !i.meetsWalk e) })) }

/-! ### Entries of the tables (03 R61, R62) -/

/-- The entry of a table of level l that an address goes through: the one looked for, or the table below it. An error is the
address of an entry that cannot be read for the space's partition, or none for a malformed pointer above the level looked for. -/
def State.stopEntry (s : State) (part target l ea : Nat) : Except (Option Nat) ((Nat × Nat × Nat) ⊕ Nat) :=
  if s.physCheck part ea false != .ok then .error (some ea)
  else
    let e := leNat (s.mem.readBytes ea 8)
    if l ≤ target ∨ e % 2 = 0 ∨ e / 2 % 2 = 1 then .ok (.inl (ea, e, l))
    else if malformed l e then .error none
    else .ok (.inr (bitsOf e 51 12 * 4096))

/-- The entry at which an address's walk stops above or at a level: its address, its value and its level. -/
def State.entryAt (s : State) (part va target : Nat) : Nat → Nat → Except (Option Nat) (Nat × Nat × Nat)
  | 0, base => match s.stopEntry part target 0 (entryOf va 0 base) with
    | .ok (.inl r) => .ok r
    | .ok (.inr _) => .error none
    | .error e => .error e
  | l + 1, base => match s.stopEntry part target (l + 1) (entryOf va (l + 1) base) with
    | .ok (.inl r) => .ok r
    | .ok (.inr next) => s.entryAt part va target l next
    | .error e => .error e

/-- The event of a table's entry that was refused, or came early (01 R16; 02 R23). -/
def State.logPte (s : State) (part : Nat) (e : Option Nat) : State :=
  match e with
  | some ea => s.logPhys part ea (s.physCheck part ea false)
  | none => s

/-- The 64 KiB frames that a leaf of a level maps. -/
def leafFrames (l pte : Nat) : List Nat :=
  (List.range ((2 ^ levelShift l + 65535) / 65536)).map (fun i => bitsOf pte 51 12 * 4096 / 65536 + i)

/-- May an entry be installed for a partition: a leaf of 2 MiB or more maps frames of one owner alone (02 R22), and the
system partition is given no frame of a tenant (03 R46)? Peer leaves and those of the register space name no frame. -/
def State.mapAllowed (s : State) (part l pte : Nat) : Bool :=
  let frames := leafFrames l pte
  let owner := s.frameOwner (frames.headD 0)
  pte % 2 == 0 || pte / 2 % 2 == 0 || pte / 256 % 2 == 1 || bitsOf pte 51 51 == 1
    || ((part != 0 || frames.all (fun f => s.frameOwner f == none || s.frameOwner f == some 0))
      && (l == 0 || (owner.isSome && frames.all (fun f => s.frameOwner f == owner))))

/-- The supervisor writes the entry of a level for an address of a space, in a table frame of the space's partition; false where
it refuses. -/
def State.writePte (s : State) (asid va level pte : Nat) : State × Bool :=
  let sp := SMap.get {} s.aspaces asid
  match s.entryAt sp.part va level 4 sp.root with
  | .ok (ea, _, l) =>
    if sp.valid ∧ l = level ∧ s.mapAllowed sp.part level pte then
      match s.physCheck sp.part ea true with
      | .ok => (s.homeWrite ea (leBytes 8 pte), true)
      | x => (s.logPhys sp.part ea x, false)
    else (s, false)
  | .error e => (s.logPte sp.part e, false)

/-! ### Servicing a replayable fault (03 R67) -/

/-- What the supervisor's service of a fault comes to. -/
inductive Serviced where
  /-- the page is there -/
  | done (s : State)
  /-- the host complex is asked for its data -/
  | waits (s : State)
  /-- the page is unmapped, or of no kind that is serviced -/
  | fails (s : State)

/-- A page of a size from the partition's pool: the first of the pool's offers that stands in frames which the partition owns and
which are ready, and of which no byte was taken before. (log 109, DESIGN CHOICE) -/
def State.takePage (s : State) (part size : Nat) : Option (State × Nat) :=
  let taken := s.att.pooled
  let free : Nat → Bool := fun pa =>
    (s.rangeCheck part pa size true).isNone && taken.all (fun p => pa + size ≤ p.1 || p.1 + p.2 ≤ pa)
  let offers := (List.range 1024).map (fun i => Config.poolFrame (1024 * taken.length + i) part * 4096 / size * size)
  (offers.find? free).map (fun pa => (s.updAtt (fun a => { a with pooled := a.pooled ++ [(pa, size)] }), pa))

/-- A leaf is installed in an entry, and no TLB answers from what stood there. -/
def State.installLeaf (s : State) (asid va ea l pa : Nat) (write : Bool) : State :=
  let i : Inval := { asid := asid, va := va, size := if l = 0 then 0 else l + 1 }
  (s.homeWrite ea (leBytes 8 (pa + (if write then 7 else 3)))).dropTlb i

/-- A fault at an address is serviced: an entry that is not valid is filled by its kind, and a leaf that does not allow a
write is copied where it is copy-on-write. (log 109, DESIGN CHOICE) -/
def State.serviceFault (s : State) (sec asid va : Nat) (write : Bool) : Serviced :=
  let sp := SMap.get {} s.aspaces asid
  match s.entryAt sp.part va 0 4 sp.root with
  | .error e => .fails (s.logPte sp.part e)
  | .ok (ea, e, l) =>
    let size := 2 ^ levelShift l
    let page := va / size * size
    if !sp.valid || decide (4 ≤ l) || s.physCheck sp.part ea true != .ok then .fails s
    else if e % 2 = 0 then
      match Config.pageKind e with
      | 0 => match s.takePage sp.part size with
        | some (s, pa) => .done ((s.zeroRange pa size).installLeaf asid va ea l pa (Config.pageWrite e))
        | none => .fails s
      | 1 =>
        if (s.sect sec).pageWaits.contains (asid, page) then .waits s
        else .waits ((s.updSect sec (fun q => { q with pageWaits := q.pageWaits ++ [(asid, page)] })).fwPost sec (.pageRequest asid page))
      | _ => .fails s
    else if malformed l e then .fails s
    else if !write || e / 4 % 2 == 1 then .done s
    else if e / 256 % 2 = 0 ∧ Config.pageKind e = 2 then
      let old := bitsOf e 51 12 * 4096
      match s.rangeCheck sp.part old size false, s.takePage sp.part size with
      | none, some (s, pa) => .done ((s.homeWrite pa (s.mem.readBytes old size)).installLeaf asid va ea l pa true)
      | some (a, x), _ => .fails (s.logPhys sp.part a x)
      | none, none => .fails s
    else .fails s

/-- The data of a requested page stands in a staging frame of partition 0: it goes to a frame of the space's partition, and
its leaf is installed; false where the command is refused. -/
def State.pageDataReady (s : State) (sec asid va staging : Nat) : State × Bool :=
  let sp := SMap.get {} s.aspaces asid
  match s.entryAt sp.part va 0 4 sp.root with
  | .error e => (s.logPte sp.part e, false)
  | .ok (ea, e, l) =>
    let size := 2 ^ levelShift l
    let page := va / size * size
    if !((s.sect sec).pageWaits.contains (asid, page) && decide (e % 2 = 0) && sp.valid && s.physCheck sp.part ea true == .ok) then
      (s, false)
    else match s.rangeCheck 0 staging size false, s.takePage sp.part size with
      | none, some (t, pa) =>
        (((t.homeWrite pa (s.mem.readBytes staging size)).installLeaf asid va ea l pa (Config.pageWrite e)).updSect sec
          (fun q => { q with pageWaits := q.pageWaits.filter (fun w => w != (asid, page)) }), true)
      | some (a, x), _ => (s.logPhys 0 a x, false)
      | none, none => (s, false)

/-- A section's own walk for an address: it fills the section's TLB, and no core's (03 R65). -/
def State.sectTranslate (s : State) (sec asid va : Nat) (write : Bool) : State × Except TransFault Place2 :=
  let c := 8 * sec
  let old := (s.core c).l1tlb
  let r := s.translate c asid va write
  if (r.1.core c).l1tlb = old then r else (r.1.updCore c (fun co => { co with l1tlb := old }), r.2)

/-- Is a cause one of those that the supervisor services (03 R53, R67)? -/
def servicedCause (cause detail : Nat) : Bool := (cause == 0x07 || cause == 0x08) && detail == 0

/-- The pages that a supervisor's copy needs are brought in; false while one of them is outstanding (03 R55, R58). -/
def State.preparePages (s : State) (sec asid : Nat) (write : Bool) : List Nat → State × Bool
  | [] => (s, true)
  | a :: r =>
    match s.sectTranslate sec asid a write with
    | (s, .ok _) => s.preparePages sec asid write r
    | (s, .error f) =>
      if servicedCause f.cause f.detail then
        match s.serviceFault sec asid a write with
        | .done s | .fails s => s.preparePages sec asid write r
        | .waits s => ((s.preparePages sec asid write r).1, false)
      else s.preparePages sec asid write r

end Sys2Proof.Machine
end

