-- ==== Sys2Proof/Machine/Supervisor.lean ====
section
/-! DEFINITION. Supervisor.lean: the commands of CTX_CMD, what a stopped context does next, pre-emption points, user
interrupts and single steps, and the faults that the supervisor services by itself (03 R51, R54 to R59, R66, R67; 10 R207 to R211; 06 R132, R135; 18 R357). -/

namespace Sys2Proof.Machine

/-! ### Errors and what a command finds -/

def State.cmdErr (s : State) (c : Nat) : State := s.updSect (State.sectOf c) (fun q => { q with cmdErr := true })

/-- The oldest parked pass of a context (notes/assumptions/27.md). -/
def Core.parkedOf (co : Core) (x : Nat) : Option ParkedPass := co.parked.find? (fun p => p.ctx == x)

/-- The flow that a record names. -/
def TrapRecord.flow (r : TrapRecord) : Nat := if r.fragment = 0xFFFF then 255 else r.fragment

/-- Did a cause stop its context between instructions (10 R202)? -/
def TrapRecord.between (r : TrapRecord) : Bool := r.cause == 0x13 || r.cause == 0x17 || (r.cause == 0x01 && r.detail == 2)

def TrapRecord.replayable (r : TrapRecord) : Bool := r.flags.getLsbD 1

/-- What a command of a context acts on. -/
inductive Stopped where
  /-- the context is stopped at a trap or by a stop -/
  | context (r : TrapRecord)
  /-- an engine queue is stopped (18 R357) -/
  | queue (q : Nat) (r : TrapRecord)
  /-- a pass is parked (03 R66) -/
  | pass (p : ParkedPass)
  /-- the context was saved at its checkpoint with a cause 0x14 (10 R215) -/
  | lost (area : Nat) (r : TrapRecord)
  | nothing
  deriving DecidableEq, Repr

/-- The context that a cause 0x14 left in a save area, by the core and the number it was saved from. -/
def State.lostAt (s : State) (c x : Nat) : Option (Nat × TrapRecord) :=
  s.parkedCtxs.findSome? (fun p => if p.2.home = c ∧ p.2.homeCtx = x then p.2.lost.map (fun r => (p.1, r)) else none)

/-- The stop that a command of a context ends: an engine queue that a park waits for comes first, then the context's own
stop, an engine queue, a parked pass. (log 27, DESIGN CHOICE) -/
def State.stopOf (s : State) (c x : Nat) : Stopped :=
  let k := s.ctx c x
  let queue : Option Stopped := k.eqStopped.head?.map (fun p => .queue p.1 p.2)
  if !k.live then ((s.lostAt c x).map (fun p => .lost p.1 p.2)).getD .nothing
  else if k.parkAsked ∧ queue.isSome then queue.getD .nothing
  else match k.stopped with
    | some r => .context r
    | none => match queue, (s.core c).parkedOf x with
      | some q, _ => q
      | none, some p => .pass p
      | none, none => .nothing

/-- A context rolled back to its checkpoint, whose interval is empty, stops with cause 0x14 as its core is lost (10 R215): it is
saved at once, so its record may wait for a slot of the ring. -/
def State.stopRaw (s : State) (c x : Nat) (t : Trap) : State :=
  let r := s.record c x (s.ctx c x).leadFlow t
  let s := (s.queueRecord r).updCtx c x (fun k => { k with stopped := some r, stepping := none })
  s.emitEvent c x r.flow 0x1 r.cause r.codeAddr

/-- Cause 0x15 is written once; its record logs a class 0x09 event (10 R216). -/
def State.machineCheck (s : State) (c x detail : Nat) (fault : Nat) : State :=
  let owed := (s.sect (State.sectOf c)).owed.any (fun o => match o with
    | .stop a b _ t => a == c && b == x && t.cause == 0x15
    | _ => false)
  if !(s.ctx c x).live || (s.ctx c x).stopped.any (fun r => r.cause == 0x15) || owed then s
  else s.stopContext c x (s.ctx c x).leadFlow { cause := 0x15, detail := detail, fault := dword fault }

/-! ### Parked passes (03 R66) -/

/-- A parked pass leaves the table, and its registers are no longer pending. -/
def State.dropPass (s : State) (c x : Nat) (p : ParkedPass) : State :=
  let s := s.updCore c (fun co => { co with parked := co.parked.filter (fun q => !(q.ctx == x && q.tag == p.tag)) })
  s.updCtx c x (fun k => k.clearTag p.tag)

def State.setPass (s : State) (c x : Nat) (p : ParkedPass) : State :=
  s.updCore c (fun co => { co with parked := co.parked.map (fun q => if q.ctx == x && q.tag == p.tag then p else q) })

/-- A parked pass is performed again: its lanes access memory with the operands it first read. -/
def State.replayPass (s : State) (c x : Nat) (p : ParkedPass) : State :=
  let s := { s with cur := { core := c, ctx := x, flow := p.flow, slot := (unitSlot (classOf (opd p.op).major)).getD 0 } }
  let env := s.passEnv p.op p.addr p.group p.lanes true true p.shadow
  let e := { env with lanes := (laneList p.lanes).map (fun l => 32 * p.group + l), parked := some (p.tag, p.old) }
  let take : State → List Nat → Bool → (State → State) → State := fun s words once f =>
    let s := s.noteUndo (words ++ undoKeys (s.ctx c x) e.o true p.group e.slot)
    let s := f ((s.dropPass c x p).updCtx c x (fun k => k.updFlow p.flow (fun fl =>
      { fl with asked := SMap.erase fl.asked e.askKey })))
    let s := if once || e.exactlyOnce then s.checkpoint c x else s
    s.tryTeamEnd c x
  match planOp e s with
  | (s, .trap t) =>
    if parks t then
      s.reparkPass c { p with record := { s.record c x p.flow t with codeAddr := p.addr, pass := p.group } }
    else (s.dropPass c x p).stopContext c x p.flow { t with addr := some p.addr, pass := some p.group }
  | (s, .go f) | (s, .jump f) => take s [] false f
  | (s, .record words once f) => take s words once f
  | (s, .hold f) =>
    let fl := (s.ctx c x).flow p.flow
    (f (s.setPass c x { p with replaying := true })).updCtx c x (fun k => k.updFlow p.flow (fun q =>
      { q with wait := fl.wait, closed := fl.closed }))

/-! ### Moving past an instruction -/

/-- The op that takes a skipped instruction's place: it acts in no pass. -/
def skippedOps (o : GroupOp) : List GroupOp :=
  let nop : Info := { major := 0, sel := 0, form := 0, f := { s := false, d := 0, a := 0, b := 0, g := 0, n := false }, ext := .none }
  if o.op.len = 8 then [{ addr := o.addr, op := nop }, { addr := o.addr + 4, op := nop }] else [{ addr := o.addr, op := nop }]

/-- The instruction at a position leaves its stop group; the position is the last of what stands in its place. (log 63, DEDUCED) -/
def StopGroup.without (g : StopGroup) : StopGroup :=
  let put := ((g.ops[g.pos]?).map skippedOps).getD []
  { g with ops := g.ops.take g.pos ++ put ++ g.ops.drop (g.pos + 1), pos := g.pos + (put.length - 1) }

/-- Bytes of the SIMT instruction at a code address: 8 for one whose FORM is 10. -/
def State.simtLength (s : State) (c window : Nat) (a : Word) : Word :=
  if fieldAt (s.codeBytes c window a.toNat 4) 0 1 % 4 = 2 then 8 else 4

/-- SKIP's move: the flow stands at the next instruction; in VLIW mode the bundle counts as an empty one (10 R206). -/
def State.skipPast (s : State) (c x : Nat) (r : TrapRecord) : State :=
  let k := s.ctx c x
  let f := r.flow
  if k.vliw then
    let fl := k.flow 255
    let at_ := s.skipPads c k.window fl.pc padFuel
    let next := s.bundleAfter c k at_
    let s1 := s.updCtx c x (fun k => (({ k with icyc := k.icyc + 1 }).land (k.icyc + 1)).updFlow 255 (fun fl =>
      { fl with landing := none, bwaitResult := none }))
    match s1.nextBundle c x at_ next k.delay with
    | .ok s => s
    | .error t => s.stopContext c x 255 t
  else
    let move : Flow → Flow := fun fl => match fl.group with
      | some g => { fl with group := some g.without }.advance
      | none => { fl with pc := r.codeAddr + s.simtLength c k.window r.codeAddr, landing := none }
    s.updCtx c x (fun k => k.updFlow f move)

/-- The head of a stopped engine queue is abandoned in every queue it stands in. -/
def Ctx.dropHead (k : Ctx) (q : Nat) : Ctx :=
  match (SMap.get [] k.eq q).head? with
  | some _ => k.popHead q
  | none => k

/-! ### Service calls (03 R55 to R58) -/

/-- The `svc` at which a context is stopped, with its slot. -/
def State.svcAt (s : State) (c x : Nat) (r : TrapRecord) : Option (Nat × Info) :=
  let k := s.ctx c x
  let fl := k.flow r.flow
  if k.vliw then
    match fetchBundle s c k fl with
    | .ok b => b.ops.find? (fun p => p.2.major.toNat == 0x78)
    | .error _ => none
  else match fl.group with
    | some g => (g.ops[g.pos]?).map (fun o => (0, o.op))
    | none => none

/-- Lanes of the context active at a `svc`, ascending. -/
def State.svcLanes (s : State) (c x : Nat) (r : TrapRecord) (slot : Nat) (n : Info) : List Nat :=
  let k := s.ctx c x
  let o := opd n
  if k.vliw then slotLanes k slot o
  else (k.flow r.flow).masks.flatMap (fun p => passLanes k p.2 p.1 o)

/-- The addresses of the pieces of a lane's argument block, where the block is valid. -/
def Ctx.svcPieces (k : Ctx) (o : Opd) (lane : Nat) : List Nat :=
  if o.b % 2 = 0 then
    let a := k.readV64 o.a lane
    if a % 64 = 0 then (List.range 8).map (fun j => a + 8 * j) else []
  else
    let off := (k.readV o.a lane).toNat
    if off % 8 = 0 ∧ off + 64 ≤ k.privSz.toNat ∧ lane < k.windowLanes then (List.range 8).map (fun j => k.privAddr lane (off + 8 * j)) else []

/-- A piece of an argument block read with the context's partition: from memory, or from a register that accepts it, since a
piece is an aligned access of 8 B (03 R55; 07 R147). -/
def State.readPiece8 (s : State) (c x a : Nat) : State × Except Trap (List Byte) :=
  let k := s.ctx c x
  let r := s.translate c k.asid a false
  let mapped : Option Nat := match r.2 with
    | .ok p => if p.peer.isNone && decide (Config.regSpace ≤ p.pa) then some (p.pa - Config.regSpace) else none
    | .error _ => none
  match mapped with
  | some off =>
    if r.1.regAccepts k.part off then
      let q := r.1.regRead k.part off 8
      (q.1, .ok (leBytes 8 q.2))
    else (r.1.logPhys k.part (Config.regSpace + off) .refused, .error { cause := 0x08, detail := 0x1, fault := dword a })
  | none => match s.ctxFetch c x a 8 with
    | .ok q => (q.1, .ok q.2)
    | .error t => (s.logTrap t, .error t)

/-- The bytes of an argument block, piece by piece; none where a piece does not translate or is refused, which logs its event
(02 R23). -/
def State.readPieces (s : State) (c x : Nat) : List Nat → State × Option (List Byte)
  | [] => (s, some [])
  | a :: r =>
    match s.readPiece8 c x a with
    | (s, .error _) => (s, none)
    | (s, .ok bs) =>
      let q := s.readPieces c x r
      (q.1, q.2.map (fun t => bs ++ t))

/-- The requests of a call in group and lane order, with their argument blocks; the lanes that post none. -/
def State.svcRequests (s : State) (c x : Nat) (o : Opd) : List Nat → State × List (SvcReq × List Byte) × List Nat
  | [] => (s, [], [])
  | l :: rest =>
    let ps := (s.ctx c x).svcPieces o l
    let read := if ps = [] then (s, none) else s.readPieces c x ps
    let s := read.1
    match read.2 with
    | none =>
      let q := s.svcRequests c x o rest
      (q.1, q.2.1, l :: q.2.2)
    | some bs =>
      let q := s.svcRequests c x o rest
      (q.1, ({ lane := l % 32, group := l / 32, pieces := ps }, bs) :: q.2.1, q.2.2)

/-- A call's requests that are not posted yet are posted while there are free entries. The argument blocks of those that
wait are kept with them. -/
def postRequests (call : SvcCall) : State → List SvcReq → State × List SvcReq
  | s, [] => (s, [])
  | s, q :: rest =>
    if q.posted then
      let p := postRequests call s rest
      (p.1, q :: p.2)
    else match s.svcFree call.vf with
      | none => (s, q :: rest)
      | some n =>
        let args := match q.result with
          | some (_, bs) => bs
          | none => []
        let e : SvcEntry :=
          { tag := call.tag, service := call.service, lane := q.lane, group := q.group, count := call.count % 256
            vf := call.vf, args := args }
        let p := postRequests call (s.svcPost call.vf n e) rest
        (p.1, { q with posted := true, result := none } :: p.2)

/-- Every call of a VF posts what fits, in the order of the calls. -/
def State.postCalls (s : State) (vf : Nat) : State :=
  (s.calls.filter (fun p => p.2.vf == vf)).foldl (fun s p =>
    let q := postRequests p.2 s p.2.reqs
    { q.1 with calls := SMap.insert q.1.calls p.1 { p.2 with reqs := q.2 } }) s

/-- The pages that the argument blocks of a call lie in, by the addresses of their pieces. -/
def State.svcPages (s : State) (c x : Nat) (r : TrapRecord) : List Nat :=
  match s.svcAt c x r with
  | none => []
  | some (slot, n) => (s.svcLanes c x r slot n).flatMap (fun l => (s.ctx c x).svcPieces (opd n) l)

/-- A context stopped at a `svc` posts its call; lanes without a valid block receive status 0x3 in v0 (03 R55, R57). -/
def State.beginCall (s : State) (c x : Nat) (r : TrapRecord) (area : Nat) : State :=
  match s.svcAt c x r with
  | none => s
  | some (slot, n) =>
    let o := opd n
    let q := s.svcRequests c x o (s.svcLanes c x r slot n)
    let s := q.1.updCtx c x (fun k => q.2.2.foldl (fun k l => k.write ⟨.v 0 l, 3⟩) k)
    let k := s.ctx c x
    let tag := s.nextCall
    let call : SvcCall :=
      { tag := tag, service := r.detail % 2 ^ 16, vf := k.vf, core := c, ctx := x, area := area, count := q.2.1.length
        code := (s.codeObjs.find? (fun o => o.places.contains (c, k.window))).map CodeObj.handle
        reqs := q.2.1.map (fun p => { p.1 with result := some (0, p.2) }) }
    ({ s with calls := SMap.insert s.calls tag call, nextCall := tag + 1 }).postCalls k.vf

/-! ### Park (03 R54; 10 R208, R209; 08 R179) -/

/-- The context as its save area's owner keeps it; where it stopped at cause 0x14, with that record. A loop that drains
for a stop drains no more. -/
def Ctx.offCore (k : Ctx) (passes : List ParkedPass) (home homeCtx : Nat) : Ctx :=
  let held : Wait → Bool := fun w => w != .seam && (match w with
    | .bwait _ _ _ _ _ _ => false
    | .lock _ => false
    | _ => true)
  { k with passes := passes, home := home, homeCtx := homeCtx, lost := k.stopped.filter (fun r => r.cause == 0x14)
           stopped := none, stopPending := false, cooling := false, parkAsked := false, stepping := none
           pend := k.pend.filter (fun p => p.till.isNone)
           loops := if k.refill then k.loops else k.loops.map (fun e => { e with drain := false })
           drainSpilled := if k.refill then k.drainSpilled else []
           heldWaits := k.heldWaits.filter (fun p => held p.2) }

/-- Bound tiles go to the tile area, tile by tile. -/
def State.spillAll (s : State) (c x : Nat) : List Nat → Except Trap State
  | [] => .ok s
  | t :: r => match s.spillTile c x 255 t with
    | .error e => .error e
    | .ok s => s.spillAll c x r

/-- Do a context's engines and its matrix operations still run (10 R208)? -/
def State.enginesRun (s : State) (c x : Nat) : Bool :=
  (s.ctx c x).eq.any (fun p => p.2 != []) || (s.core c).mxQ.any (fun o => o.ctx == x)

/-- Is the page of an address one whose data the host complex has been asked for (03 R67)? -/
def State.pageWaited (s : State) (sec asid va : Nat) : Bool :=
  let sp := SMap.get {} s.aspaces asid
  match s.entryAt sp.part va 0 4 sp.root with
  | .ok (_, _, l) => (s.sect sec).pageWaits.contains (asid, va / 2 ^ levelShift l * 2 ^ levelShift l)
  | .error _ => false

/-- Does a park wait: for an engine command in flight, for an operation of the matrix queue, for stores that are not done (08
R179), or, at a `svc`, for a page of an argument block? (log 68, DEDUCED) -/
def State.parkWaits (s : State) (c x : Nat) : Bool :=
  s.enginesRun c x || s.unsent (s.ctx c x) 5 || s.awaitsRoom (s.ctx c x).task || (match (s.ctx c x).stopped with
    | some r => r.cause == 0x11 && (s.svcPages c x r).any (fun a => s.pageWaited (State.sectOf c) (s.ctx c x).asid a)
    | none => false)

/-- A context goes to its save area: its tiles, what is still to be done before, the area, and the release of the core's
resources. Where the area is refused, or a tile does not translate, it stays: the answer is false. The interval closes first,
with what a pass replayed since the stop left in it (08 R158, R179). (log 66, DEDUCED) (log 67, DEDUCED) -/
def State.moveOff (s : State) (c x : Nat) (before : State → State) : State × Bool :=
  let s := if (s.ctx c x).intervalEmpty then s else s.closeInterval c x
  let pa := SMap.get 0 (s.core c).ctxSave x
  let k := s.ctx c x
  let spad := (s.core c).spad.readBytes k.spadBase k.spadLen
  let passes := (s.core c).parked.filter (fun p => p.ctx == x)
  match s.rangeCheck k.part pa (k.saveBytes passes (s.ageOf k) spad).length true with
  | some (a, y) => (s.logPhys k.part a y, false)
  | none =>
    let tiles := ((s.core c).tilesUse.filter (fun p => p.1 == x)).map Prod.snd
    match s.spillAll c x tiles with
    | .error t => ((s.logTrap t).queueRecord (s.record c x 255 t), false)
    | .ok s =>
      let s := before s
      let s := match (s.ctx c x).task with
        | some t => (s.withdraw t).updTask t (fun y => { y with state := .saved c x })
        | none => s
      let k := (s.ctx c x).offCore passes c x
      let s := s.homeWrite pa (k.saveBytes passes (s.ageOf k) spad)
      let s := s.emitEvent c x 255 0x4 0 (k.flow 255).here
      ({ s.freeContext c x with parkedCtxs := SMap.insert s.parkedCtxs pa k }, true)

/-- The save that a park makes: the service call of a context stopped at `svc` begins with it. A save that is not made sets
CMD_ERR and leaves the context stopped. -/
def State.saveContext (s : State) (c x : Nat) (r : TrapRecord) : State :=
  let pa := SMap.get 0 (s.core c).ctxSave x
  let q := s.moveOff c x (fun s => if r.cause = 0x11 then (s.beginCall c x r pa).skipPast c x r else s)
  if q.2 then q.1 else (q.1.updCtx c x (fun k => { k with parkAsked := false })).cmdErr c

/-- PARK (0x3): a stopped context, once its engines and matrix operations are done and, at a `svc`, the pages of its
argument blocks are brought in (03 R55). -/
def State.park (s : State) (c x : Nat) : State :=
  let k := s.ctx c x
  let wait : State → State := fun s => s.updCtx c x (fun k => { k with parkAsked := true })
  match k.stopped with
  | none => s.cmdErr c
  | some r =>
    if !k.live ∨ r.cause = 0x15 ∨ (k.eqStopped ≠ [] ∧ !k.parkAsked) then s.cmdErr c
    else
    let s := if k.intervalEmpty then s else s.closeInterval c x
    if s.parkWaits c x then wait s
    else if r.cause = 0x11 then
      let q := s.preparePages (State.sectOf c) k.asid false (s.svcPages c x r)
      if q.2 then q.1.saveContext c x r else wait q.1
    else s.saveContext c x r

/-! ### Restore (03 R58, R59; 08 R179) -/

/-- Where a context returning to a core stands: its base cluster, its scratchpad and its free resources. -/
def Core.seatFor (co : Core) (k : Ctx) : Option Nat :=
  if k.vliw then
    match co.eligibleBlock k.clusters with
    | some b =>
      if (List.range k.clusters).all (fun n => co.bound (b + n) none == 0 && !co.claims.any (fun q => q.holds (b + n)))
        then some b else none
    | none => none
  else co.chooseSlice (k.mode == .half) none

def Core.zoneFor (co : Core) (k : Ctx) : Option Nat :=
  if k.handler then
    let p := SMap.get {} co.amPort k.zone
    if p.valid ∧ p.part = k.part ∧ p.zoneSize * 256 = k.spadLen then some (p.zoneBase * 256) else none
  else co.findRun none k.spadLen

/-- R59's check of a save area against a core. -/
def Core.windowOk (co : Core) (k : Ctx) (bs : List Byte) : Bool :=
  match SMap.find? co.codeWin (fieldAt bs 20 1) with
  | some w => w.valid && w.part == k.part && (savedPcs (saveShape bs) bs).all (fun pc => pc < w.len * 4096)
  | none => false

/-- May a context come back to a core under a number: the number, the registers and the parked-pass table are free, and
nothing is being moved off (01 R10; 05 R103)? -/
def State.fitsBack (s : State) (c x : Nat) (k : Ctx) : Bool :=
  let co := s.core c
  (SMap.find? co.ctxs x).isNone && (if k.handler then 16 ≤ x && x < 20 else x < 16) && !co.sramBusy && !co.retiring
    && !s.mgmt.halting
    && (if k.handler then co.blocksUsed + k.blocks ≤ Config.blocks else k.blocks ≤ co.blocksFree)
    && co.parked.length + k.passes.length ≤ 32

/-- A context stands on a core again under a number, with its scratchpad bytes and its parked passes, and the effect of
`acq.dev` (08 R179). -/
def State.seatBack (s : State) (c x pa base run : Nat) (k : Ctx) (spad : List Byte) : State :=
  let co := s.core c
  let passes := k.passes.map (fun p => { p with ctx := x })
  let k := { k with base := base, bound := true, spadBase := run, start := s.cycle, passes := [], lost := none }
  let win := match SMap.find? co.codeWin k.window with
    | some w => SMap.insert co.codeWin k.window { w with refs := w.refs + 1 }
    | none => co.codeWin
  let co := { invalidateL1 co with ctxs := SMap.insert co.ctxs x k, codeWin := win, parked := co.parked ++ passes
                                   spad := (co.spad.zero run k.spadLen).writeBytes run spad }
  let s := (s.setCore c co).emitEvent c x 255 0x5 0 (k.flow 255).here
  let s := match k.task with
    | some t => s.updTask t (fun y => { y with state := .running c x, lastCore := c })
    | none => s
  { s with parkedCtxs := SMap.erase s.parkedCtxs pa }.checkpoint c x

/-- RESTORE of the context saved at an address: its checks, its resources, and its return. Answers none where it is refused.
An area that holds an uncorrectable error raises cause 0x15 with DETAIL 0x2 in the context, which stands as it was last
known and stays stopped (10 R203). (log 65, DEDUCED) -/
def State.restoreFrom (s : State) (c x pa : Nat) : Option State :=
  let co := s.core c
  match SMap.find? s.parkedCtxs pa with
  | none => none
  | some k =>
    let head := s.mem.readBytes pa 256
    let sh := saveShape head
    let spad := s.mem.readBytes (pa + sh.spad) k.spadLen
    if !s.fitsBack c x k || (s.rangeCheck k.part pa sh.stop true).isSome then none
    else match co.seatFor k, co.zoneFor k with
      | some base, some run =>
        if (s.rangeCheck k.part pa sh.stop false).isSome then
          (k.seatFragments (co.freeFragments x)).map (fun k =>
            (s.seatBack c x pa base run k (List.replicate k.spadLen 0)).machineCheck c x 0x2 pa)
        else
          let bs := s.mem.readBytes pa sh.stop
          if !k.headerOk head || !k.unassignedZero sh bs || !co.windowOk k bs then none
          else
            (({ k.reload bs with window := fieldAt bs 20 1 } : Ctx).seatFragments (co.freeFragments x)).map (fun k =>
              s.seatBack c x pa base run k spad)
      | _, _ => none

/-- The event of a save area whose read is refused (02 R23). -/
def State.logArea (s : State) (pa : Nat) : State :=
  match SMap.find? s.parkedCtxs pa with
  | none => s
  | some k => s.logRange k.part pa (saveShape (s.mem.readBytes pa 256)).stop true

/-- RESTORE (0x4). -/
def State.restore (s : State) (c x : Nat) : State :=
  let pa := SMap.get 0 (s.core c).ctxSave x
  (s.restoreFrom c x pa).getD ((s.logArea pa).cmdErr c)

/-! ### The end of service calls (03 R56, R58) -/

/-- A done entry's result goes to the request it answers. -/
def SvcCall.take (c : SvcCall) (e : SvcEntry) : SvcCall :=
  if e.tag ≠ c.tag then c
  else { c with reqs := c.reqs.map (fun q =>
    if q.posted && q.lane == e.lane && q.group == e.group then { q with result := some (e.status, e.args) } else q) }

/-- Done entries of a VF's ring are harvested into their calls and freed, and what waits is posted. -/
def State.harvest (s : State) (vf : Nat) : State :=
  let done := (s.svcEntries vf).filter (fun p => p.2.state == 2)
  let s := done.foldl (fun s p =>
    ({ s with calls := s.calls.map (fun (c : Nat × SvcCall) => (c.1, if c.2.vf = vf then c.2.take p.2 else c.2)) }).svcState vf p.1 0) s
  s.postCalls vf

def SvcCall.complete (c : SvcCall) : Bool := c.reqs.all (fun q => q.posted && q.result.isSome)

/-- Results go back to the argument blocks, piece by piece. -/
def State.writePieces (s : State) (k : Ctx) : List Nat → List Byte → State
  | [], _ => s
  | a :: r, bs =>
    let s := match s.sectTranslate (State.sectOf k.home) k.asid a true with
      | (s, .error _) => s
      | (s, .ok p) => match p.peer with
        | some d => if s.peerReached d then s.reply (.peerWrite d p.pa (bs.take 8)) else s
        | none =>
          if Config.regSpace ≤ p.pa then s.regWrite k.part (p.pa - Config.regSpace) 8 (leNat (bs.take 8))
          else s.checkedWrite k.part p.pa (fun s => s.homeWrite p.pa (bs.take 8))
    s.writePieces k r (bs.drop 8)

/-- Does a core hold the same code object in the window that a call's context runs in (03 R59)? -/
def State.sameCode (s : State) (call : SvcCall) (w c : Nat) : Bool :=
  match call.code with
  | some h => s.codeObjs.any (fun o => o.handle == h && o.places.contains (c, w))
  | none => c == call.core

/-- A finished call: once the pages of the argument blocks are there, results are copied back, each STATUS is written to
its lane's v0 in the save area, and the context is restored on a core of its section whose free resources fit and whose window
of its number holds the same code object (03 R58, R59). -/
def State.finishCall (s : State) (call : SvcCall) : State :=
  match SMap.find? s.parkedCtxs call.area with
  | none => { s with calls := SMap.erase s.calls call.tag }
  | some k =>
    let sec := State.sectOf call.core
    let ready := s.preparePages sec k.asid true (call.reqs.flatMap SvcReq.pieces)
    let s0 := s
    let s := ready.1
    if !ready.2 then s
    else
      let cores := (call.core :: ((List.range 8).map (fun i => 8 * sec + i)).filter (fun c => c != call.core)).filter
        (fun c => s.sameCode call k.window c)
      let seats := cores.flatMap (fun c => (List.range 20).map (fun x => (c, x)))
      let lanesAt := call.area + (saveShape (s.mem.readBytes call.area 256)).lanes
      let put : State → SvcReq → State := fun s q => match q.result with
        | some (st, bs) =>
          let at_ := lanesAt + 4 * (32 * q.group + q.lane)
          (s.writePieces k q.pieces bs).checkedWrite k.part at_ (fun s => s.homeWrite at_ (leBytes 4 st.toNat))
        | none => s
      let s1 := call.reqs.foldl put s
      match seats.findSome? (fun p => s1.restoreFrom p.1 p.2 call.area) with
      | some s2 => { s2 with calls := SMap.erase s2.calls call.tag }
      | none => s0

/-- The supervisors harvest the rings of the calls that are open, and finish those that are complete. -/
def State.finishCalls (s : State) : State :=
  let vfs := ((s.calls.map (fun p => p.2.vf))).eraseDups
  let s := vfs.foldl (fun s v => s.harvest v) s
  (s.calls.filter (fun p => p.2.complete)).foldl (fun s p => s.finishCall p.2) s

/-- SERVICE_ENTRY_DONE: the host complex, where it runs (02 R20), writes ARGS and STATUS of a posted entry, then its STATE. -/
def State.serviceDone (s : State) (vf slot : Nat) (status : Word) (args : List Byte) : State :=
  if !s.mgmt.hostRunning ∨ (s.svcRing vf).size ≤ slot then s
  else if !s.svcReadable vf slot then s.logRange 0 ((s.svcRing vf).at slot) 128 false
  else if (s.svcEntry vf slot).state ≠ 1 then s
  else
    let s := s.svcPut vf slot 64 (padTo 64 (args.take 64))
    let s := (s.svcPut vf slot 16 (leBytes 4 status.toNat)).svcState vf slot 2
    s.finishCalls

/-! ### Replay, skip, destroy, fault grid, requeue, flush -/

/-- A context of a save area is given up. -/
def State.destroyLost (s : State) (area : Nat) : State :=
  let s := match (SMap.find? s.parkedCtxs area).bind Ctx.task with
    | some t => s.eraseTask t
    | none => s
  { s with parkedCtxs := SMap.erase s.parkedCtxs area }

/-- FAULT GRID of a context in a save area. -/
def State.faultLost (s : State) (area : Nat) (r : TrapRecord) : State :=
  match SMap.find? s.parkedCtxs area with
  | none => s
  | some k => if k.handler then s.destroyLost area else s.failGrid k.grid (2, 0, s.mapIndex k, some r) 0 []

/-- REPLAY (0x1). -/
def State.replay (s : State) (c x : Nat) : State :=
  match s.stopOf c x with
  | .nothing => s.cmdErr c
  | .context r =>
    if r.cause = 0x15 then s.cmdErr c
    else if r.replayable then endTrap c x s
    else s.faultGrid c x r
  | .queue q r =>
    if r.replayable then s.updCtx c x (fun k => { k with eqStopped := SMap.erase k.eqStopped q })
    else s.faultGrid c x r
  | .pass p => s.replayPass c x p
  | .lost a r => s.faultLost a r

/-- SKIP (0x2). -/
def State.skip (s : State) (c x : Nat) : State :=
  match s.stopOf c x with
  | .nothing | .lost _ _ => s.cmdErr c
  | .context r =>
    if r.cause = 0x15 then s.cmdErr c
    else if r.between then endTrap c x s
    else (endTrap c x s).skipPast c x r
  | .queue q _ => (s.updCtx c x (fun k => { k.dropHead q with eqStopped := SMap.erase k.eqStopped q })).tryTeamEnd c x
  | .pass p => (s.dropPass c x p).tryTeamEnd c x

/-- DESTROY (0x5). -/
def State.destroy (s : State) (c x : Nat) : State :=
  match s.stopOf c x with
  | .nothing => s.cmdErr c
  | .lost a _ => s.destroyLost a
  | _ => s.destroyContext c x

/-- FAULT GRID (0x6). -/
def State.faultCommand (s : State) (c x : Nat) : State :=
  match s.stopOf c x with
  | .nothing => s.cmdErr c
  | .context r | .queue _ r => s.faultGrid c x r
  | .pass p => s.faultGrid c x p.record
  | .lost a r => s.faultLost a r

/-! ### Stops that the supervisor ends by itself (03 R55, R67) -/

/-- What of a context waits for its supervisor's own service: a replayable fault of a page, in the context, in an engine
queue or in a parked pass, and a `svc`. -/
def State.serviceStops (s : State) (c x : Nat) : List Stopped :=
  let k := s.ctx c x
  let mine : TrapRecord → Bool := fun r => servicedCause r.cause r.detail
  let own := (k.stopped.filter (fun r => (mine r || r.cause == 0x11) && !k.parkAsked)).toList.map (fun r => Stopped.context r)
  let queues := (k.eqStopped.filter (fun p => mine p.2)).map (fun p => Stopped.queue p.1 p.2)
  let passes := ((s.core c).parked.filter (fun p => p.ctx == x && !p.replaying && mine p.record)).map (fun p => Stopped.pass p)
  if k.live then own ++ queues ++ passes else []

/-- The supervisor services a stop: the page of a fault, and then its replay; a `svc` parks. -/
def State.serviceStop (s : State) (c x : Nat) (st : Stopped) : State :=
  let page : TrapRecord → (State → State) → State := fun r resume =>
    match s.serviceFault (State.sectOf c) (s.ctx c x).asid r.fault.toNat (r.flags.getLsbD 2) with
    | .done s => resume s
    | .waits s => s
    | .fails s => s.faultGrid c x r
  match st with
  | .context r => if r.cause = 0x11 then s.park c x else page r (endTrap c x)
  | .queue q r => page r (fun s => s.updCtx c x (fun k => { k with eqStopped := SMap.erase k.eqStopped q }))
  | .pass p => page p.record (fun s => s.replayPass c x p)
  | _ => s

/-- REQUEUE (0x7): a stopped task context restarts with CAUSE 0x03; the oldest unfinished task of a grid is parked
instead (06 R132). -/
def State.requeue (s : State) (c x : Nat) : State :=
  let k := s.ctx c x
  match k.stopped, k.task with
  | some r, some t =>
    if !k.live ∨ r.cause = 0x15 then s.cmdErr c
    else if s.oldestUnfinished t then s.park c x
    else s.abortTask c x 0x03 false
  | _, _ => s.cmdErr c

/-- FLUSH (0xA): a plain team whose `.idem` flag stands is destroyed and starts again; any other is parked (06 R135). -/
def State.flush (s : State) (c x : Nat) : State :=
  let k := s.ctx c x
  match k.stopped with
  | none => s.cmdErr c
  | some r =>
    if !k.live ∨ r.cause = 0x15 then s.cmdErr c
    else if k.idem && k.task.isNone && !k.handler then
      (s.freeContext c x).updGrid k.grid (fun g => { g with restarts := g.restarts ++ [k.team] })
    else s.park c x

/-! ### Stop and step (10 R207, R208, R211) -/

/-- The innermost loop drains for a stop, unless the boundary step is still owed (09 R196; 10 R208). -/
def Ctx.drainLoop (k : Ctx) : Ctx :=
  if k.refill then k
  else { k with loops := k.loops.dropLast ++ (k.loops.getLast?.map (fun e => { e with drain := true })).toList }

/-- STOP (0x9). -/
def State.stop (s : State) (c x : Nat) : State :=
  let k := s.ctx c x
  if !k.live ∨ k.stopped.isSome ∨ k.stopPending ∨ k.eqStopped ≠ [] then s.cmdErr c
  else s.setCtx c x { k.drainLoop with stopPending := true }

/-- Has a requested stop its point? -/
def State.stopDue (s : State) (c x : Nat) : Bool :=
  let k := s.ctx c x
  k.live && k.stopPending && k.stopped.isNone && k.atPoint && !s.trapOwed c x && !s.drainsMatrix c x

/-- STOP_REACHED: cause 0x17. -/
def State.stopReached (s : State) (c x : Nat) : State :=
  if s.stopDue c x then s.stopContext c x (s.ctx c x).leadFlow { cause := 0x17 } else s

/-- STEP (0x8): one stop group or bundle of one flow. -/
def State.step (s : State) (c x f : Nat) : State :=
  let k := s.ctx c x
  match k.stopped with
  | none => s.cmdErr c
  | some r =>
    if !k.live ∨ r.cause = 0x15 ∨ (SMap.find? k.flows f).isNone then s.cmdErr c
    else s.setCtx c x { k with stopped := none, stepping := some f, stepped := false }

/-- Has a step ended: its group or bundle has issued, or the flow waits or is gone? -/
def State.stepDue (s : State) (c x f : Nat) : Bool :=
  let k := s.ctx c x
  let fl := k.flow f
  k.live && k.stopped.isNone && k.stepping == some f && !s.trapOwed c x
    && ((k.stepped && fl.group.isNone) || !fl.wait.retries || (SMap.find? k.flows f).isNone)

/-- SINGLE_STEP_COMPLETE: cause 0x01, DETAIL 0x2. -/
def State.stepComplete (s : State) (c x f : Nat) : State :=
  if s.stepDue c x f then s.stopContext c x f { cause := 0x01, detail := 2 } else s

/-! ### User interrupts (10 R210) -/

/-- The lowest pending source that is not masked. -/
def Ctx.uiSource (k : Ctx) : Option Nat :=
  (List.range 16).find? (fun n => k.uipend.getLsbD n && !k.uimask.getLsbD n)

/-- May a user interrupt be delivered now? (log 80, DEDUCED) -/
def State.uiDue (s : State) (c x : Nat) : Bool :=
  let k := s.ctx c x
  k.live && k.stopped.isNone && !s.trapOwed c x && k.stepping.isNone && !k.inHandler && k.uiSource.isSome
    && (k.flow k.leadFlow).masks != [] && (if k.vliw then k.delay.isNone && !k.refill else k.atPoint)

/-- The context as the handler finds it. (log 97, DEDUCED) -/
def Ctx.enterHandler (k : Ctx) (n : Nat) : Ctx :=
  let f := k.leadFlow
  let lead := k.flow f
  let back := lead.here
  let stop : Nat × Flow → Nat × Flow := fun p => (p.1, { p.2 with wait := .handler })
  let keep : Wait → Bool := fun w => match w with
    | .none | .seam | .bwait _ _ _ _ _ _ => false
    | _ => true
  let waits : SMap Wait := (k.flows.filter (fun (p : Nat × Flow) => p.1 != f && keep p.2.wait)).map (fun p => (p.1, p.2.wait))
  let late := k.flight.map (fun r => { r with due := r.due - k.icyc })
  let k := { k with uipend := k.uipend &&& ~~~(1#16 <<< n), uisrc := BitVec.ofNat 32 n, uipc := back
                    lwb := late, flight := [], inHandler := true, handlerFlow := f, heldWaits := waits, heldFlow := some lead
                    flows := k.flows.map (fun (p : Nat × Flow) => if p.1 = f then p else stop p) }
  k.updFlow f (fun fl => { fl with pc := k.uivec, group := none, landing := some (back, 0), wait := .none, bwaitResult := none })

/-- UI_DELIVERY: the handler starts at UIVEC, or a cause 0x13 record is written where there is no handler. (log 64, DEDUCED) -/
def State.uiDeliver (s : State) (c x : Nat) : State :=
  let k := s.ctx c x
  match s.uiDue c x, k.uiSource with
  | true, some n =>
    if k.uivec = 0 then s.stopContext c x k.leadFlow { cause := 0x13, detail := n }
    else
      let s := s.updCore c (fun co => { co with claims := co.claims.filter (fun q => q.ctx != some x) })
      let s := s.setCtx c x (k.enterHandler n)
      s.emitEvent c x k.leadFlow 0x2 n (k.flow k.leadFlow).here
  | _, _ => s

/-! ### A write of CTX_CMD (10 R207) -/

/-- The command that a written value gives; the codes 0x0 and 0xB to 0xF set CMD_ERR. -/
def State.ctxCommand (s : State) (c : Nat) (v : Dword) : State :=
  let x := bitsOf v.toNat 12 8
  match bitsOf v.toNat 3 0 with
  | 0x1 => s.replay c x
  | 0x2 => s.skip c x
  | 0x3 => s.park c x
  | 0x4 => s.restore c x
  | 0x5 => s.destroy c x
  | 0x6 => s.faultCommand c x
  | 0x7 => s.requeue c x
  | 0x8 => s.step c x (bitsOf v.toNat 23 16)
  | 0x9 => s.stop c x
  | 0xA => s.flush c x
  | _ => s.cmdErr c

end Sys2Proof.Machine
end

