-- ==== Sys2Proof/Machine/SectionRegs.lean ====
section
/-! DEFINITION. SectionRegs.lean: the supervisor's registers and ports: trap queue, translation invalidation, code windows and
instruction stores, SRAM split, barrier windows, active-message ports, save areas, the trace unit, the schedule policy;
the firmware interface; and the writes to device registers without a row of their own (03 R46 to R51, R60, R68; 04 R86; 05
R107; 07 R139; 10 R207, R217; 16 R334). -/

namespace Sys2Proof.Machine

/-! ### The trap queue (03 R51) -/

/-- TRAPQ_HEAD_WRITE: the records before the new head are consumed, and the traps that waited for their slots are taken.
R51 gives the pointers no width: TRAPQ_TAIL and TRAPQ_HEAD run freely as 32-bit counters, of which the lowest nine bits name a
slot. (log 115, DESIGN CHOICE) -/
def State.trapHeadWrite (s : State) (sec : Nat) (v : Word) : State :=
  let s := s.updSect sec (fun q => { q with trapQ := q.trapQ.drop (v - q.trapHead).toNat, trapHead := v })
  s.payTraps sec (s.sect sec).owed.length

/-! ### Invalidation (03 R68) -/

/-- TLB_INVAL: entries drop, and every context with a buffered store to the range closes its interval. Size codes 5 and 6
name no size. (log 79, DEDUCED) -/
def State.tlbInval (s : State) (sec asid va size : Nat) : State :=
  if size = 5 ∨ size = 6 ∨ 7 < size then s
  else
    let i : Inval := { asid := asid, va := va, size := size }
    let s := (s.updSect sec (fun q => { q with inval := some i, invalDone := false })).dropTlb i
    let hit : Ctx → Bool := fun k => k.tack.any (fun t => i.covers k.asid t.va.toNat t.bytes.length)
    let todo := s.cores.flatMap (fun (p : Nat × Core) => (p.2.ctxs.filter (fun (q : Nat × Ctx) => hit q.2)).map (fun q => (p.1, q.1)))
    todo.foldl (fun s p => s.closeInterval p.1 p.2) s

/-- Has an access translated under an entry that an invalidation matches not performed yet: a store that was sent and is not done
(03 R68)? -/
def State.invalWaits (s : State) (i : Inval) : Bool :=
  s.sent.any (fun e => (match e.dst with
    | .spad _ _ _ => false
    | _ => true) && i.covers e.asid e.va.toNat e.bytes.length)

/-- INVAL_DONE: walks that were in flight leave nothing behind, and every access translated under the old entry has performed. -/
def State.invalComplete (s : State) (sec : Nat) : State :=
  match (s.sect sec).inval with
  | none => s
  | some i => if s.invalWaits i then s else (s.dropTlb i).updSect sec (fun q => { q with inval := none, invalDone := true })

/-- PAGE_WALK: a section's walk for an address, which fills its TLB and sets ACCESSED or DIRTY (03 R63, R65). -/
def State.pageWalk (s : State) (sec asid va : Nat) (write : Bool) : State := (s.sectTranslate sec asid va write).1

/-! ### Instruction stores and code windows (03 R47, R48) -/

def CodeWin.holds (w : CodeWin) (a : Nat) : Bool := w.valid && w.base * 4096 ≤ a && a < (w.base + w.len) * 4096

def CodeWin.meets (w v : CodeWin) : Bool := w.base < v.base + v.len && v.base < w.base + w.len

/-- May a window be made valid? -/
def Core.windowFree (co : Core) (idx : Nat) (w : CodeWin) : Bool :=
  1 ≤ w.len && w.base + w.len ≤ 64 && co.codeWin.all (fun p => p.1 == idx || !p.2.valid || !p.2.meets w)

def State.codeWinWrite (s : State) (c idx : Nat) (v : Dword) : State :=
  let co := s.core c
  let old := SMap.get {} co.codeWin idx
  let new : CodeWin := { refs := old.refs, part := bitsOf v.toNat 23 19, len := bitsOf v.toNat 18 12, base := bitsOf v.toNat 11 6
                         valid := v.getLsbD 0 }
  let put : CodeWin → State := fun w => s.setCore c { co with codeWin := SMap.insert co.codeWin idx w }
  if 16 ≤ idx then s
  else if old.valid then (if !new.valid ∧ old.refs = 0 then put { old with valid := false } else s)
  else if new.valid ∧ !co.windowFree idx new then s
  else put new

/-- Bytes through the store port: those inside a valid window are dropped and set ISTORE_ERR. -/
def State.istoreWrite (s : State) (c addr : Nat) (bs : List Byte) : State :=
  let co := s.core c
  let inside : Nat → Bool := fun a => co.codeWin.any (fun p => p.2.holds a)
  let ps := (List.zip (List.range bs.length) bs).map (fun p => (addr + p.1, p.2))
  let ok := ps.filter (fun p => p.1 < 0x40000 && !inside p.1)
  let s := s.setCore c { co with istore := ok.foldl (fun m p => m.write p.1 p.2) co.istore }
  if ps.any (fun p => inside p.1) then s.updSect (State.sectOf c) (fun q => { q with istoreErr := true }) else s

/-! ### SRAM_SPLIT (07 R139) -/

/-- (log 78, DESIGN CHOICE) -/
def State.sramWrite (s : State) (c : Nat) (v : Dword) : State :=
  let co := s.core c
  let parked := s.parkedCtxs.any (fun p => p.2.home == c)
  if co.ctxs ≠ [] ∨ parked ∨ co.amPort.any (fun p => p.2.valid) then s.cmdErr c
  else s.setCore c { co with sramBusy := true, newBanks := min 15 (v.toNat % 32) }

/-- Owned words stand at their home slices already (08 R161); the L1 is empty, and the banks that change side are zero. -/
def State.sramDone (s : State) (c : Nat) : State :=
  let co := s.core c
  if !co.sramBusy then s
  else
    let lo := min co.spadBanks co.newBanks
    let hi := max co.spadBanks co.newBanks
    s.setCore c { co with sramBusy := false, spadBanks := co.newBanks, l1 := []
                          spad := co.spad.zero (lo * 65536) ((hi - lo) * 65536) }

/-! ### Small registers of a core -/

def State.barWinWrite (s : State) (c w : Nat) (v : Dword) : State :=
  if 4 ≤ w then s
  else s.updCore c (fun co =>
    let old := SMap.get {} co.barWin w
    let new : BarWin := { dropped := if v.getLsbD 0 then 0 else old.dropped, part := bitsOf v.toNat 12 8, valid := v.getLsbD 0 }
    { co with barWin := SMap.insert co.barWin w new })

def State.amPortWrite (s : State) (c e : Nat) (v : Dword) : State :=
  if 16 ≤ e then s
  else
    let n := v.toNat
    let p : AmPort :=
      { zoneSize := bitsOf n 63 52, zoneBase := bitsOf n 51 40, window := bitsOf n 39 36, asid := bitsOf n 35 24
        part := bitsOf n 23 19, hregs := bitsOf n 18 16, valid := v.getLsbD 0 }
    s.updCore c (fun co => { co with amPort := SMap.insert co.amPort e p })

def State.ctxSaveWrite (s : State) (c x : Nat) (v : Dword) : State :=
  if Config.contexts ≤ x then s
  else s.updCore c (fun co => { co with ctxSave := SMap.set 0 co.ctxSave x (bitsOf v.toNat 51 8 * 256) })

/-- CORE_SCHED: a change of POLICY to 1 sets RR_PTR to 0 (05 R107). -/
def State.schedWrite (s : State) (c : Nat) (v : Dword) : State :=
  s.updCore c (fun co =>
    { co with rr := v.getLsbD 0, rrPtr := if v.getLsbD 0 && !co.rr then 0 else co.rrPtr })

/-- The field of a cluster in CLUSTER_OWN (05 R92). A granted claim owns its block before its thread holds a context
(R95): the rule gives HOLDER no value there. (log 116, DESIGN CHOICE) -/
def Core.ownField (co : Core) (n : Nat) : Nat :=
  let owner := List.find? (fun (p : Nat × Ctx) => p.2.vliw && p.2.clusterList.contains n) co.ctxs
  let granted := co.claims.find? (fun q => q.granted && q.holds n)
  let reserved := co.claims.any (fun q => !q.granted && q.holds n)
  (if reserved then 64 else 0) + (match owner, granted with
    | some p, _ => 128 + p.1
    | none, some q => 128 + Config.claimHolder (q.grid * 2 ^ 32 + q.team) % 32
    | none, none => co.bound n none)

/-- CLUSTER_OWN as the section's supervisor reads it (05 R92). -/
def Core.clusterOwn (co : Core) : Dword :=
  BitVec.ofNat 64 (((List.range 8).map (fun n => co.ownField n * 2 ^ (8 * n))).sum)

/-! ### The trace unit (10 R217, R219) -/

/-- TRC_CTL; the first packet of every flow after ENABLE sets is preceded by a sync. The time of a stream's first packet, which
has no packet before it, is counted from ENABLE. (log 122, DESIGN CHOICE) -/
def State.trcCtlWrite (s : State) (c : Nat) (v : Dword) : State :=
  let n := v.toNat
  s.updCore c (fun co =>
    let t := { co.trc with mask := BitVec.ofNat 20 (bitsOf n 39 20), part := bitsOf n 19 15, syncLog2 := bitsOf n 11 8
                           closes := v.getLsbD 1, enable := v.getLsbD 0 }
    let starts := v.getLsbD 0 && !co.trc.enable
    let owe : Ctx → Ctx := fun k => { k with flows := k.flows.map (fun p => (p.1, { p.2 with syncOwed := true })) }
    { co with trc := if starts && t.wptr == 0 then { t with last := s.cycle } else t
              ctxs := if starts then co.ctxs.map (fun p => (p.1, owe p.2)) else co.ctxs })

def State.trcSizeWrite (s : State) (c : Nat) (v : Word) : State :=
  s.updCore c (fun co => { co with trc := { co.trc with size := max 12 (min 30 (v.toNat % 32)) } })

def State.trcBaseWrite (s : State) (c : Nat) (v : Dword) : State :=
  s.updCore c (fun co => { co with trc := { co.trc with base := bitsOf v.toNat 51 12 * 4096 } })

def State.trcRptrWrite (s : State) (c : Nat) (v : Dword) : State :=
  s.updCore c (fun co => { co with trc := { co.trc with rptr := v.setWidth 32 } })

/-- Section status: bits 0 ISTORE_ERR and 1 CMD_ERR are cleared by writing 1 (03 R48, R54; notes/assumptions/28.md). (log 28, DESIGN CHOICE) -/
def State.sectStatusWrite (s : State) (sec : Nat) (v : Dword) : State :=
  s.updSect sec (fun q => { q with istoreErr := q.istoreErr && !v.getLsbD 0, cmdErr := q.cmdErr && !v.getLsbD 1 })

/-! ### What the supervisor reads (00 R3, R5) -/

/-- The registers of R47, R86, R92, R107, R139, R207, R217 and R334 as their supervisor reads them: reserved fields and fields
that are written only read zero. -/
def CodeWin.word (w : CodeWin) : Nat :=
  w.refs % 256 * 2 ^ 32 + w.part * 2 ^ 19 + w.len * 2 ^ 12 + w.base * 2 ^ 6 + (if w.valid then 1 else 0)

def AmPort.word (p : AmPort) : Nat :=
  p.zoneSize * 2 ^ 52 + p.zoneBase * 2 ^ 40 + p.window * 2 ^ 36 + p.asid * 2 ^ 24 + p.part * 2 ^ 19 + p.hregs * 2 ^ 16
    + (if p.valid then 1 else 0)

def BarWin.word (w : BarWin) : Nat := w.dropped * 2 ^ 32 + w.part * 2 ^ 8 + (if w.valid then 1 else 0)

def Core.schedWord (co : Core) : Nat := co.rrPtr * 2 ^ 8 + (if co.rr then 1 else 0)

/-- SRAM_SPLIT: BUSY, and the bank count in force, which stays the old one while BUSY is set. (log 78, DESIGN CHOICE) -/
def Core.sramWord (co : Core) : Nat := (if co.sramBusy then 256 else 0) + co.spadBanks

def TraceUnit.ctlWord (t : TraceUnit) : Nat :=
  t.mask.toNat * 2 ^ 20 + t.part * 2 ^ 15 + t.syncLog2 * 2 ^ 8 + (if t.closes then 2 else 0) + (if t.enable then 1 else 0)

/-- The section status: bits 0 ISTORE_ERR and 1 CMD_ERR. (log 28, DESIGN CHOICE) -/
def Section.statusWord (q : Section) : Nat := (if q.istoreErr then 1 else 0) + (if q.cmdErr then 2 else 0)

/-- The 64 bytes of a slot of a section's trap queue. What a slot holds that no record stands in is not stated. (log 126, DESIGN CHOICE) -/
def State.trapBytes (s : State) (sec slot : Nat) : List Byte :=
  let q := s.sect sec
  match q.trapQ[(slot + 512 - q.trapHead.toNat % 512) % 512]? with
  | some r => r.toBytes
  | none => s.freeBytes (2 ^ 43 + sec) 64

/-- The value of a supervisor register, or eight bytes of an instruction store or of a trap record (03 R45). INVAL_DONE, to which
no rule gives a place, is bit 0 of TLB_INVAL. (log 28, DESIGN CHOICE) -/
def State.supWord (s : State) (r : SupReg) : Nat :=
  match r with
  | .codeWin c w => (SMap.get {} (s.core c).codeWin w).word
  | .ctxCmd _ => 0
  | .ctxSave c x => SMap.get 0 (s.core c).ctxSave x
  | .coreSched c => (s.core c).schedWord
  | .clusterOwn c => (s.core c).clusterOwn.toNat
  | .sramSplit c => (s.core c).sramWord
  | .amPort c e => (SMap.get {} (s.core c).amPort e).word
  | .barWinCfg c w => (SMap.get {} (s.core c).barWin w).word
  | .trcCtl c => (s.core c).trc.ctlWord
  | .trcBase c => (s.core c).trc.base
  | .trcSize c => (s.core c).trc.size
  | .trcWptr c => (s.core c).trc.wptr.toNat
  | .trcRptr c => (s.core c).trc.rptr.toNat
  | .trcLost c => (s.core c).trc.lost.toNat
  | .trapRecord n i w => fieldAt (s.trapBytes n i) (8 * w) 8
  | .istore c a => leNat ((s.core c).istore.readBytes (8 * a) 8)
  | .trapqTail n => (s.sect n).trapTail.toNat
  | .trapqHead n => (s.sect n).trapHead.toNat
  | .sectStatus n => (s.sect n).statusWord
  | .tlbInval n => if (s.sect n).invalDone then 1 else 0

/-! ### Other register writes (REGISTER_WRITE) -/

def State.qpWrite (s : State) (qp vf kind : Nat) (v : Dword) : State :=
  if 65536 ≤ qp ∨ 384 ≤ vf ∨ 3 ≤ kind then s.logRefusal 0x600 qp
  else s.updAtt (fun a => { a with qps := SMap.insert a.qps qp { kind := kind, vf := vf, queue := v.toNat % 4096 } })

def State.registerWrite (s : State) (r : DevReg) (v : Dword) : State :=
  let n := v.toNat
  match r with
  | .partCfg p => s.ioWrite64 (0x1000 + 8 * p) n
  | .partQtable p => s.ioWrite64 (0x1100 + 8 * p) n
  | .partCores p d => s.ioWrite64 (0x2000 + 32 * p + 8 * d) n
  | .frameOwnerBase => s.ioWrite64 0x30 n
  | .vfBind f => s.ioWrite64 (0x4000 + 8 * f) n
  | .batchWord0 b => s.ioWrite64 (0x10000 + 16 * b) n
  | .peerGrant e => s.ioWrite64 (0x8000 + 8 * e) n
  | .queueCfg q d => s.queueCfgWrite q d n
  | .hdmWindow ld w p size => s.hdmWrite ld w p n size
  | .qpBind qp f kind => s.qpWrite qp f kind v
  | .amPort c e => s.amPortWrite c e v
  | .ctxSave c x => s.ctxSaveWrite c x v
  | .trcCtl c => s.trcCtlWrite c v
  | .trcBase c => s.trcBaseWrite c v
  | .trcRptr c => s.trcRptrWrite c v
  | .sectStatus sec => s.sectStatusWrite sec v
  | .bootMode => s.bootModeWrite n
  | .hostAccess pa req => if s.mgmt.hostRunning then s.outsideAccess 0 pa req .peer else s
  | .supervisorRead r => s.reply (.data (leBytes 8 (s.supWord r)))
  | .ownData _ pa req => s.outsideAccess 0 pa req .peer
  | .qpPost qp => s.qpPost qp
  | .bar0 f off req => s.bar0 f off req
  | .reserved _ => s

/-! ### The firmware interface (03 R46, R50, R56, R60; 19) -/

/-- A command's event, with its tag. -/
def State.fwAnswer (s : State) (sec : Nat) (tag : Word) (ok : Bool) : State := s.fwPost sec (.answer tag ok)

/-- Load code: the object is checked whole, then its window's bytes go to a free range of a core's store and the window
becomes valid; the map of translated code goes to the buffer that the command names, in memory that partition 0 may write (03 R46,
R50; 19 R383, R395). -/
def State.loadCode (s : State) (sec : Nat) (handle : Word) (part c idx base : Nat) (file : List Byte) (map : Option Nat) :
    Option State :=
  (s.codeImage part file).bind (fun image =>
    let bs := image.code
    let co := s.core c
    let w : CodeWin := { refs := 0, part := part, len := (bs.length + 4095) / 4096, base := base, valid := true }
    let obj := s.codeObjs.find? (fun o => o.handle == handle)
    let clash : Bool := match obj with
      | some o => o.part != part || o.bytes != bs.length
      | none => false
    let foreign : Bool := match map with
      | some a => (s.rangeCheck 0 a image.mapBytes.length true).isSome
      | none => false
    if State.sectOf c ≠ sec ∨ 16 ≤ idx ∨ (SMap.get {} co.codeWin idx).valid ∨ !co.windowFree idx w ∨ clash ∨ foreign then none
    else
      let s := s.istoreWrite c (base * 4096) bs
      let s := s.updCore c (fun co => { co with codeWin := SMap.insert co.codeWin idx w })
      let objs := match obj with
        | some _ => s.codeObjs.map (fun o => if o.handle = handle then { o with places := o.places ++ [(c, idx)] } else o)
        | none => s.codeObjs ++ [{ handle := handle, part := part, places := [(c, idx)], bytes := bs.length }]
      let s := { s with codeObjs := objs }
      some (match map with
        | some a => s.homeWrite a image.mapBytes
        | none => s))

/-- Unloading waits until REFS is zero on every core (03 R50). -/
def State.unloadStep (s : State) (sec : Nat) : State :=
  (s.sect sec).unloads.foldl (fun s u =>
    match s.codeObjs.find? (fun o => o.handle == u.2) with
    | none => (s.updSect sec (fun q => { q with unloads := q.unloads.filter (fun v => v != u) })).fwAnswer sec u.1 false
    | some o =>
      if o.places.any (fun p => (SMap.get {} (s.core p.1).codeWin p.2).refs != 0) then s
      else
        let s := o.places.foldl (fun s p => s.updCore p.1 (fun co =>
          { co with codeWin := SMap.insert co.codeWin p.2 { SMap.get {} co.codeWin p.2 with valid := false } })) s
        let s := { s with codeObjs := s.codeObjs.filter (fun q => q.handle != u.2) }
        (s.updSect sec (fun q => { q with unloads := q.unloads.filter (fun v => v != u) })).fwAnswer sec u.1 true) s

/-- What a command does, and whether the supervisor carries it out. (log 92, DEDUCED) -/
def State.fwCommand (s : State) (sec : Nat) (cmd : FwCommand) : State × Bool :=
  let answer : Option State → State × Bool := fun r => (r.getD s, r.isSome)
  match cmd with
  | .loadCode h part c idx base bs map => answer (s.loadCode sec h part c idx base bs map)
  | .unloadCode _ => (s, true)
  | .createSpace asid v =>
    let sp : Space := { root := bitsOf v.toNat 51 15 * 32768, part := bitsOf v.toNat 12 8, valid := v.getLsbD 0 }
    if 4096 ≤ asid ∨ (sp.valid ∧ !(s.owns sp.part sp.root)) then (s, false)
    else ({ s with aspaces := SMap.insert s.aspaces asid sp }, true)
  | .mapPage asid va level pte => s.writePte asid va level pte.toNat
  | .unmapPage asid va level => s.writePte asid va level 0
  | .pageDataReady asid va staging => s.pageDataReady sec asid va staging
  | .configureRing vf base n =>
    if vf < 384 ∧ (List.range 17).any (fun i => 6 ≤ i && n == 2 ^ i) ∧ (s.rangeCheck 0 base (128 * n) true).isNone then
      ({ s with svcRings := SMap.insert s.svcRings vf { base := base, size := n, last := n - 1 } }, true)
    else (s, false)

/-- The kinds of R46, as the opcodes of the firmware release name them. -/
def fwKind : FwCommand → Nat
  | .loadCode _ _ _ _ _ _ _ => 0
  | .unloadCode _ => 1
  | .createSpace _ _ => 2
  | .mapPage _ _ _ _ => 3
  | .unmapPage _ _ _ => 4
  | .pageDataReady _ _ _ => 5
  | .configureRing _ _ _ => 6

/-- FIRMWARE_INTERFACE_COMMAND: a command is carried out or refused, and answered with its tag. (log 91, DESIGN CHOICE) -/
def State.firmware (s : State) (sec : Nat) (tag : Word) (cmd : FwCommand) : State :=
  let s := s.fwTake sec tag (fwKind cmd)
  match cmd with
  | .unloadCode h => (s.updSect sec (fun q => { q with unloads := q.unloads ++ [(tag, h)] })).unloadStep sec
  | _ =>
    let r := s.fwCommand sec cmd
    r.1.fwAnswer sec tag r.2

end Sys2Proof.Machine
end

