-- ==== Sys2Proof/Machine/Recovery.lean ====
section
/-! DEFINITION. Recovery.lean: detected errors, rollback, the verdict of the reruns, retirement, machine checks, the darn, and
the thermal pre-emption of every context (01 R10, R17, R18; 07 R148; 08 R160; 10 R213 to R216). -/

namespace Sys2Proof.Machine

/-! ### Rollback (10 R214) -/

/-- The scratchpad words of the undo log return to a context's grant as they stood at their first writes (10 R212). -/
def State.undoSpad (s : State) (c : Nat) (k : Ctx) : State :=
  s.updCore c (fun co =>
    { co with spad := k.undoVals.foldl (fun m p => m.writeBytes (k.spadBase + p.1 * 4) (leBytes 4 p.2.toNat)) co.spad })

/-- The words that the reruns write again return to a context's grant (10 R214). -/
def State.redoSpad (s : State) (c : Nat) (k : Ctx) (kept : Memory) : State :=
  s.updCore c (fun co =>
    { co with spad := k.undoVals.foldl (fun m p => m.writeBytes (k.spadBase + p.1 * 4) (kept.readBytes (p.1 * 4) 4)) co.spad })

/-- Tiles return from their shadows: a bound tile takes its shadow; one spilled in the interval takes the shadow that was
spilled with it. -/
def State.undoTiles (s : State) (c x : Nat) (now : Ctx) : State :=
  (List.range 8).foldl (fun s t =>
    if now.spilled.getLsbD t then
      if now.spillClosed.getLsbD t then
        s.updCtx c x (fun k => { k with tiles := putTile k.tiles t [], shadows := putTile k.shadows t []
                                        spilled := k.spilled ||| (1#8 <<< t), spillClosed := k.spillClosed ||| (1#8 <<< t) })
      else match s.ctxFetchPages c x (now.tileAt t) 8 with
        | .ok (s, bs) =>
          let m := tileOfBytes t (bs.drop 16384)
          s.updCtx c x (fun k => { k with tiles := putTile k.tiles t m, shadows := putTile k.shadows t m
                                          spilled := k.spilled &&& ~~~(1#8 <<< t) })
        | .error _ => s
    else
      let m := tilePart now.shadows t
      s.updCtx c x (fun k => { k with tiles := putTile k.tiles t m, shadows := putTile k.shadows t m
                                      spilled := k.spilled &&& ~~~(1#8 <<< t) })) s

/-- What of a context a rollback leaves as it is: its engines with the pages they have translated, its stores beyond the tack
buffer, its place on the core, and what its supervisor has asked of it. -/
def Ctx.keepAround (k now : Ctx) : Ctx :=
  { k with spadBase := now.spadBase, spadLen := now.spadLen, eq := now.eq, eqStopped := now.eqStopped, engPages := now.engPages
           sent := now.sent, peerFailed := now.peerFailed.or k.peerFailed, base := now.base, bound := now.bound
           stopPending := now.stopPending, cooling := now.cooling, parkAsked := now.parkAsked, stopped := now.stopped
           stepping := now.stepping, stepped := now.stepped, uipend := k.uipend ||| now.uipend
           released := now.released, taskCycles := now.taskCycles, budgetEvent := now.budgetEvent }

/-- The checkpoint is reinstated: buffered stores, held commands and the interval's matrix operations go, the undo log is
applied, and every flow owes a sync after the rollback event. -/
def State.rollback (s : State) (c x : Nat) : State :=
  match SMap.find? (s.core c).ckpt x with
  | none => s
  | some q =>
    let now := s.ctx c x
    let owe : Nat × Flow → Nat × Flow := fun p => (p.1, { p.2 with syncOwed := true })
    let taken : BitVec 16 := if now.inHandler && !q.ctx.inHandler then 1#16 <<< now.uisrc.toNat else 0
    let k := { q.ctx.keepAround now with flows := q.ctx.flows.map owe, uipend := q.ctx.uipend ||| now.uipend ||| taken }
    let s := s.undoSpad c now
    let s := (s.setCtx c x k).undoTiles c x now
    let s := s.updCore c (fun co => { co with mxQ := co.mxQ.filter (fun o => o.ctx != x || o.closed) })
    s.emitEvent c x 255 0x6 0 (k.flow 255).here

/-- MATRIX_OP_COMPLETE: the operation at the head of the queue (17 R340). -/
def State.matrixComplete (s : State) (c : Nat) : State :=
  match (s.core c).mxQ with
  | [] => s
  | o :: r =>
    let s := s.updCore c (fun co => { co with mxQ := r })
    if (s.ctx c o.ctx).live then (s.runMx o).tryTeamEnd c o.ctx else s

/-- Does an operation write its context's scratchpad (17 R342)? -/
def MxOp.storesSpad (o : MxOp) : Bool := o.kind == .mst || o.kind == .mplane || o.kind == .munplane

/-- A rollback waits for the operations that write the scratchpad in the interval, with those ahead of them; their writes stay
(17 R342). -/
def State.finishWriters (s : State) (c x : Nat) : Nat → State
  | 0 => s
  | n + 1 =>
    if (s.core c).mxQ.any (fun o => o.ctx == x && !o.closed && o.storesSpad) then (s.matrixComplete c).finishWriters c x n else s

/-- An error that rollback recovers: what the reruns reproduce is kept aside, and the core issues nothing until the
verdict. -/
def State.beginRollback (s : State) (c x : Nat) : State :=
  let co := s.core c
  if !(s.ctx c x).live ∨ (SMap.find? co.rolled x).isSome then s
  else
    let s := s.finishWriters c x co.mxQ.length
    let co := s.core c
    let k := s.ctx c x
    if !k.live then s else
    let kept : Checkpoint := { ctx := k, spad := co.spad.slice k.spadBase k.spadLen
                               mx := co.mxQ.filter (fun o => o.ctx == x && !o.closed) }
    let s := s.updCore c (fun co => { co with rolled := SMap.insert co.rolled x kept })
    s.rollback c x

/-! ### Retirement (01 R17, R18; 10 R215) -/

/-- The four-section group of a physical core. -/
def groupOf (p : Nat) : Nat := if 256 ≤ p then p - 256 else p / 32

def State.physOf (s : State) (c : Nat) : Nat := SMap.get c s.mgmt.remap c

/-- A logical core takes a spare: what moves with it stands under the same number; its L1 keeps the owned words only, and
its contexts go on from their checkpoints. -/
def State.takeSpare (s : State) (c p : Nat) : State :=
  let s := s.updMgmt (fun m => { m with remap := SMap.insert m.remap c p, spares := m.spares.filter (fun q => q != p) })
  s.updCore c (fun co => { invalidateL1 co with l1tlb := [], retiring := false })

/-- Every context of a core stands at its own last checkpoint. -/
def State.rollbackAll (s : State) (c : Nat) : State :=
  let xs := (s.core c).ctxs.map Prod.fst
  let s := xs.foldl (fun s x => if (SMap.find? (s.core c).rolled x).isSome then s else s.rollback c x) s
  s.updCore c (fun co => { co with rolled := [] })

/-- No spare is free: each context, which stands at its checkpoint, raises cause 0x14 and goes to its save area, from which
it may be restored on another core (10 R215). One whose area is refused stays on the core, stopped. (log 69, DEDUCED) -/
def State.failCore (s : State) (c detail : Nat) : State :=
  ((s.core c).ctxs.map Prod.fst).foldl (fun s x =>
    let k := s.ctx c x
    if k.live && !k.stopped.any (fun r => r.cause == 0x15) then
      ((s.stopRaw c x { cause := 0x14, detail := detail }).moveOff c x id).1
    else s) s

/-- A context that was saved with a cause 0x14 raises it again, with another DETAIL. -/
def State.relose (s : State) (area detail : Nat) : State :=
  match SMap.find? s.parkedCtxs area with
  | none => s
  | some k => match k.lost with
    | none => s
    | some r =>
      let r := { r with detail := detail, time := s.cycle }
      { s.queueRecord r with parkedCtxs := SMap.insert s.parkedCtxs area { k with lost := some r } }

/-- A logical core goes offline (01 R17): the contexts that its retirement saved, and those that stand on it, raise cause
0x14 with DETAIL 0x2 (10 R215). SECT_READY of its section stays as it is (01 R15). (log 128, DESIGN CHOICE) -/
def State.coreOffline (s : State) (c : Nat) : State :=
  let s := s.updMgmt (fun m => { m with offline := m.offline ++ [c] })
  let s := s.logEvent 0x06 (s.physOf c) (Config.logCode s.tick) c
  let areas := (s.parkedCtxs.filter (fun p => p.2.home == c && p.2.lost.isSome)).map Prod.fst
  (areas.foldl (fun s a => s.relose a 2) s).failCore c 2

/-- RETIREMENT of a logical core: it takes the first spare of its group, one that served it before among them (01 R18). (log 129,
DESIGN CHOICE) -/
def State.retire (s : State) (c : Nat) : State :=
  let s := s.rollbackAll c
  let old := s.physOf c
  let s := s.updMgmt (fun m => { m with darn := m.darn ++ [old] })
  match s.mgmt.spares.find? (fun p => groupOf p == groupOf old) with
  | some p => s.takeSpare c p
  | none => (s.updCore c (fun co => { co with retiring := true })).failCore c 1

/-- The bytes of an item of a rerun's stream, each part with its lowest byte first (10 R214). (log 110, DESIGN CHOICE) -/
def rerunBytes : RerunItem → List Byte
  | .register d v => leBytes 4 d.toNat ++ leBytes 4 v.toNat
  | .store a d m => leBytes 8 a.toNat ++ leBytes 4 d.toNat ++ leBytes 4 m.toNat

/-- CRC-64 with the ECMA-182 polynomial, initial value zero, the highest bit of each byte first (10 R214). -/
def crcBit (c : BitVec 64) (b : Bool) : BitVec 64 :=
  (c <<< 1) ^^^ (if c.getLsbD 63 != b then 0x42F0E1EBA9EA3693#64 else 0)

def crcByte (c : BitVec 64) (b : Byte) : BitVec 64 := (List.range 8).foldl (fun c i => crcBit c (b.getLsbD (7 - i))) c

def crc64 (bs : List Byte) : BitVec 64 := bs.foldl crcByte 0

/-- The result signature of a rerun. -/
def rerunSignature (r : Rerun) : BitVec 64 := crc64 (r.items.flatMap rerunBytes)

/-- Is a rerun sound: it detects no error, and takes the load log's entries, all of them and at their addresses? -/
def rerunSound (r : Rerun) (logged : Nat) : Bool := !r.error && r.addresses && r.loads == logged

/-- Do two reruns agree (10 R214)? -/
def rerunsAgree (a b : Rerun) (logged : Nat) : Bool :=
  a.count == b.count && rerunSignature a == rerunSignature b && rerunSound a logged && rerunSound b logged

/-- The reruns agree: the second one's state stands, the interval closes with a class 0x03 event, and the darn tests the
core (01 R18). (log 75, DEDUCED) -/
def State.rerunAgrees (s : State) (c x : Nat) (q : Checkpoint) : State :=
  let now := s.ctx c x
  let owed : Nat × Flow → Nat × Flow := fun p => (p.1, { p.2 with syncOwed := (now.flow p.1).syncOwed || p.2.syncOwed })
  let k := { q.ctx.keepAround now with flows := q.ctx.flows.map owed, stopped := q.ctx.stopped, stepping := q.ctx.stepping
                                       stepped := q.ctx.stepped, emitted := [] }
  let s := (s.setCtx c x k).redoSpad c q.ctx q.spad
  let s := s.updCore c (fun co => { co with mxQ := co.mxQ ++ q.mx, rolled := SMap.erase co.rolled x })
  let s := q.ctx.emitted.foldl (fun s e => s.emit c x e.flow e.kind e.payload e.pc e.masks) s
  let s := s.updMgmt (fun m => { m with darn := if m.darn.contains (s.physOf c) then m.darn else m.darn ++ [s.physOf c] })
  (s.closeInterval c x).logEvent 0x03 (s.physOf c) (Config.logCode s.tick) x

/-- RERUN_VERDICT: what the two reruns yield (10 R214, R215). -/
def State.rerunVerdict (s : State) (c x : Nat) (r : Reruns) : State :=
  match SMap.find? (s.core c).rolled x with
  | none => s
  | some q => if rerunsAgree r.first r.second q.ctx.loadLog.length then s.rerunAgrees c x q else s.retire c

/-! ### Detected errors (10 R213; 07 R148) -/

/-- The context that owns a word of a core's L1: the error goes to every context of the word's partition there. (log 76, DEDUCED) -/
def State.ownersOf (s : State) (c pa : Nat) : List Nat :=
  match SMap.find? (s.core c).l1 (pa / 128) with
  | none => []
  | some ln => ((s.core c).ctxs.filter (fun p => p.2.live && p.2.part == ln.part)).map Prod.fst

/-- UNCORRECTABLE_ERROR by its location. -/
def State.hardError (s : State) (c x : Nat) (loc : ErrLocation) : State :=
  match loc with
  | .coreState | .matrix => s.beginRollback c x
  | .log | .checkpoint => s.machineCheck c x 0x2 0
  | .l1 owned pa =>
    if owned then (if (s.ctx c x).live then s.machineCheck c x 0x3 pa else (s.ownersOf c pa).foldl (fun s y => s.machineCheck c y 0x3 pa) s)
    else s.updCore c (fun co => { co with l1 := dropWord co.l1 (pa / 4) })
  | .instructionStore => s.retire c
  | .line pa => if s.poison.contains (pa / 128) then s else { s with poison := s.poison ++ [pa / 128] }

/-- CORRECTED_ERROR: a class 0x02 event, CODE[31] 0. -/
def State.correctedError (s : State) (source : Nat) (code : Word) : State := s.logEvent 0x02 source (code &&& 0x7FFFFFFF) 0

/-! ### The darn (01 R17, R18) -/

/-- A number for a unit: each row, bank and core has its own. -/
def unitKey : DarnUnit → Nat
  | .matrixRow c r => 3 * (c + 512 * r)
  | .sramBank c b => 3 * (c + 512 * b) + 1
  | .core c => 3 * c + 2

def unitCore : DarnUnit → Nat
  | .matrixRow c _ => c
  | .sramBank c _ => c
  | .core c => c

/-- The logical core that a physical core serves. -/
def State.servedBy (s : State) (p : Nat) : Option Nat :=
  (List.range Config.cores).find? (fun c => s.physOf c == p && !s.mgmt.offline.contains c)

/-- Logical cores that wait for a spare: each takes one of its group other than the core it was retired from, or goes
offline where none is under the darn any more. Its contexts stay in their saved state. R18 orders the first retirement alone:
where several wait, the one of the lowest number is served first. (log 111, DESIGN CHOICE) -/
def State.settleRetired (s : State) : State :=
  ((s.cores.filter (fun p => p.2.retiring && !s.mgmt.offline.contains p.1)).map Prod.fst).foldl (fun s c =>
    let old := s.physOf c
    match s.mgmt.spares.find? (fun p => groupOf p == groupOf old && p != old) with
    | some p => s.takeSpare c p
    | none => if s.mgmt.darn.any (fun p => groupOf p == groupOf old) then s else s.coreOffline c) s

/-- Does a physical core do the work of a logical one? -/
def State.inService (s : State) (p : Nat) : Bool := (s.servedBy p).any (fun c => !(s.core c).retiring)

/-- A sound core that serves no logical number joins the spares (01 R18). -/
def State.freeCore (s : State) (p : Nat) : State :=
  if s.inService p then s else s.updMgmt (fun m => { m with spares := m.spares.filter (fun q => q != p) ++ [p] })

/-- A core that cannot be mended is retired for good: it is no spare, and no darn waits for it. -/
def State.condemn (s : State) (p : Nat) : State :=
  let s := match s.servedBy p with
    | some c => if (s.core c).retiring then s else s.retire c
    | none => s
  s.updMgmt (fun m => { m with spares := m.spares.filter (fun q => q != p), darn := m.darn.filter (fun q => q != p) })

/-- The verdict on a unit. A row or bank that is mapped out leaves its core sound. (log 77, DESIGN CHOICE) -/
def State.darnVerdict (s : State) (u : DarnUnit) (p1 p2 p3 : Bool) : State :=
  let key := unitKey u
  let core := unitCore u
  let recent := (SMap.get [] s.mgmt.transients key).filter (fun t => s.mgmt.timeUs < t + 86400000000)
  let transient := p1 && p2 && p3 && decide (recent.length < 2)
  let s := s.updMgmt (fun m => { m with darn := m.darn.filter (fun p => p != core)
                                        transients := if p1 && p2 && p3 then SMap.insert m.transients key (recent ++ [m.timeUs]) else m.transients })
  let s := if transient then (s.logEvent 0x04 core (Config.logCode s.tick) key).freeCore core
    else
      let s := s.logEvent 0x05 core (Config.logCode s.tick) key
      match u with
      | .matrixRow p _ =>
        let n := SMap.get 0 s.mgmt.rowsUsed p
        if n < 4 then (s.updMgmt (fun m => { m with rowsUsed := SMap.insert m.rowsUsed p (n + 1) })).freeCore p else s.condemn p
      | .sramBank p _ =>
        let n := SMap.get 0 s.mgmt.banksUsed p
        if n < 1 then (s.updMgmt (fun m => { m with banksUsed := SMap.insert m.banksUsed p (n + 1) })).freeCore p else s.condemn p
      | .core p => s.condemn p
  s.settleRetired

/-! ### The 105 degree state (01 R10) -/

/-- The live contexts of every core. -/
def State.liveContexts (s : State) : List (Nat × Nat) :=
  s.cores.flatMap (fun (p : Nat × Core) => (p.2.ctxs.filter (fun (q : Nat × Ctx) => q.2.live)).map (fun q => (p.1, q.1)))

/-- May a context be saved for the 105 degree state: it is stopped or stands at a pre-emption point, its engines and matrix
operations are done or stopped, and no rollback is in progress? -/
def State.coolReady (s : State) (c x : Nat) : Bool :=
  let k := s.ctx c x
  (s.core c).rolled == [] && (k.stopped.isSome || k.atPoint) && !s.unsent k 5
    && k.eq.all (fun p => p.2 == [] || (SMap.find? k.eqStopped p.1).isSome) && (s.core c).mxQ.all (fun o => o.ctx != x)

/-- A context is saved for the 105 degree state, as a stop and a park save it; what its supervisor has asked of it stands
when it comes back. One whose save area is refused stays on its core, which stands still. (log 70, DEDUCED) -/
def State.coolSave (s : State) (c x : Nat) : State :=
  let k := s.ctx c x
  let pa := SMap.get 0 (s.core c).ctxSave x
  let q := (if k.stopped.isNone then s.closeInterval c x else s).moveOff c x id
  let s := q.1
  if q.2 then
    let back : Ctx → Ctx := fun o => { o with stopped := k.stopped, stopPending := k.stopPending, parkAsked := k.parkAsked
                                              stepping := k.stepping, stepped := k.stepped }
    { s with parkedCtxs := s.parkedCtxs.map (fun (p : Nat × Ctx) => if p.1 = pa then (p.1, back p.2) else p)
             mgmt := { s.mgmt with saved := s.mgmt.saved ++ [(c, x, some pa)] } }
  else s.updMgmt (fun m => { m with saved := m.saved ++ [(c, x, none)] })

/-- The live contexts that are not saved yet. -/
def State.uncooled (s : State) : List (Nat × Nat) :=
  s.liveContexts.filter (fun p => !s.mgmt.saved.any (fun q => q.1 == p.1 && q.2.1 == p.2))

/-- What can be saved is saved; once nothing is left, the core clock stops and the host complex halts. -/
def State.coolStep (s : State) : State :=
  let s := s.uncooled.foldl (fun s p => if s.coolReady p.1 p.2 then s.coolSave p.1 p.2 else s) s
  if s.uncooled = [] then
    (s.updMgmt (fun m => { m with halted := true, halting := false, hostRunning := false })).logThermal 105
  else s

/-- Every context is pre-empted at its next pre-emption point (10 R208) and saved; then the core clock stops and the host
complex halts. (log 70, DEDUCED) -/
def State.thermalStop (s : State) : State :=
  if s.mgmt.halted then s
  else if s.mgmt.halting then s.coolStep
  else
    let s := s.liveContexts.foldl (fun s p => s.updCtx p.1 p.2 (fun k => { k.drainLoop with cooling := true })) s
    (s.updMgmt (fun m => { m with halting := true, saved := [] })).coolStep

/-- The controller resumes: every context is restored, with the effect of `acq.dev`; one that could not be saved goes on where
it stands. -/
def State.thermalResume (s : State) : State :=
  if !s.mgmt.halted then s
  else
    let saved := s.mgmt.saved
    let s := s.updMgmt (fun m => { m with halted := false, saved := [], hostRunning := m.funcReady.getLsbD 36 })
    saved.foldl (fun s p => match p.2.2 with
      | some pa => (s.restoreFrom p.1 p.2.1 pa).getD s
      | none =>
        let s := (s.updCore p.1 invalidateL1).updCtx p.1 p.2.1 (fun k => { k with cooling := false })
        s.emitEvent p.1 p.2.1 255 0x5 0 ((s.ctx p.1 p.2.1).flow 255).here) s

end Sys2Proof.Machine
end

