-- ==== Sys2Proof/Machine/Sched.lean ====
section
/-! DEFINITION. Sched.lean: the ends of waits, the events of tasks and engines in a core's time, the merge stage, and what
a core cycle does besides issuing (05 R104 to R109; 06 R128 to R131; 08 R159; 16 R331, R335; 17 R340; 23 R409). -/

namespace Sys2Proof.Machine

/-! ### Ends of waits -/

/-- A flow whose wait has ended: in SIMT mode it moves past the instruction, in VLIW mode its bundle issues with the
result. -/
def Ctx.waitOver (k : Ctx) (f : Nat) (result : Word) : Ctx :=
  k.updFlow f (fun fl =>
    if k.vliw then { fl with wait := .none, bwaitResult := some result } else { fl with wait := .none }.advance)

/-- BWAIT_DONE. -/
def State.bwaitDone (s : State) (c x f : Nat) : State :=
  let fl := (s.ctx c x).flow f
  match s.bwaitEnd c x f, fl.wait with
  | some (.error t), _ => (s.updCtx c x (fun k => k.updFlow f (fun fl => { fl with wait := .none }))).stopContext c x f t
  | some (.ok v), .bwait _ _ _ _ dst scope =>
    let s := s.endWait c scope v
    s.updCtx c x (fun k => ((if k.vliw then k else k.deliver s.cycle 1 [⟨.s dst, v⟩]).waitOver f v))
  | _, _ => s

/-- The teams of a context's patch instance on cores, itself among them. -/
def State.patchOf (s : State) (k : Ctx) : List (Nat × Nat) :=
  let pt := s.patchTeams k
  let mine : Ctx → Bool := fun q =>
    q.live && !q.handler && q.grid == k.grid && q.mapIdx / pt == k.mapIdx / pt
      && (k.task.isSome || q.team / pt == k.team / pt)
  s.cores.flatMap (fun (p : Nat × Core) => (p.2.ctxs.filter (fun (q : Nat × Ctx) => mine q.2)).map (fun q => (p.1, q.1)))

/-- Is a team or patch barrier complete (16 R335)? -/
def State.barrierDue (s : State) (c x : Nat) (patch : Bool) : Bool :=
  let k := s.ctx c x
  let waits := k.flows.any (fun p => match p.2.wait with
    | .barrier q _ => q == patch
    | _ => false)
  let away := s.parkedCtxs.any (fun p => !p.2.handler && p.2.grid == k.grid && p.2.mapIdx / s.patchTeams k == k.mapIdx / s.patchTeams k
    && (k.task.isSome || p.2.team / s.patchTeams k == k.team / s.patchTeams k))
  k.live && waits && k.barrierArrived patch
    && (!patch || (!away && (s.patchOf k).all (fun p => (s.ctx p.1 p.2).barrierArrived true)))

/-- The stopped flows of a team go on, each with its acquire. -/
def State.barrierEnd (s : State) (c x : Nat) (patch : Bool) : State :=
  (s.ctx c x).flows.foldl (fun s p => match p.2.wait with
    | .barrier q scope => if q = patch then (s.acquire c scope).updCtx c x (fun k => k.waitOver p.1 0) else s
    | _ => s) s

/-- BARRIER_COMPLETE. -/
def State.barrierComplete (s : State) (c x : Nat) (patch : Bool) : State :=
  if !s.barrierDue c x patch then s
  else if patch then (s.patchOf (s.ctx c x)).foldl (fun s p => s.barrierEnd p.1 p.2 true) s
  else s.barrierEnd c x false

/-! ### Completions of a core -/

/-- LOAD_VALUE_RETURNED: the oldest load whose value is good writes its registers (09 R188). (log 22, DESIGN CHOICE) -/
def State.loadReturned (s : State) (c x : Nat) : State :=
  let k := s.ctx c x
  match k.loads.find? (fun l => l.trap.isNone) with
  | none => s
  | some l =>
    s.setCtx c x { (k.writes l.writes).clearTag l.tag with loads := k.loads.filter (fun q => q.tag != l.tag) }

/-- INTERVAL_AGE_CLOSE (08 R159). -/
def State.ageDue (s : State) (c x : Nat) : Bool := (s.ctx c x).live && 65536 ≤ (s.ctx c x).age

def State.ageClose (s : State) (c x : Nat) : State := if s.ageDue c x then s.closeInterval c x else s

/-- FLOW_BOOST (05 R108); the cycle orders the boosted flows, and their age those of one cycle (05 R107). -/
def State.boostDue (s : State) (c x f : Nat) : Bool :=
  let fl := (s.ctx c x).flow f
  (s.ctx c x).live && 256 ≤ fl.ready && fl.boost.isNone

def State.flowBoost (s : State) (c x f : Nat) : State :=
  if !s.boostDue c x f then s
  else
    (s.updCore c (fun co => { co with boosts := co.boosts + 1 })).updCtx c x (fun k =>
      k.updFlow f (fun fl => { fl with boost := some s.cycle }))

/-! ### Tasks -/

/-- The task that runs in a context, or is saved from it, with an abort that is due (06 R131). -/
def State.abortFor (s : State) (c x : Nat) : Option (Nat × Task) :=
  let here : Task → Bool := fun t => match t.state with
    | .running a b => a == c && b == x
    | .saved a b => a == c && b == x
    | _ => false
  List.find? (fun (p : Nat × Task) => here p.2 && p.2.abortDue.isSome) s.tasks.list

/-- TASK_ABORT: the abort that is due, whether the task runs or is saved (06 R131). -/
def State.taskAbort (s : State) (c x : Nat) : State :=
  match s.abortFor c x with
  | none => s
  | some (t, y) =>
    let cause := y.abortDue.getD 0x04
    match y.state with
    | .saved _ _ => s.abortSaved t cause
    | _ => s.abortTask c x cause false

/-- BUDGET_EVENT at the next pre-emption point (06 R129). (log 18, DEDUCED) -/
def State.budgetDue (s : State) (c x : Nat) : Bool :=
  let k := s.ctx c x
  k.live && k.task.isSome && k.budgetEvent.isSome && k.stopped.isNone && !s.trapOwed c x

def State.budgetStep (s : State) (c x : Nat) : State := if s.budgetDue c x then s.takeBudget c x else s

/-- CYCLE_BUDGET_EXPIRY (06 R128). -/
def State.cyclesDue (s : State) (c x : Nat) : Bool :=
  let k := s.ctx c x
  match s.grid? k.grid with
  | some g => k.live && k.task.isSome && k.budgetEvent.isNone && decide (0 < g.pkt.cycleBudget) && g.pkt.cycleBudget ≤ k.taskCycles
  | none => false

def State.cyclesOver (s : State) (c x : Nat) : State := if s.cyclesDue c x then s.cycleExpiry c x else s

/-- TASK_COMMIT (06 R122). -/
def State.commitStep (s : State) (c x : Nat) : State := if s.commitReady c x then s.commitTask c x else s

/-! ### The merge stage (05 R104 to R109) -/

/-- Insertion of an element before the first one that is not less. -/
def insertBy {α : Type} (less : α → α → Bool) (a : α) : List α → List α
  | [] => [a]
  | b :: r => if less b a then b :: insertBy less a r else a :: b :: r

def sortBy {α : Type} (less : α → α → Bool) (l : List α) : List α := l.foldr (insertBy less) []

/-- A flow and what the merge stage knows of it: the slots that its packet needs, the scalar slots that it needs beside them,
and the instruction-passes in it. -/
structure Cand where
  ctx : Nat
  flow : Nat
  start : Nat
  detach : Nat
  boost : Option Nat
  yields : Option Nat
  slots : BitVec 16 := 0
  scalars : Nat := 0
  passes : Nat := 0
  deriving DecidableEq, Repr

/-- The slots of an instruction-pass beside those taken; none at a collision. A scalar takes k0 if free, else k1. -/
def passSlots (k : Ctx) (o : Opd) (taken : BitVec 16) : Option (BitVec 16) :=
  if isScalar o.major then
    if !taken.getLsbD 10 then some (1#16 <<< 10) else if !taken.getLsbD 11 then some (1#16 <<< 11) else none
  else if simtSlots k o &&& taken = 0 then some (simtSlots k o) else none

/-- Does an instruction-pass behind the first of a packet stand before a busy tile, a full queue or a resource that is not free
(05 R105)? What the passes before it write is pending, so that it is judged on the state before them. -/
def State.planHolds (s : State) (c x f : Nat) (fl : Flow) (g : StopGroup) (o : GroupOp) : Bool :=
  let s := { s with cur := { core := c, ctx := x, flow := f, slot := 0 } }
  let e := s.passEnv o.op o.addr g.pass (maskOf fl.masks g.pass) (g.pass == g.first) (fl.passes.all (fun p => p ≤ g.pass)) g.shadow
  match (planOp { e with k := g.recall e.k } s).2 with
  | .hold g => (((g s).ctx c x).flow f).wait.tries
  | _ => false

/-- The packet of a SIMT flow: instruction-passes in issue order while each is ready and its slots are free. -/
def simtPacket (s : State) (c x f : Nat) (k : Ctx) : Nat → Flow → BitVec 16 → Nat → BitVec 16 × Nat
  | 0, _, taken, n => (taken, n)
  | fuel + 1, fl, taken, n =>
    match fl.group with
    | none => (taken, n)
    | some g =>
      match g.ops[g.pos]? with
      | none => (taken, n)
      | some o =>
        let d := opd o.op
        let held := k.passPending d g.pass s.cycle || (accessPass d.major && s.groupParked c x g.pass) || s.releaseHolds k d
          || (n != 0 && s.planHolds c x f fl g o)
        match passSlots k d taken with
        | none => (taken, n)
        | some sl => if held then (taken, n) else simtPacket s c x f k fuel fl.advance (taken ||| sl) (n + 1)

/-- Does a flow's wait let it try to issue: a retry is tried once what it waits for may have come? -/
def State.waitOpen (s : State) (c x : Nat) (w : Wait) : Bool :=
  match w with
  | .parked => (s.core c).parked.all (fun p => p.ctx != x)
  | .batch => true
  | w => w.retries

/-- The scalar slots k0 and k1 of a mask. -/
def scalarSlots : BitVec 16 := 0x0C00

/-- A flow's packet, where the flow is ready (05 R104, R105): its slots, its scalars and its passes. A flow whose fetch fails
issues its trap alone. -/
def State.packetOf (s : State) (c x f : Nat) : Option (BitVec 16 × Nat × Nat) :=
  let k := s.ctx c x
  let fl := k.flow f
  if !s.mayIssue c x f || fl.masks == [] || fl.wait != .none then none
  else if k.vliw then
    match fetchBundle s c k fl with
    | .error _ => some (0, 0, 1)
    | .ok b =>
      if k.bundleHeld (b.ops.map (fun p => opd p.2)) then none
      else
        let m := b.ops.foldl (fun (m : BitVec 16) p => m ||| (if p.1 < 8 then 1#16 <<< (p.1 + k.base) else 1#16 <<< p.1)) 0
        some (m, 0, 1)
  else
    let start : Except Trap Flow := match fl.group with
      | some _ => .ok fl
      | none => (fetchGroup s c k fl).map (fun ops => { fl with group := some (openGroup fl ops) })
    match start with
    | .error _ => some (0, 0, 1)
    | .ok fl =>
      let r := simtPacket s c x f k 32 fl 0 0
      if r.2 = 0 then none
      else some (r.1 &&& ~~~scalarSlots, ((r.1 &&& scalarSlots).cpop).toNat, r.2)

/-- The age order of flows (05 R107). -/
def Cand.older (a b : Cand) : Bool :=
  if a.start ≠ b.start then a.start < b.start
  else if a.ctx ≠ b.ctx then a.ctx < b.ctx
  else if a.flow = 255 ∨ b.flow = 255 then a.flow == 255 && b.flow != 255
  else if a.detach ≠ b.detach then a.detach < b.detach
  else a.flow < b.flow

/-- The flows of a core in age order. -/
def Core.flowsByAge (co : Core) : List Cand :=
  sortBy Cand.older (co.ctxs.flatMap (fun p => p.2.flows.map (fun q =>
    { ctx := p.1, flow := q.1, start := p.2.start, detach := q.2.detach, boost := q.2.boost
      yields := if p.2.yield && q.2.boost.isNone then some p.2.yieldOrder else none })))

/-- The candidates of a core in age order: its ready flows with their packets. -/
def State.candidates (s : State) (c : Nat) : List Cand :=
  (s.core c).flowsByAge.filterMap (fun a =>
    (s.packetOf c a.ctx a.flow).map (fun r => { a with slots := r.1, scalars := r.2.1, passes := r.2.2 }))

/-- The candidate list in its three parts (05 R107). -/
def Core.order (co : Core) (aged : List Cand) : List Cand :=
  let boosted := sortBy (fun a b => a.boost.getD 0 < b.boost.getD 0) (aged.filter (fun c => c.boost.isSome))
  let plain := aged.filter (fun c => c.boost.isNone && c.yields.isNone)
  let yielding := sortBy (fun a b => a.yields.getD 0 < b.yields.getD 0) (aged.filter (fun c => c.yields.isSome))
  let middle :=
    if co.rr then sortBy (fun a b => (a.ctx + 20 - co.rrPtr) % 20 < (b.ctx + 20 - co.rrPtr) % 20) plain
    else
      let greedy := co.lastIssued.filterMap (fun p => plain.find? (fun c => c.ctx == p.1 && c.flow == p.2))
      greedy ++ plain.filter (fun c => !co.lastIssued.contains (c.ctx, c.flow))
  boosted ++ middle ++ yielding

/-- The slots that a candidate takes beside those taken: its own, and for its scalars k0 where it is free, else k1; none where
they are not free (05 R106). -/
def Cand.fit (c : Cand) (taken : BitVec 16) : Option (BitVec 16) :=
  let free := [10, 11].filter (fun n => !taken.getLsbD n)
  if c.slots &&& taken = 0 ∧ c.scalars ≤ free.length then
    some ((free.take c.scalars).foldl (fun (m : BitVec 16) n => m ||| (1#16 <<< n)) (taken ||| c.slots))
  else none

/-- The scan of the list: up to four flows of different contexts whose packets do not collide (05 R104, R106). -/
def choose : List Cand → List Cand → BitVec 16 → List Cand
  | [], got, _ => got
  | c :: r, got, taken =>
    if 4 ≤ got.length then got
    else if got.any (fun g => g.ctx == c.ctx) then choose r got taken
    else match c.fit taken with
      | some m => choose r (got ++ [c]) m
      | none => choose r got taken

/-- One core's merge: the chosen flows in order. Ready flows that are not chosen count the cycle, and a yield flag clears
when a flow of its context issues (05 R108, R109). -/
def State.mergeCore (s : State) (c : Nat) : State × List (Nat × Nat × Nat) :=
  let co := s.core c
  let cs := s.candidates c
  let got := choose (co.order cs) [] 0
  let waits : Nat → Nat → Bool := fun x f => cs.any (fun a => a.ctx == x && a.flow == f) && !got.any (fun a => a.ctx == x && a.flow == f)
  let age : Nat × Ctx → Nat × Ctx := fun p =>
    let flows : SMap Flow := p.2.flows.map (fun q => (q.1, if waits p.1 q.1 then { q.2 with ready := q.2.ready + 1 } else q.2))
    (p.1, { p.2 with flows := flows, yield := p.2.yield && !got.any (fun a => a.ctx == p.1) })
  let s := s.updCore c (fun co =>
    { co with ctxs := co.ctxs.map age, lastIssued := got.map (fun a => (a.ctx, a.flow))
              rrPtr := match got with
                | a :: _ => if co.rr then (a.ctx + 1) % 20 else co.rrPtr
                | [] => co.rrPtr })
  (s, got.flatMap (fun a => List.replicate a.passes (c, a.ctx, a.flow)))

/-- What a cycle does for contexts, each by its core and its number, in the order in which it is done: that of tasks in age
order, so that the lock requests of one cycle are served in it (06 R125), then the rest. -/
def State.issueOrder {α : Type} (s : State) (l : List (Nat × Nat × α)) : List (Nat × Nat × α) :=
  let task : Nat × Nat × α → Option Nat := fun p => (s.ctx p.1 p.2.1).task
  sortBy (fun a b => match task a, task b with
    | some t, some u => s.olderTask t u
    | _, _ => false) (l.filter (fun p => (task p).isSome)) ++ l.filter (fun p => (task p).isNone)

/-- Every core's merge in a cycle. -/
def State.merge (s : State) : State :=
  let r := (SMap.keys s.cores).foldl (fun (r : State × List (Nat × Nat × Nat)) c =>
    let q := r.1.mergeCore c
    (q.1, r.2 ++ q.2)) (s, [])
  { r.1 with issueQ := r.1.issueOrder r.2 }

/-! ### A core cycle -/

/-- Does a task's cycle count run: not while stopped at a trap, nor while every flow with lanes is parked on a lock (06
R128)? (log 86, DEDUCED) -/
def Ctx.counts (k : Ctx) : Bool :=
  let live := k.flows.filter (fun p => p.2.masks != [])
  k.task.isSome && k.stopped.isNone && !(live != [] && live.all (fun p => match p.2.wait with
    | .lock _ | .room => true
    | _ => false))

/-- A context's clocks: its interval's age, its task's cycles, and the pending marks that end. -/
def Ctx.tock (k : Ctx) (cycle : Nat) : Ctx :=
  { k with age := k.age + 1, taskCycles := if k.counts then k.taskCycles + 1 else k.taskCycles
           pend := k.pend.filter (fun p => match p.till with
             | none => true
             | some t => cycle < t) }

/-- One microsecond of the management controller, with the copy of the log every 60 s (01 R14); it goes on in the 105 degree
state. -/
def State.managementTime (s : State) : State :=
  let s := s.updMgmt (fun m => { m with timeUs := m.timeUs + 1 })
  if s.mgmt.timeUs % 60000000 = 0 then s.updMgmt (fun m => { m with logFlash := m.log }) else s

/-- One microsecond of management time, with the queue controller's slices and idle queues (04 R75). -/
def State.microsecond (s : State) : State :=
  let s := s.managementTime
  let idle := s.qc.cache.foldl (fun (m : SMap Nat) p =>
    SMap.insert m p.1 (if s.dispatchable p.1 then 0 else SMap.get 0 m p.1 + 1)) s.qc.idle
  { s with qc := { s.qc with left := s.qc.left - 1, idle := idle } }

/-- The replays that wait, for a lock or an answer. -/
def State.replays (s : State) : List (Nat × Nat × ParkedPass) :=
  s.cores.flatMap (fun (p : Nat × Core) => (p.2.parked.filter (fun q => q.replaying)).map (fun q => (p.1, q.ctx, q)))

/-- A replay that waits is tried again. -/
def State.retryPass (s : State) (c x : Nat) (p : ParkedPass) : State :=
  let k := s.ctx c x
  if k.stopped.isNone && !s.aborting k.task && (s.core c).parked.contains p then s.replayPass c x p else s

/-- SIMT teams that stand on no slice yet are bound where one is free (05 R96). -/
def State.bindTeams (s : State) : State :=
  s.liveContexts.foldl (fun s p =>
    if !(s.ctx p.1 p.2).bound && !(s.ctx p.1 p.2).vliw then s.bindTeam p.1 p.2 else s) s

/-- A new core cycle: the clocks go on, and what waits for them is tried. (log 7, DESIGN CHOICE) -/
def State.newCycle (s : State) : State :=
  let n := s.cycle + 1
  let tick : Core → Core := fun co =>
    { co with ctxs := co.ctxs.map (fun (q : Nat × Ctx) => (q.1, if q.2.live then q.2.tock n else q.2)) }
  let s := { s with cycle := n, cores := s.cores.map (fun (p : Nat × Core) => (p.1, tick p.2)) }
  let s := if s.mgmt.clockMHz ≤ s.mgmt.usAcc + 1 then (s.updMgmt (fun m => { m with usAcc := 0 })).microsecond
    else s.updMgmt (fun m => { m with usAcc := m.usAcc + 1 })
  let s := if s.calls = [] then s else s.finishCalls
  let s := (s.sects.filter (fun p => p.2.unloads != [])).foldl (fun s p => s.unloadStep p.1) s
  let s : State := if s.sent.isEmpty then s else s.retrySent
  let s := s.bindTeams
  s.liveContexts.foldl (fun s p => if (s.ctx p.1 p.2).mxArr = [] then s else s.issueArrivals p.1 p.2) s

end Sys2Proof.Machine
end

