-- ==== Sys2Proof/Machine/ExecEvents.lean ====
section
/-! DEFINITION. ExecEvents.lean: the meanings of the device's events and of the VLIW stream's items. -/

namespace Sys2Proof.Machine

/-- POWER_CAP_WRITE (R9): A write to POWER_CAP sets the power cap in watts, clamped to the range 800 to 2,000. -/
def execPowerCapWrite (v : Word) (s : State) : Out :=
  .next (s.writePowerCap (v.toNat % 2 ^ 16))

/-- POWER_OVER_CAP (R9): Measured power over the 1 ms window exceeds the cap, and the management controller lowers the core clock by one 100 MHz step, down to 600 MHz. -/
def execPowerOverCap (s : State) : Out :=
  .next (s.clockDown)

/-- POWER_BELOW_CAP (R9): Power has stayed 5 % below the cap for 10 ms, and the core clock is raised by one 100 MHz step. -/
def execPowerBelowCap (s : State) : Out :=
  .next (s.clockUp)

/-- THERMAL_95 (R10): The hottest sensor reaches 95 °C: the core clock is lowered and the event is logged. -/
def execThermal95 (s : State) : Out :=
  .next (s.clockDown.logThermal 95)

/-- THERMAL_105 (R10): The hottest sensor reaches 105 °C: all contexts are pre-empted and saved, the core clock stops and the host complex halts. -/
def execThermal105 (s : State) : Out :=
  .next (s.thermalStop)

/-- THERMAL_TRIP_110 (R10): The hottest sensor reaches 110 °C, and the hardware trip circuit removes module power. -/
def execThermalTrip110 (s : State) : Out :=
  .next (s.breakWrite.updMgmt (fun m => { m with powered := false }))

/-- THERMAL_RESUME (R10): Every sensor reads below 90 °C, and the controller resumes from the 105 °C state. -/
def execThermalResume (s : State) : Out :=
  .next (s.thermalResume)

/-- FIRMWARE_UPDATE (R12): An image is written to the inactive slot, verified and marked pending; a failure keeps the active slot and logs an event. -/
def execFirmwareUpdate (kind : ImageKind) (version : Nat) (verified : ImageWrite) (s : State) : Out :=
  .next (s.firmwareUpdate kind version verified)

/-- RAISE_FUSED_MINIMUM (R12): An explicit command raises the fused minimum security version. -/
def execRaiseFusedMinimum (kind : ImageKind) (version : Nat) (s : State) : Out :=
  .next (s.raiseMinimum kind version)

/-- MANAGEMENT_RESET (R12): A management reset activates pending management firmware. -/
def execManagementReset (s : State) : Out :=
  .next (s.managementReset)

/-- DEVICE_RESET (R40): A device reset reads BOOT_MODE, activates pending images, and has the boot ROM verify and start the management image. -/
def execDeviceReset (s : State) : Out :=
  .next (s.deviceReset)

/-- GET_VERSION (R13): The SPDM GET_VERSION message is answered. -/
def execGetVersion (s : State) : Out :=
  .next (s.spdmAnswer .version .own)

/-- GET_CAPABILITIES (R13): The SPDM GET_CAPABILITIES message is answered. -/
def execGetCapabilities (s : State) : Out :=
  .next (s.spdmAnswer .capabilities .own)

/-- NEGOTIATE_ALGORITHMS (R13): The SPDM NEGOTIATE_ALGORITHMS message is answered, offering Falcon-1024 over SHAKE256. -/
def execNegotiateAlgorithms (s : State) : Out :=
  .next (s.spdmAlgorithms)

/-- GET_DIGESTS (R13): The SPDM GET_DIGESTS message is answered. -/
def execGetDigests (s : State) : Out :=
  .next (s.spdmAnswer .digests .own)

/-- GET_CERTIFICATE (R13): The SPDM GET_CERTIFICATE message is answered. -/
def execGetCertificate (s : State) : Out :=
  .next (s.spdmAnswer .certificate .own)

/-- CHALLENGE (R13): The SPDM CHALLENGE message is answered with a signed response. -/
def execChallenge (s : State) : Out :=
  .next (s.spdmAnswer .challenge .own)

/-- GET_MEASUREMENTS (R13): The SPDM GET_MEASUREMENTS message returns the measurements of the images, the fuse state and the remap table. -/
def execGetMeasurements (s : State) : Out :=
  .next (s.measurements)

/-- LOG_FLASH_COPY (R14): Every 60 s the event log is copied to boot flash. -/
def execLogFlashCopy (s : State) : Out :=
  .next (s.updMgmt (fun m => { m with logFlash := m.log }))

/-- LOG_OVERRUN_CLEAR (R14): Writing 1 to LOG_OVERRUN clears the bit. -/
def execLogOverrunClear (v : Word) (s : State) : Out :=
  .next (s.overrunClear v.toNat)

/-- HBM_STACK_READY (R40): An HBM stack finishes training, scrubbing and keying, and its FUNC_READY bit sets with a class 0x01 event. -/
def execHbmStackReady (stack : Nat) (s : State) : Out :=
  .next (s.stackTrained stack)

/-- SECTION_SELF_TEST_PASS (R40): A section passes self-test, its supervisor is loaded, and its SECT_READY bit sets. -/
def execSectionSelfTestPass (sec : Nat) (s : State) : Out :=
  .next (if sec < 32 then s.sectionReady sec else s)

/-- PORT_TRAINED (R40): An Ethernet or CXL port comes up, and its FUNC_READY bit sets. -/
def execPortTrained (port : NetPort) (s : State) : Out :=
  .next (s.portTrained port)

/-- HOST_COMPLEX_RELEASE (R40): The host-complex image is verified and the host complex is released from reset. -/
def execHostComplexRelease (verified : Bool) (s : State) : Out :=
  .next (s.hostRelease verified)

/-- WYUND_PORT_TRAINED (R37): A Wyund port trains once SET = 1 and its peer answers; a peer reporting this device's own number leaves the port untrained and logs a refusal. -/
def execWyundPortTrained (port : Nat) (peer : BitVec 14) (s : State) : Out :=
  .next (s.wyundTrained port peer.toNat)

/-- WYUND_ID_WRITE (R37): A write while SET = 0 stores DEVICE and sets SET; a write while SET = 1 is ignored and logged. -/
def execWyundIdWrite (v : Dword) (s : State) : Out :=
  .next (s.wyundIdWrite v.toNat)

/-- DARN_VERDICT (R18): The darn pattern test finishes: a transient unit joins the spare pool, and a lasting one is mapped out. -/
def execDarnVerdict (part : DarnUnit) (pass1 : Bool) (pass2 : Bool) (pass3 : Bool) (s : State) : Out :=
  .next (s.darnVerdict part pass1 pass2 pass3)

/-- PART_KEY_GENERATE (R25): KEY_CMD 0b01 generates a partition key if none is held. -/
def execPartKeyGenerate (p : Nat) (s : State) : Out :=
  .next (s.keyGenerate p)

/-- PART_KEY_ERASE (R25): KEY_CMD 0b10 erases the partition key, unless the partition owns a frame. -/
def execPartKeyErase (p : Nat) (s : State) : Out :=
  .next (s.keyErase p)

/-- PARTITION_RESET (R26): Writing 1 to RESET starts a partition reset: VFs are reset, grants invalidated, frames zeroed and released, and the key regenerated. -/
def execPartitionReset (p : Nat) (s : State) : Out :=
  .next (s.partitionReset p)

/-- PARTITION_RESET_COMPLETE (R26): The steps of a partition reset complete, and RESET_BUSY clears. -/
def execPartitionResetComplete (p : Nat) (s : State) : Out :=
  .next (s.partitionResetDone p)

/-- VF_ENABLE (R27): Writing ENABLE := 1 in VF_BIND makes the VF live, or is refused and logged. -/
def execVfEnable (vf : Nat) (v : Dword) (s : State) : Out :=
  .next (s.vfBindWrite vf (v.toNat / 2 * 2 + 1))

/-- VF_DISABLE (R27): Writing ENABLE := 0 starts a VF reset and then leaves the VF unbound. -/
def execVfDisable (vf : Nat) (s : State) : Out :=
  .next (s.vfDisable vf)

/-- FUNCTION_LEVEL_RESET (R41): A PCIe function-level reset of a VF starts a VF reset. -/
def execFunctionLevelReset (vf : Nat) (s : State) : Out :=
  .next (s.vfReset vf)

/-- LD_LINK_DOWN (R30): An LD's link goes down or its host vanishes, and every VF of the LD is reset. -/
def execLdLinkDown (ld : Nat) (s : State) : Out :=
  .next (s.ldDown ld)

/-- VF_RESET_COMPLETE (R42): Steps 4 to 6 complete, a class 0x0A event is logged and RESET_BUSY clears. -/
def execVfResetComplete (vf : Nat) (s : State) : Out :=
  .next (s.vfResetDone vf)

/-- BATCH_SLOT_ACTIVATE (R43): Writing word 1 of a free batch slot makes it active. -/
def execBatchSlotActivate (slot : Nat) (v : Dword) (s : State) : Out :=
  .next (s.batchActivate slot v.toNat)

/-- BATCH_SLOT_FREE (R44): Zeroing ends, waiters on the next phase are released, and STATE becomes free. -/
def execBatchSlotFree (slot : Nat) (s : State) : Out :=
  .next (s.batchFree slot)

/-- CXL_MEM_ACCESS (R29): A host CXL.mem access through an HDM window is checked against FRAME_OWNER and performed at the home slice. -/
def execCxlMemAccess (ld : Nat) (window : Nat) (off : Nat) (req : MemReq) (s : State) : Out :=
  .next (s.cxlAccess ld window off req)

/-- INBOUND_PEER_REQUEST (R38): An inbound Wyund request is matched against PEER_GRANT, then checked and performed, or answered with a grant NAK. -/
def execInboundPeerRequest (dev : BitVec 14) (rpart : Nat) (pa : Nat) (req : MemReq) (s : State) : Out :=
  .next (s.inboundPeer dev.toNat rpart pa req)

/-- FLIT_CRC_RETRY (R36): A flit that fails its CRC is retried by sequence number, without reordering or duplication. -/
def execFlitCrcRetry (port : Nat) (s : State) : Out :=
  .next (s.flitRetry port)

/-- WYUND_PORT_FAIL (R39): A port fails: its traffic moves to its group, or outstanding requests fail with cause 0x16 or an error status. -/
def execWyundPortFail (port : Nat) (s : State) : Out :=
  .next (s.wyundFail port)

/-- RDMA_INBOUND (R32): An RDMA operation arriving on a memory QP acts on the owning partition's memory. -/
def execRdmaInbound (qp : Nat) (pa : Nat) (req : MemReq) (s : State) : Out :=
  .next (s.rdma qp pa req)

/-- QUEUE_FEED_TAIL (R33): A queue-feed WRITE or SEND with immediate rings a doorbell after earlier writes have performed. -/
def execQueueFeedTail (qp : Nat) (tail : Word) (s : State) : Out :=
  .next (s.queueFeed qp tail)

/-- ACTIVE_MESSAGE (R88): An active message is checked and its payload written to the zone, or it is refused or answered with an RNR NAK. -/
def execActiveMessage (qp : Nat) (bytes : List Byte) (s : State) : Out :=
  .next (s.inboundMessage qp bytes)

/-- HANDLER_START (R88): A free dormant handler context starts at HANDLER with its registers set. -/
def execHandlerStart (core : Nat) (s : State) : Out :=
  .next (s.startHandler core)

/-- DOORBELL (R73): A TAIL write is accepted into the cache or the queue table, setting PENDING, or dropped and counted. -/
def execDoorbell (src : DoorbellSource) (queue : Nat) (tail : Word) (s : State) : Out :=
  .next (s.doorbell src queue tail)

/-- QC_SLICE_WRITE (R75): A write to QC_SLICE sets the slice length, a written 0 taken as 1. -/
def execQcSliceWrite (v : Word) (s : State) : Out :=
  .next (s.qcSliceWrite v.toNat)

/-- QC_SLICE_EXPIRY (R75): The residence slice expires, or nothing switched in is dispatchable, and the next pending partition is chosen. -/
def execQcSliceExpiry (s : State) : Out :=
  .next (s.sliceExpiry)

/-- QUEUE_REPLACE (R75): A cached queue idle for one slice is replaced by an uncached pending queue. -/
def execQueueReplace (queue : Nat) (s : State) : Out :=
  .next (s.replaceQueue queue)

/-- PACKET_DISPATCH (R78): The controller reads a queue's head packet and its tables and checks them. -/
def execPacketDispatch (queue : Nat) (s : State) : Out :=
  .next (s.dispatch queue)

/-- MARKER (R78): A marker packet starts and ends in one step, after all earlier packets when WAIT_PRIOR is set. -/
def execMarker (grid : Nat) (s : State) : Out :=
  .next (s.markerStep grid)

/-- TEAM_START (R90): A team, or a patch instance, starts once its predecessors and resources allow. -/
def execTeamStart (grid : Nat) (s : State) : Out :=
  .next (s.startTeams grid)

/-- TASK_START (R91): An initial task starts in map order and takes an age stamp. -/
def execTaskStart (grid : Nat) (s : State) : Out :=
  .next (s.startTask grid)

/-- PENDING_TASK_START (R91): When resources free, the oldest fitting pending task starts on a core of its rectangle. -/
def execPendingTaskStart (core : Nat) (s : State) : Out :=
  .next (s.startPending core)

/-- GRID_END (R83): A grid ends: the completion record is written, then the CBAR arrival, the interrupt and the PROGRESS advance follow. -/
def execGridEnd (grid : Nat) (s : State) : Out :=
  .next (s.finishGrid grid)

/-- CORE_SCHED_WRITE (R107): A write to CORE_SCHED changes the issue policy from the next cycle, and setting round-robin resets RR_PTR. -/
def execCoreSchedWrite (core : Nat) (v : Dword) (s : State) : Out :=
  .next (s.schedWrite core v)

/-- FLOW_BOOST (R108): A flow ready for 256 cycles without issuing becomes boosted. -/
def execFlowBoost (core : Nat) (ctx : Nat) (flow : Nat) (s : State) : Out :=
  .next (s.flowBoost core ctx flow)

/-- CLAIM_GRANT (R95): A pending cluster claim is granted once its block holds no other team and the blocks it needs are free. -/
def execClaimGrant (core : Nat) (s : State) : Out :=
  .next (s.claimStep core)

/-- TASK_COMMIT (R122): With every flow at tend or exit, the task's write set commits atomically, its locks are released and its resources freed. -/
def execTaskCommit (core : Nat) (ctx : Nat) (s : State) : Out :=
  .next (s.commitStep core ctx)

/-- TASK_ABORT (R131): After in-flight accesses land, the task's logs, write set, locks and resources are discarded and it is re-queued whole or split. -/
def execTaskAbort (core : Nat) (ctx : Nat) (s : State) : Out :=
  .next (s.taskAbort core ctx)

/-- BUDGET_EVENT (R129): At the next pre-emption point a budget event aborts and splits the task, or raises the smallest-grain fault. -/
def execBudgetEvent (core : Nat) (ctx : Nat) (s : State) : Out :=
  .next (s.budgetStep core ctx)

/-- CYCLE_BUDGET_EXPIRY (R128): A task's cycle count reaches CYCLE_BUDGET. -/
def execCycleBudgetExpiry (core : Nat) (ctx : Nat) (s : State) : Out :=
  .next (s.cyclesOver core ctx)

/-- INTERVAL_AGE_CLOSE (R159): A tack interval open for 65,536 resident cycles closes at the next boundary. -/
def execIntervalAgeClose (core : Nat) (ctx : Nat) (s : State) : Out :=
  .next (s.ageClose core ctx)

/-- PAGE_WALK (R65): A section TLB miss walks the page tables and installs or faults the translation, setting ACCESSED or DIRTY. -/
def execPageWalk (sec : Nat) (asid : Nat) (va : Nat) (write : Bool) (s : State) : Out :=
  .next (s.pageWalk sec asid va write)

/-- ENGINE_PART_LANDED (R355): The last byte of a part of an engine command's destination performs, and a counting step runs on its notify object. -/
def execEnginePartLanded (core : Nat) (ctx : Nat) (queue : Nat) (s : State) : Out :=
  .next (s.engineStep core ctx queue)

/-- ENGINE_FAULT (R357): An engine command faults during execution, its queue stops, and an engine-queue trap record is written. -/
def execEngineFault (core : Nat) (ctx : Nat) (queue : Nat) (s : State) : Out :=
  .next (s.engineFault core ctx queue)

/-- COLLECTIVE_END (R366): The collective finishes, and the engine writes STATUS after this member's bytes have landed. -/
def execCollectiveEnd (core : Nat) (ctx : Nat) (s : State) : Out :=
  .next (s.collectiveEnd core ctx)

/-- LAUNCH_APPEND (R370): Once the ring has room, the packet is appended, TAIL advances and STATUS is written. -/
def execLaunchAppend (core : Nat) (ctx : Nat) (s : State) : Out :=
  .next (s.launchAppend core ctx)

/-- MATRIX_OP_COMPLETE (R340): The matrix engine completes an operation, its writes are done and the busy bits clear. -/
def execMatrixOpComplete (core : Nat) (s : State) : Out :=
  .next (s.matrixComplete core)

/-- WINDOW_ARRIVAL (R334): An 8 B write to a barrier window runs a counting step, or is dropped, counted and logged. -/
def execWindowArrival (core : Nat) (window : Nat) (part : Nat) (v : Dword) (s : State) : Out :=
  .next (s.windowArrival core window part v.toNat)

/-- UI_RAISE (R210): A write of n to a context's UI_RAISE doorbell sets UIPEND[n], with rel.sys for the writer. -/
def execUiRaise (core : Nat) (ctx : Nat) (part : Nat) (v : Word) (s : State) : Out :=
  .next (s.uiRaise core ctx part v.toNat)

/-- UI_DELIVERY (R210): At a permitted boundary the lowest pending unmasked source is delivered to UIVEC, or a cause 0x13 record is written. -/
def execUiDelivery (core : Nat) (ctx : Nat) (s : State) : Out :=
  .next (s.uiDeliver core ctx)

/-- TLB_INVAL (R68): The supervisor invalidates translations for an ASID, an address and a size across the device. -/
def execTlbInval (sec : Nat) (asid : Nat) (va : Nat) (size : Nat) (s : State) : Out :=
  .next (s.tlbInval sec asid va size)

/-- INVAL_DONE (R68): Every TLB has dropped the entries, walks have finished and old accesses have performed, and INVAL_DONE sets. -/
def execInvalDone (sec : Nat) (s : State) : Out :=
  .next (s.invalComplete sec)

/-- TRAPQ_HEAD_WRITE (R51): The supervisor advances TRAPQ_HEAD, freeing slots for contexts stalled at a trap. -/
def execTrapqHeadWrite (sec : Nat) (v : Word) (s : State) : Out :=
  .next (s.trapHeadWrite sec v)

/-- REPLAY (R54): CTX_CMD 0x1 re-executes the faulting pass or bundle, or continues a context stopped between instructions. -/
def execReplay (core : Nat) (ctx : Nat) (s : State) : Out :=
  .next (s.replay core ctx)

/-- SKIP (R54): CTX_CMD 0x2 continues at the next instruction or bundle. -/
def execSkip (core : Nat) (ctx : Nat) (s : State) : Out :=
  .next (s.skip core ctx)

/-- PARK (R208): CTX_CMD 0x3 saves the context to its save area and frees its core resources. -/
def execPark (core : Nat) (ctx : Nat) (s : State) : Out :=
  .next (s.park core ctx)

/-- RESTORE (R59): CTX_CMD 0x4 checks the save area and restores the context onto this core with acq.dev. -/
def execRestore (core : Nat) (ctx : Nat) (s : State) : Out :=
  .next (s.restore core ctx)

/-- DESTROY (R54): CTX_CMD 0x5 discards the context and frees its resources. -/
def execDestroy (core : Nat) (ctx : Nat) (s : State) : Out :=
  .next (s.destroy core ctx)

/-- FAULT_GRID (R54): CTX_CMD 0x6 destroys every context of the grid and writes a fault completion. -/
def execFaultGrid (core : Nat) (ctx : Nat) (s : State) : Out :=
  .next (s.faultCommand core ctx)

/-- REQUEUE (R132): CTX_CMD 0x7 aborts a task without a split and restarts it, or parks it if it is the oldest task. -/
def execRequeue (core : Nat) (ctx : Nat) (s : State) : Out :=
  .next (s.requeue core ctx)

/-- STEP (R211): CTX_CMD 0x8 issues one stop group or bundle of the named flow. -/
def execStep (core : Nat) (ctx : Nat) (flow : Nat) (s : State) : Out :=
  .next (s.step core ctx flow)

/-- SINGLE_STEP_COMPLETE (R211): The stepped flow completes its step, and a cause 0x01 record with DETAIL 0x2 is written. -/
def execSingleStepComplete (core : Nat) (ctx : Nat) (flow : Nat) (s : State) : Out :=
  .next (s.stepComplete core ctx flow)

/-- STOP (R207): CTX_CMD 0x9 requests a halt at the context's next pre-emption point. -/
def execStop (core : Nat) (ctx : Nat) (s : State) : Out :=
  .next (s.stop core ctx)

/-- STOP_REACHED (R207): The context reaches a pre-emption point and writes a cause 0x17 record. -/
def execStopReached (core : Nat) (ctx : Nat) (s : State) : Out :=
  .next (s.stopReached core ctx)

/-- FLUSH (R135): CTX_CMD 0xA destroys an idem team and restarts it from the kernel entry, or parks it once the flag has cleared. -/
def execFlush (core : Nat) (ctx : Nat) (s : State) : Out :=
  .next (s.flush core ctx)

/-- CTX_CMD_INVALID (R207): CTX_CMD codes 0x0 and 0xB to 0xF set CMD_ERR. -/
def execCtxCmdInvalid (core : Nat) (v : Dword) (s : State) : Out :=
  .next (s.ctxCommand core v)

/-- CODE_WIN_WRITE (R47): A write to CODE_WIN validates, invalidates or reconfigures a code window under its checks. -/
def execCodeWinWrite (core : Nat) (idx : Nat) (v : Dword) (s : State) : Out :=
  .next (s.codeWinWrite core idx v)

/-- ISTORE_WRITE (R48): A supervisor store-port write to the instruction store; a write inside a valid window is dropped and sets ISTORE_ERR. -/
def execIstoreWrite (core : Nat) (addr : Nat) (bytes : List Byte) (s : State) : Out :=
  .next (s.istoreWrite core addr bytes)

/-- SRAM_SPLIT_WRITE (R139): An accepted SRAM_SPLIT write sets BUSY, writes back and invalidates the L1, and zeroes the moving banks; otherwise CMD_ERR is set. -/
def execSramSplitWrite (core : Nat) (v : Dword) (s : State) : Out :=
  .next (s.sramWrite core v)

/-- SRAM_SPLIT_DONE (R139): The division change completes and BUSY clears. -/
def execSramSplitDone (core : Nat) (s : State) : Out :=
  .next (s.sramDone core)

/-- BAR_WIN_CFG_WRITE (R334): A write of BAR_WIN_CFG configures a barrier window; writing VALID := 1 clears DROPPED. -/
def execBarWinCfgWrite (core : Nat) (window : Nat) (v : Dword) (s : State) : Out :=
  .next (s.barWinWrite core window v)

/-- TRC_SIZE_WRITE (R217): A write to TRC_SIZE sets the trace buffer size, clamped to the range 12 to 30. -/
def execTrcSizeWrite (core : Nat) (v : Word) (s : State) : Out :=
  .next (s.trcSizeWrite core v)

/-- UNCORRECTABLE_ERROR (R213): An uncorrectable error is detected in protected core state. -/
def execUncorrectableError (core : Nat) (ctx : Nat) (loc : ErrLocation) (s : State) : Out :=
  .next (s.hardError core ctx loc)

/-- RERUN_VERDICT (R214): The two reruns finish and are compared: the interval closes normally, or retirement follows. -/
def execRerunVerdict (core : Nat) (ctx : Nat) (agree : Reruns) (s : State) : Out :=
  .next (s.rerunVerdict core ctx agree)

/-- CORRECTED_ERROR (R213): A corrected error logs a class 0x02 event. -/
def execCorrectedError (source : BitVec 16) (code : Word) (s : State) : Out :=
  .next (s.correctedError source.toNat code)

/-- REGISTER_WRITE (R3): A write to a device register that has no row of its own. -/
def execRegisterWrite (reg : DevReg) (v : Dword) (s : State) : Out :=
  .next (s.registerWrite reg v)

/-- PATTERN_REFERENCE (R193): A 16-bit parcel that issues a pattern entry as a bundle. -/
def execPatternReference (i : BitVec 9) (s : State) : Out :=
  issueReference i.toNat s

/-- BWAIT_DONE (R331): A waited phase completes, or the deadline passes, and bwait returns. -/
def execBwaitDone (core : Nat) (ctx : Nat) (flow : Nat) (s : State) : Out :=
  .next (s.bwaitDone core ctx flow)

/-- BARRIER_COMPLETE (R335): Every live lane has arrived, and the stopped flows continue with acquire. -/
def execBarrierComplete (core : Nat) (ctx : Nat) (patch : Bool) (s : State) : Out :=
  .next (s.barrierComplete core ctx patch)

/-- VLIW_BUNDLE (R222): A VLIW bundle header and its op words issue as one commit unit. -/
def execVliwBundle (b : Bundle) (s : State) : Out :=
  issueBundle b s

/-- POWER_LOSS (R12): Module power is lost, for example during a firmware write, and the active image slot stays in use. -/
def execPowerLoss (s : State) : Out :=
  .next s.powerLoss

/-- LOAD_VALUE_RETURNED (R188): The value of an outstanding global, private or peer load returns, is written to its destination and releases the interlock; poisoned or failed data traps here. -/
def execLoadValueReturned (core : Nat) (ctx : Nat) (s : State) : Out :=
  .next (s.loadReturned core ctx)

/-- GRANT_NAK (R39): A peer answers an outbound Wyund request with a grant NAK, and the request fails with cause 0x16 or an error status. -/
def execGrantNak (core : Nat) (ctx : Nat) (pa : Dword) (s : State) : Out :=
  .next (s.grantNak core ctx pa)

/-- SERVICE_ENTRY_DONE (R56): The host complex marks a service-ring entry done, and the supervisor harvests it, posts waiting requests and restores the context once every request under its TAG is done. -/
def execServiceEntryDone (vf : Nat) (slot : Nat) (status : Word) (args : List Byte) (s : State) : Out :=
  .next (s.serviceDone vf slot status args)

/-- FIRMWARE_INTERFACE_COMMAND (R46): The supervisor takes a command from its section's command ring (load code, map pages, page data ready and others), checks it and answers with an event. -/
def execFirmwareInterfaceCommand (sec : Nat) (tag : Word) (cmd : FwCommand) (s : State) : Out :=
  .next (s.firmware sec tag cmd)

/-- QUEUE_CTL_READY (R40): The queue controller service starts, QUEUE_CTL sets, and latched doorbells are served. -/
def execQueueCtlReady (s : State) : Out :=
  .next (s.queueCtlReady)

/-- LD_BINDING (R29): The fabric manager binds a CXL logical device to one port and one host through the FM API over MCTP. -/
def execLdBinding (ld : Nat) (port : Nat) (host : Nat) (s : State) : Out :=
  .next (s.ldBind ld port host)

end Sys2Proof.Machine
end

