-- ==== Sys2Proof/Machine/ExecLane.lean ====
section
/-! DEFINITION. ExecLane.lean: the meanings of the lane family, majors 0x28 to 0x4F (13 R257): each issues its op for the current
flow, and the family's plan gives the effect. -/

namespace Sys2Proof.Machine

/-- ADD (R292): Lane add. -/
def execAdd (f : OpF) (s : State) : Out :=
  issue ⟨0x28, 0x00, 0, f, .none⟩ s

/-- ADD_IMM (R292): Lane add of imm6. -/
def execAddImm (f : OpF) (s : State) : Out :=
  issue ⟨0x28, 0x00, 1, f, .none⟩ s

/-- ADD_EXT (R292): Lane add, extended form. -/
def execAddExt (f : OpF) (x : ExtX) (s : State) : Out :=
  issue ⟨0x28, 0x00, 2, f, .x x⟩ s

/-- ADD_PORT (R292): Lane add with port operands. -/
def execAddPort (f : OpF) (s : State) : Out :=
  issue ⟨0x28, 0x00, 3, f, .none⟩ s

/-- SUB (R292): Lane subtract. -/
def execSub (f : OpF) (s : State) : Out :=
  issue ⟨0x29, 0x00, 0, f, .none⟩ s

/-- SUB_IMM (R292): Lane subtract of imm6. -/
def execSubImm (f : OpF) (s : State) : Out :=
  issue ⟨0x29, 0x00, 1, f, .none⟩ s

/-- SUB_EXT (R292): Lane subtract, extended form. -/
def execSubExt (f : OpF) (x : ExtX) (s : State) : Out :=
  issue ⟨0x29, 0x00, 2, f, .x x⟩ s

/-- SUB_PORT (R292): Lane subtract with port operands. -/
def execSubPort (f : OpF) (s : State) : Out :=
  issue ⟨0x29, 0x00, 3, f, .none⟩ s

/-- MUL (R292): Lane multiply. -/
def execMul (f : OpF) (s : State) : Out :=
  issue ⟨0x2A, 0x00, 0, f, .none⟩ s

/-- MUL_IMM (R292): Lane multiply by imm6. -/
def execMulImm (f : OpF) (s : State) : Out :=
  issue ⟨0x2A, 0x00, 1, f, .none⟩ s

/-- MUL_EXT (R293): Lane product, .div or .rem; a zero divisor traps with cause 0x12. -/
def execMulExt (f : OpF) (x : ExtX) (s : State) : Out :=
  issue ⟨0x2A, 0x00, 2, f, .x x⟩ s

/-- MUL_PORT (R292): Lane multiply with port operands. -/
def execMulPort (f : OpF) (s : State) : Out :=
  issue ⟨0x2A, 0x00, 3, f, .none⟩ s

/-- MULH (R292): Lane high-half multiply. -/
def execMulh (f : OpF) (s : State) : Out :=
  issue ⟨0x2B, 0x00, 0, f, .none⟩ s

/-- MULH_EXT (R292): Lane high-half multiply, extended form. -/
def execMulhExt (f : OpF) (x : ExtX) (s : State) : Out :=
  issue ⟨0x2B, 0x00, 2, f, .x x⟩ s

/-- MULH_PORT (R292): Lane high-half multiply with port operands. -/
def execMulhPort (f : OpF) (s : State) : Out :=
  issue ⟨0x2B, 0x00, 3, f, .none⟩ s

/-- MAD (R292): Lane multiply-add with the old d as addend. -/
def execMad (f : OpF) (s : State) : Out :=
  issue ⟨0x2C, 0x00, 0, f, .none⟩ s

/-- MAD_EXT (R292): Lane multiply-add with addend v[C]. -/
def execMadExt (f : OpF) (x : ExtX) (s : State) : Out :=
  issue ⟨0x2C, 0x00, 2, f, .x x⟩ s

/-- MAD_PORT (R292): Lane multiply-add with port operands. -/
def execMadPort (f : OpF) (s : State) : Out :=
  issue ⟨0x2C, 0x00, 3, f, .none⟩ s

/-- AND (R294): Lane bitwise and. -/
def execAnd (f : OpF) (s : State) : Out :=
  issue ⟨0x2D, 0x00, 0, f, .none⟩ s

/-- AND_IMM (R294): Lane bitwise and with imm6. -/
def execAndImm (f : OpF) (s : State) : Out :=
  issue ⟨0x2D, 0x00, 1, f, .none⟩ s

/-- AND_EXT (R294): Lane and, extended form. -/
def execAndExt (f : OpF) (x : ExtX) (s : State) : Out :=
  issue ⟨0x2D, 0x00, 2, f, .x x⟩ s

/-- AND_PORT (R294): Lane and with port operands. -/
def execAndPort (f : OpF) (s : State) : Out :=
  issue ⟨0x2D, 0x00, 3, f, .none⟩ s

/-- OR (R294): Lane bitwise or. -/
def execOr (f : OpF) (s : State) : Out :=
  issue ⟨0x2E, 0x00, 0, f, .none⟩ s

/-- OR_IMM (R294): Lane bitwise or with imm6. -/
def execOrImm (f : OpF) (s : State) : Out :=
  issue ⟨0x2E, 0x00, 1, f, .none⟩ s

/-- OR_EXT (R294): Lane or, extended form. -/
def execOrExt (f : OpF) (x : ExtX) (s : State) : Out :=
  issue ⟨0x2E, 0x00, 2, f, .x x⟩ s

/-- OR_PORT (R294): Lane or with port operands. -/
def execOrPort (f : OpF) (s : State) : Out :=
  issue ⟨0x2E, 0x00, 3, f, .none⟩ s

/-- XOR (R294): Lane bitwise xor. -/
def execXor (f : OpF) (s : State) : Out :=
  issue ⟨0x2F, 0x00, 0, f, .none⟩ s

/-- XOR_IMM (R294): Lane bitwise xor with imm6. -/
def execXorImm (f : OpF) (s : State) : Out :=
  issue ⟨0x2F, 0x00, 1, f, .none⟩ s

/-- XOR_EXT (R294): Lane xor, extended form. -/
def execXorExt (f : OpF) (x : ExtX) (s : State) : Out :=
  issue ⟨0x2F, 0x00, 2, f, .x x⟩ s

/-- XOR_PORT (R294): Lane xor with port operands. -/
def execXorPort (f : OpF) (s : State) : Out :=
  issue ⟨0x2F, 0x00, 3, f, .none⟩ s

/-- NOT (R294): Lane bitwise complement. -/
def execNot (f : OpF) (s : State) : Out :=
  issue ⟨0x30, 0x00, 0, f, .none⟩ s

/-- NOT_EXT (R294): Lane not, extended form. -/
def execNotExt (f : OpF) (x : ExtX) (s : State) : Out :=
  issue ⟨0x30, 0x00, 2, f, .x x⟩ s

/-- NOT_PORT (R294): Lane not of a port. -/
def execNotPort (f : OpF) (s : State) : Out :=
  issue ⟨0x30, 0x00, 3, f, .none⟩ s

/-- ABS (R294): Lane absolute value. -/
def execAbs (f : OpF) (s : State) : Out :=
  issue ⟨0x30, 0x01, 0, f, .none⟩ s

/-- ABS_EXT (R294): Lane abs, extended form. -/
def execAbsExt (f : OpF) (x : ExtX) (s : State) : Out :=
  issue ⟨0x30, 0x01, 2, f, .x x⟩ s

/-- ABS_PORT (R294): Lane abs of a port. -/
def execAbsPort (f : OpF) (s : State) : Out :=
  issue ⟨0x30, 0x01, 3, f, .none⟩ s

/-- NEG (R294): Lane negate. -/
def execNeg (f : OpF) (s : State) : Out :=
  issue ⟨0x30, 0x02, 0, f, .none⟩ s

/-- NEG_EXT (R294): Lane negate, extended form. -/
def execNegExt (f : OpF) (x : ExtX) (s : State) : Out :=
  issue ⟨0x30, 0x02, 2, f, .x x⟩ s

/-- NEG_PORT (R294): Lane negate of a port. -/
def execNegPort (f : OpF) (s : State) : Out :=
  issue ⟨0x30, 0x02, 3, f, .none⟩ s

/-- CLZ (R294): Lane count of leading zeros. -/
def execClz (f : OpF) (s : State) : Out :=
  issue ⟨0x30, 0x03, 0, f, .none⟩ s

/-- CLZ_EXT (R294): Lane clz, extended form. -/
def execClzExt (f : OpF) (x : ExtX) (s : State) : Out :=
  issue ⟨0x30, 0x03, 2, f, .x x⟩ s

/-- CLZ_PORT (R294): Lane clz of a port. -/
def execClzPort (f : OpF) (s : State) : Out :=
  issue ⟨0x30, 0x03, 3, f, .none⟩ s

/-- POPC (R294): Lane population count. -/
def execPopc (f : OpF) (s : State) : Out :=
  issue ⟨0x30, 0x04, 0, f, .none⟩ s

/-- POPC_EXT (R294): Lane popc, extended form. -/
def execPopcExt (f : OpF) (x : ExtX) (s : State) : Out :=
  issue ⟨0x30, 0x04, 2, f, .x x⟩ s

/-- POPC_PORT (R294): Lane popc of a port. -/
def execPopcPort (f : OpF) (s : State) : Out :=
  issue ⟨0x30, 0x04, 3, f, .none⟩ s

/-- BREV (R294): Lane bit reverse. -/
def execBrev (f : OpF) (s : State) : Out :=
  issue ⟨0x30, 0x05, 0, f, .none⟩ s

/-- BREV_EXT (R294): Lane brev, extended form. -/
def execBrevExt (f : OpF) (x : ExtX) (s : State) : Out :=
  issue ⟨0x30, 0x05, 2, f, .x x⟩ s

/-- BREV_PORT (R294): Lane brev of a port. -/
def execBrevPort (f : OpF) (s : State) : Out :=
  issue ⟨0x30, 0x05, 3, f, .none⟩ s

/-- FADD (R299): Lane float add. -/
def execFadd (f : OpF) (s : State) : Out :=
  issue ⟨0x31, 0x00, 0, f, .none⟩ s

/-- FADD_EXT (R299): Lane float add, extended form. -/
def execFaddExt (f : OpF) (x : ExtX) (s : State) : Out :=
  issue ⟨0x31, 0x00, 2, f, .x x⟩ s

/-- FADD_PORT (R299): Lane float add with port operands. -/
def execFaddPort (f : OpF) (s : State) : Out :=
  issue ⟨0x31, 0x00, 3, f, .none⟩ s

/-- FSUB (R299): Lane float subtract. -/
def execFsub (f : OpF) (s : State) : Out :=
  issue ⟨0x32, 0x00, 0, f, .none⟩ s

/-- FSUB_EXT (R299): Lane float subtract, extended form. -/
def execFsubExt (f : OpF) (x : ExtX) (s : State) : Out :=
  issue ⟨0x32, 0x00, 2, f, .x x⟩ s

/-- FSUB_PORT (R299): Lane float subtract with port operands. -/
def execFsubPort (f : OpF) (s : State) : Out :=
  issue ⟨0x32, 0x00, 3, f, .none⟩ s

/-- FMUL (R299): Lane float multiply. -/
def execFmul (f : OpF) (s : State) : Out :=
  issue ⟨0x33, 0x00, 0, f, .none⟩ s

/-- FMUL_EXT (R299): Lane float multiply, extended form. -/
def execFmulExt (f : OpF) (x : ExtX) (s : State) : Out :=
  issue ⟨0x33, 0x00, 2, f, .x x⟩ s

/-- FMUL_PORT (R299): Lane float multiply with port operands. -/
def execFmulPort (f : OpF) (s : State) : Out :=
  issue ⟨0x33, 0x00, 3, f, .none⟩ s

/-- FMA (R299): Lane fused multiply-add with the old d as addend. -/
def execFma (f : OpF) (s : State) : Out :=
  issue ⟨0x34, 0x00, 0, f, .none⟩ s

/-- FMA_EXT (R299): Lane fused multiply-add with addend v[C]. -/
def execFmaExt (f : OpF) (x : ExtX) (s : State) : Out :=
  issue ⟨0x34, 0x00, 2, f, .x x⟩ s

/-- FMA_PORT (R299): Lane fused multiply-add with port operands. -/
def execFmaPort (f : OpF) (s : State) : Out :=
  issue ⟨0x34, 0x00, 3, f, .none⟩ s

/-- FMIN (R300): Lane float minimum. -/
def execFmin (f : OpF) (s : State) : Out :=
  issue ⟨0x35, 0x00, 0, f, .none⟩ s

/-- FMIN_EXT (R300): Lane float minimum, extended form. -/
def execFminExt (f : OpF) (x : ExtX) (s : State) : Out :=
  issue ⟨0x35, 0x00, 2, f, .x x⟩ s

/-- FMIN_PORT (R300): Lane float minimum with port operands. -/
def execFminPort (f : OpF) (s : State) : Out :=
  issue ⟨0x35, 0x00, 3, f, .none⟩ s

/-- FMAX (R300): Lane float maximum. -/
def execFmax (f : OpF) (s : State) : Out :=
  issue ⟨0x36, 0x00, 0, f, .none⟩ s

/-- FMAX_EXT (R300): Lane float maximum, extended form. -/
def execFmaxExt (f : OpF) (x : ExtX) (s : State) : Out :=
  issue ⟨0x36, 0x00, 2, f, .x x⟩ s

/-- FMAX_PORT (R300): Lane float maximum with port operands. -/
def execFmaxPort (f : OpF) (s : State) : Out :=
  issue ⟨0x36, 0x00, 3, f, .none⟩ s

/-- FCMP (R300): Lane float compare for equality, writing a predicate. -/
def execFcmp (f : OpF) (s : State) : Out :=
  issue ⟨0x37, 0x00, 0, f, .none⟩ s

/-- FCMP_EXT (R300): Lane float compare with the condition given by SUB. -/
def execFcmpExt (f : OpF) (x : ExtX) (s : State) : Out :=
  issue ⟨0x37, 0x00, 2, f, .x x⟩ s

/-- FCMP_PORT (R300): Lane float compare with port operands. -/
def execFcmpPort (f : OpF) (s : State) : Out :=
  issue ⟨0x37, 0x00, 3, f, .none⟩ s

/-- CVT (R302): Convert a lane value from TYPE2 to TYPE. -/
def execCvt (f : OpF) (x : ExtX) (s : State) : Out :=
  issue ⟨0x38, 0x00, 2, f, .x x⟩ s

/-- FRND (R301): Round a lane value to an integral float. -/
def execFrnd (f : OpF) (s : State) : Out :=
  issue ⟨0x39, 0x00, 0, f, .none⟩ s

/-- FRND_EXT (R301): Lane frnd with a chosen rounding. -/
def execFrndExt (f : OpF) (x : ExtX) (s : State) : Out :=
  issue ⟨0x39, 0x00, 2, f, .x x⟩ s

/-- FRND_PORT (R301): Lane frnd of a port. -/
def execFrndPort (f : OpF) (s : State) : Out :=
  issue ⟨0x39, 0x00, 3, f, .none⟩ s

/-- RCP (R303): Lane exactly rounded reciprocal. -/
def execRcp (f : OpF) (s : State) : Out :=
  issue ⟨0x3A, 0x00, 0, f, .none⟩ s

/-- RCP_EXT (R303): Lane rcp, extended form. -/
def execRcpExt (f : OpF) (x : ExtX) (s : State) : Out :=
  issue ⟨0x3A, 0x00, 2, f, .x x⟩ s

/-- RCP_PORT (R303): Lane rcp of a port. -/
def execRcpPort (f : OpF) (s : State) : Out :=
  issue ⟨0x3A, 0x00, 3, f, .none⟩ s

/-- RSQ (R303): Lane reciprocal square root. -/
def execRsq (f : OpF) (s : State) : Out :=
  issue ⟨0x3A, 0x01, 0, f, .none⟩ s

/-- RSQ_EXT (R303): Lane rsq, extended form. -/
def execRsqExt (f : OpF) (x : ExtX) (s : State) : Out :=
  issue ⟨0x3A, 0x01, 2, f, .x x⟩ s

/-- RSQ_PORT (R303): Lane rsq of a port. -/
def execRsqPort (f : OpF) (s : State) : Out :=
  issue ⟨0x3A, 0x01, 3, f, .none⟩ s

/-- SQRT (R303): Lane square root. -/
def execSqrt (f : OpF) (s : State) : Out :=
  issue ⟨0x3A, 0x02, 0, f, .none⟩ s

/-- SQRT_EXT (R303): Lane sqrt, extended form. -/
def execSqrtExt (f : OpF) (x : ExtX) (s : State) : Out :=
  issue ⟨0x3A, 0x02, 2, f, .x x⟩ s

/-- SQRT_PORT (R303): Lane sqrt of a port. -/
def execSqrtPort (f : OpF) (s : State) : Out :=
  issue ⟨0x3A, 0x02, 3, f, .none⟩ s

/-- EXP2 (R303): Lane base-2 exponential. -/
def execExp2 (f : OpF) (s : State) : Out :=
  issue ⟨0x3A, 0x03, 0, f, .none⟩ s

/-- EXP2_EXT (R303): Lane exp2, extended form. -/
def execExp2Ext (f : OpF) (x : ExtX) (s : State) : Out :=
  issue ⟨0x3A, 0x03, 2, f, .x x⟩ s

/-- EXP2_PORT (R303): Lane exp2 of a port. -/
def execExp2Port (f : OpF) (s : State) : Out :=
  issue ⟨0x3A, 0x03, 3, f, .none⟩ s

/-- LOG2 (R303): Lane base-2 logarithm. -/
def execLog2 (f : OpF) (s : State) : Out :=
  issue ⟨0x3A, 0x04, 0, f, .none⟩ s

/-- LOG2_EXT (R303): Lane log2, extended form. -/
def execLog2Ext (f : OpF) (x : ExtX) (s : State) : Out :=
  issue ⟨0x3A, 0x04, 2, f, .x x⟩ s

/-- LOG2_PORT (R303): Lane log2 of a port. -/
def execLog2Port (f : OpF) (s : State) : Out :=
  issue ⟨0x3A, 0x04, 3, f, .none⟩ s

/-- SIN (R303): Lane sine. -/
def execSin (f : OpF) (s : State) : Out :=
  issue ⟨0x3A, 0x05, 0, f, .none⟩ s

/-- SIN_EXT (R303): Lane sin, extended form. -/
def execSinExt (f : OpF) (x : ExtX) (s : State) : Out :=
  issue ⟨0x3A, 0x05, 2, f, .x x⟩ s

/-- SIN_PORT (R303): Lane sin of a port. -/
def execSinPort (f : OpF) (s : State) : Out :=
  issue ⟨0x3A, 0x05, 3, f, .none⟩ s

/-- COS (R303): Lane cosine. -/
def execCos (f : OpF) (s : State) : Out :=
  issue ⟨0x3A, 0x06, 0, f, .none⟩ s

/-- COS_EXT (R303): Lane cos, extended form. -/
def execCosExt (f : OpF) (x : ExtX) (s : State) : Out :=
  issue ⟨0x3A, 0x06, 2, f, .x x⟩ s

/-- COS_PORT (R303): Lane cos of a port. -/
def execCosPort (f : OpF) (s : State) : Out :=
  issue ⟨0x3A, 0x06, 3, f, .none⟩ s

/-- TANH (R303): Lane hyperbolic tangent. -/
def execTanh (f : OpF) (s : State) : Out :=
  issue ⟨0x3A, 0x07, 0, f, .none⟩ s

/-- TANH_EXT (R303): Lane tanh, extended form. -/
def execTanhExt (f : OpF) (x : ExtX) (s : State) : Out :=
  issue ⟨0x3A, 0x07, 2, f, .x x⟩ s

/-- TANH_PORT (R303): Lane tanh of a port. -/
def execTanhPort (f : OpF) (s : State) : Out :=
  issue ⟨0x3A, 0x07, 3, f, .none⟩ s

/-- SHL (R295): Lane shift left. -/
def execShl (f : OpF) (s : State) : Out :=
  issue ⟨0x3B, 0x00, 0, f, .none⟩ s

/-- SHL_IMM (R295): Lane shift left by imm6. -/
def execShlImm (f : OpF) (s : State) : Out :=
  issue ⟨0x3B, 0x00, 1, f, .none⟩ s

/-- SHL_EXT (R295): Lane shift left, extended form. -/
def execShlExt (f : OpF) (x : ExtX) (s : State) : Out :=
  issue ⟨0x3B, 0x00, 2, f, .x x⟩ s

/-- SHL_PORT (R295): Lane shift left with port operands. -/
def execShlPort (f : OpF) (s : State) : Out :=
  issue ⟨0x3B, 0x00, 3, f, .none⟩ s

/-- SHR (R295): Lane logical shift right. -/
def execShr (f : OpF) (s : State) : Out :=
  issue ⟨0x3C, 0x00, 0, f, .none⟩ s

/-- SHR_IMM (R295): Lane logical shift right by imm6. -/
def execShrImm (f : OpF) (s : State) : Out :=
  issue ⟨0x3C, 0x00, 1, f, .none⟩ s

/-- SHR_EXT (R295): Lane logical shift right, extended form. -/
def execShrExt (f : OpF) (x : ExtX) (s : State) : Out :=
  issue ⟨0x3C, 0x00, 2, f, .x x⟩ s

/-- SHR_PORT (R295): Lane logical shift right with port operands. -/
def execShrPort (f : OpF) (s : State) : Out :=
  issue ⟨0x3C, 0x00, 3, f, .none⟩ s

/-- SRA (R295): Lane arithmetic shift right. -/
def execSra (f : OpF) (s : State) : Out :=
  issue ⟨0x3D, 0x00, 0, f, .none⟩ s

/-- SRA_IMM (R295): Lane arithmetic shift right by imm6. -/
def execSraImm (f : OpF) (s : State) : Out :=
  issue ⟨0x3D, 0x00, 1, f, .none⟩ s

/-- SRA_EXT (R295): Lane arithmetic shift right, extended form. -/
def execSraExt (f : OpF) (x : ExtX) (s : State) : Out :=
  issue ⟨0x3D, 0x00, 2, f, .x x⟩ s

/-- SRA_PORT (R295): Lane arithmetic shift right with port operands. -/
def execSraPort (f : OpF) (s : State) : Out :=
  issue ⟨0x3D, 0x00, 3, f, .none⟩ s

/-- ROT (R295): Lane rotate left. -/
def execRot (f : OpF) (s : State) : Out :=
  issue ⟨0x3E, 0x00, 0, f, .none⟩ s

/-- ROT_IMM (R295): Lane rotate left by imm6. -/
def execRotImm (f : OpF) (s : State) : Out :=
  issue ⟨0x3E, 0x00, 1, f, .none⟩ s

/-- ROT_EXT (R295): Lane rotate, extended form. -/
def execRotExt (f : OpF) (x : ExtX) (s : State) : Out :=
  issue ⟨0x3E, 0x00, 2, f, .x x⟩ s

/-- ROT_PORT (R295): Lane rotate with port operands. -/
def execRotPort (f : OpF) (s : State) : Out :=
  issue ⟨0x3E, 0x00, 3, f, .none⟩ s

/-- MIN (R297): Lane integer minimum. -/
def execMin (f : OpF) (s : State) : Out :=
  issue ⟨0x3F, 0x00, 0, f, .none⟩ s

/-- MIN_IMM (R297): Lane minimum with imm6. -/
def execMinImm (f : OpF) (s : State) : Out :=
  issue ⟨0x3F, 0x00, 1, f, .none⟩ s

/-- MIN_EXT (R297): Lane minimum, extended form. -/
def execMinExt (f : OpF) (x : ExtX) (s : State) : Out :=
  issue ⟨0x3F, 0x00, 2, f, .x x⟩ s

/-- MIN_PORT (R297): Lane minimum with port operands. -/
def execMinPort (f : OpF) (s : State) : Out :=
  issue ⟨0x3F, 0x00, 3, f, .none⟩ s

/-- MAX (R297): Lane integer maximum. -/
def execMax (f : OpF) (s : State) : Out :=
  issue ⟨0x40, 0x00, 0, f, .none⟩ s

/-- MAX_IMM (R297): Lane maximum with imm6. -/
def execMaxImm (f : OpF) (s : State) : Out :=
  issue ⟨0x40, 0x00, 1, f, .none⟩ s

/-- MAX_EXT (R297): Lane maximum, extended form. -/
def execMaxExt (f : OpF) (x : ExtX) (s : State) : Out :=
  issue ⟨0x40, 0x00, 2, f, .x x⟩ s

/-- MAX_PORT (R297): Lane maximum with port operands. -/
def execMaxPort (f : OpF) (s : State) : Out :=
  issue ⟨0x40, 0x00, 3, f, .none⟩ s

/-- BFE (R296): Lane bit-field extract. -/
def execBfe (f : OpF) (s : State) : Out :=
  issue ⟨0x41, 0x00, 0, f, .none⟩ s

/-- BFE_EXT (R296): Lane bfe, extended form. -/
def execBfeExt (f : OpF) (x : ExtX) (s : State) : Out :=
  issue ⟨0x41, 0x00, 2, f, .x x⟩ s

/-- BFE_PORT (R296): Lane bfe with port operands. -/
def execBfePort (f : OpF) (s : State) : Out :=
  issue ⟨0x41, 0x00, 3, f, .none⟩ s

/-- BFI (R296): Lane bit-field insert into the old d. -/
def execBfi (f : OpF) (s : State) : Out :=
  issue ⟨0x42, 0x00, 0, f, .none⟩ s

/-- BFI_EXT (R296): Lane bit-field insert into v[C]. -/
def execBfiExt (f : OpF) (x : ExtX) (s : State) : Out :=
  issue ⟨0x42, 0x00, 2, f, .x x⟩ s

/-- BFI_PORT (R296): Lane bfi with port operands. -/
def execBfiPort (f : OpF) (s : State) : Out :=
  issue ⟨0x42, 0x00, 3, f, .none⟩ s

/-- CMP (R297): Lane integer compare for equality, writing a predicate. -/
def execCmp (f : OpF) (s : State) : Out :=
  issue ⟨0x43, 0x00, 0, f, .none⟩ s

/-- CMP_IMM (R297): Lane compare for equality with imm6. -/
def execCmpImm (f : OpF) (s : State) : Out :=
  issue ⟨0x43, 0x00, 1, f, .none⟩ s

/-- CMP_EXT (R297): Lane compare with the condition given by SUB. -/
def execCmpExt (f : OpF) (x : ExtX) (s : State) : Out :=
  issue ⟨0x43, 0x00, 2, f, .x x⟩ s

/-- CMP_PORT (R297): Lane compare with port operands. -/
def execCmpPort (f : OpF) (s : State) : Out :=
  issue ⟨0x43, 0x00, 3, f, .none⟩ s

/-- SEL (R298): Lane select on the old d. -/
def execSel (f : OpF) (s : State) : Out :=
  issue ⟨0x44, 0x00, 0, f, .none⟩ s

/-- SEL_EXT (R298): Lane select on predicate p[C]. -/
def execSelExt (f : OpF) (x : ExtX) (s : State) : Out :=
  issue ⟨0x44, 0x00, 2, f, .x x⟩ s

/-- SEL_PORT (R298): Lane select with port operands. -/
def execSelPort (f : OpF) (s : State) : Out :=
  issue ⟨0x44, 0x00, 3, f, .none⟩ s

/-- MOV (R298): Lane move. -/
def execMov (f : OpF) (s : State) : Out :=
  issue ⟨0x45, 0x00, 0, f, .none⟩ s

/-- MOV_EXT (R298): Lane move, extended form. -/
def execMovExt (f : OpF) (x : ExtX) (s : State) : Out :=
  issue ⟨0x45, 0x00, 2, f, .x x⟩ s

/-- MOV_PORT (R298): Copy a port into a lane register. -/
def execMovPort (f : OpF) (s : State) : Out :=
  issue ⟨0x45, 0x00, 3, f, .none⟩ s

/-- MOVI (R298): Load a 32-bit immediate into a lane register. -/
def execMovi (f : OpF) (imm : Word) (s : State) : Out :=
  issue ⟨0x46, 0x00, 2, f, .i imm⟩ s

/-- DP4 (R292): Lane four-byte dot product accumulated into the old d. -/
def execDp4 (f : OpF) (s : State) : Out :=
  issue ⟨0x47, 0x00, 0, f, .none⟩ s

/-- DP4_EXT (R292): Lane dot product accumulated into v[C]. -/
def execDp4Ext (f : OpF) (x : ExtX) (s : State) : Out :=
  issue ⟨0x47, 0x00, 2, f, .x x⟩ s

/-- DP4_PORT (R292): Lane dot product with port operands. -/
def execDp4Port (f : OpF) (s : State) : Out :=
  issue ⟨0x47, 0x00, 3, f, .none⟩ s

/-- PERM (R305): Team-wide gather, with the old d as fill. -/
def execPerm (f : OpF) (s : State) : Out :=
  issue ⟨0x48, 0x00, 0, f, .none⟩ s

/-- PERM_EXT (R305): Team-wide gather, with v[C] as fill. -/
def execPermExt (f : OpF) (x : ExtX) (s : State) : Out :=
  issue ⟨0x48, 0x00, 2, f, .x x⟩ s

/-- PERM_PORT (R305): Gather with port operands. -/
def execPermPort (f : OpF) (s : State) : Out :=
  issue ⟨0x48, 0x00, 3, f, .none⟩ s

/-- SHFL (R306): Span shuffle by index. -/
def execShfl (f : OpF) (s : State) : Out :=
  issue ⟨0x49, 0x00, 0, f, .none⟩ s

/-- SHFL_IMM (R306): Span shuffle by an imm6 index. -/
def execShflImm (f : OpF) (s : State) : Out :=
  issue ⟨0x49, 0x00, 1, f, .none⟩ s

/-- SHFL_EXT (R306): Span shuffle: .idx, .up, .down or .xor. -/
def execShflExt (f : OpF) (x : ExtX) (s : State) : Out :=
  issue ⟨0x49, 0x00, 2, f, .x x⟩ s

/-- SHFL_PORT (R306): Span shuffle with port operands. -/
def execShflPort (f : OpF) (s : State) : Out :=
  issue ⟨0x49, 0x00, 3, f, .none⟩ s

/-- VOTE (R308): Ballot of a predicate across the span. -/
def execVote (f : OpF) (s : State) : Out :=
  issue ⟨0x4A, 0x00, 0, f, .none⟩ s

/-- VOTE_EXT (R308): Vote: .ballot, .any, .all or .uni. -/
def execVoteExt (f : OpF) (x : ExtX) (s : State) : Out :=
  issue ⟨0x4A, 0x00, 2, f, .x x⟩ s

/-- VOTE_PORT (R308): Ballot of a register or port being non-zero. -/
def execVotePort (f : OpF) (s : State) : Out :=
  issue ⟨0x4A, 0x00, 3, f, .none⟩ s

/-- SCAN (R309): Inclusive scan add over the span. -/
def execScan (f : OpF) (s : State) : Out :=
  issue ⟨0x4B, 0x00, 0, f, .none⟩ s

/-- SCAN_EXT (R309): Inclusive scan with the operation given by SUB. -/
def execScanExt (f : OpF) (x : ExtX) (s : State) : Out :=
  issue ⟨0x4B, 0x00, 2, f, .x x⟩ s

/-- SCAN_PORT (R309): Scan of a port. -/
def execScanPort (f : OpF) (s : State) : Out :=
  issue ⟨0x4B, 0x00, 3, f, .none⟩ s

/-- RED (R309): Reduction add over the span. -/
def execRed (f : OpF) (s : State) : Out :=
  issue ⟨0x4C, 0x00, 0, f, .none⟩ s

/-- RED_EXT (R309): Reduction with the operation given by SUB. -/
def execRedExt (f : OpF) (x : ExtX) (s : State) : Out :=
  issue ⟨0x4C, 0x00, 2, f, .x x⟩ s

/-- RED_PORT (R309): Reduction of a port. -/
def execRedPort (f : OpF) (s : State) : Out :=
  issue ⟨0x4C, 0x00, 3, f, .none⟩ s

/-- BCAST (R307): Broadcast one lane's value across the span. -/
def execBcast (f : OpF) (s : State) : Out :=
  issue ⟨0x4D, 0x00, 0, f, .none⟩ s

/-- BCAST_IMM (R307): Broadcast from an imm6 lane. -/
def execBcastImm (f : OpF) (s : State) : Out :=
  issue ⟨0x4D, 0x00, 1, f, .none⟩ s

/-- BCAST_EXT (R307): Broadcast with v[C] as fill. -/
def execBcastExt (f : OpF) (x : ExtX) (s : State) : Out :=
  issue ⟨0x4D, 0x00, 2, f, .x x⟩ s

/-- BCAST_PORT (R307): Broadcast with port operands. -/
def execBcastPort (f : OpF) (s : State) : Out :=
  issue ⟨0x4D, 0x00, 3, f, .none⟩ s

/-- SAMPLE (R310): Draw a span lane in proportion to its weight. -/
def execSample (f : OpF) (s : State) : Out :=
  issue ⟨0x4E, 0x00, 0, f, .none⟩ s

/-- SAMPLE_EXT (R310): Weighted draw, with carry-in and total under .cin. -/
def execSampleExt (f : OpF) (x : ExtX) (s : State) : Out :=
  issue ⟨0x4E, 0x00, 2, f, .x x⟩ s

/-- XMOV (R312): Copy a register between clusters or half-groups. -/
def execXmov (f : OpF) (s : State) : Out :=
  issue ⟨0x4F, 0x00, 0, f, .none⟩ s

end Sys2Proof.Machine
end

