-- ==== Sys2Proof/Machine/ExecMatrix.lean ====
section
/-! DEFINITION. ExecMatrix.lean: the meanings of the matrix family, majors 0x5D to 0x69 (13 R257): each issues its op for the current
flow, and the family's plan gives the effect. -/

namespace Sys2Proof.Machine

/-- MMA (R345): Float matrix multiply-accumulate, bf16 by bf16. -/
def execMma (f : OpF) (s : State) : Out :=
  issue ⟨0x5D, 0x00, 0, f, .none⟩ s

/-- MMA_EXT (R345): Float MMA with chosen f16 or bf16 formats. -/
def execMmaExt (f : OpF) (x : ExtX) (s : State) : Out :=
  issue ⟨0x5D, 0x00, 2, f, .x x⟩ s

/-- MMAQ (R346): Quantised matrix multiply with group scales. -/
def execMmaq (f : OpF) (x : ExtX) (s : State) : Out :=
  issue ⟨0x5E, 0x00, 2, f, .x x⟩ s

/-- MZERO (R348): Zero a tile. -/
def execMzero (f : OpF) (s : State) : Out :=
  issue ⟨0x5F, 0x00, 0, f, .none⟩ s

/-- MLD (R348): Load a tile from element-form scratchpad. -/
def execMld (f : OpF) (s : State) : Out :=
  issue ⟨0x60, 0x00, 0, f, .none⟩ s

/-- MLD_EXT (R348): Load a tile, with an offset. -/
def execMldExt (f : OpF) (m : ExtM) (s : State) : Out :=
  issue ⟨0x60, 0x00, 2, f, .m m⟩ s

/-- MST (R348): Store a tile to element-form scratchpad. -/
def execMst (f : OpF) (s : State) : Out :=
  issue ⟨0x61, 0x00, 0, f, .none⟩ s

/-- MST_EXT (R348): Store a tile, with an offset. -/
def execMstExt (f : OpF) (m : ExtM) (s : State) : Out :=
  issue ⟨0x61, 0x00, 2, f, .m m⟩ s

/-- MPLANE (R350): Convert an element-form operand to plane form, bf16. -/
def execMplane (f : OpF) (s : State) : Out :=
  issue ⟨0x62, 0x00, 0, f, .none⟩ s

/-- MPLANE_EXT (R350): Convert to plane form, with a chosen type. -/
def execMplaneExt (f : OpF) (x : ExtX) (s : State) : Out :=
  issue ⟨0x62, 0x00, 2, f, .x x⟩ s

/-- MUNPLANE (R350): Convert a plane-form operand to element form. -/
def execMunplane (f : OpF) (s : State) : Out :=
  issue ⟨0x63, 0x00, 0, f, .none⟩ s

/-- MUNPLANE_EXT (R350): Convert to element form, with a chosen type. -/
def execMunplaneExt (f : OpF) (x : ExtX) (s : State) : Out :=
  issue ⟨0x63, 0x00, 2, f, .x x⟩ s

/-- MTR (R349): Transpose a tile. -/
def execMtr (f : OpF) (s : State) : Out :=
  issue ⟨0x64, 0x00, 0, f, .none⟩ s

/-- MADD (R349): Add two tiles element by element. -/
def execMadd (f : OpF) (s : State) : Out :=
  issue ⟨0x65, 0x00, 0, f, .none⟩ s

/-- MADD_EXT (R349): Tile add with a chosen rounding and saturation. -/
def execMaddExt (f : OpF) (x : ExtX) (s : State) : Out :=
  issue ⟨0x65, 0x00, 2, f, .x x⟩ s

/-- MSCALE (R349): Scale a tile by a scalar. -/
def execMscale (f : OpF) (s : State) : Out :=
  issue ⟨0x66, 0x00, 0, f, .none⟩ s

/-- MSCALE_EXT (R349): Tile scale with a chosen rounding and saturation. -/
def execMscaleExt (f : OpF) (x : ExtX) (s : State) : Out :=
  issue ⟨0x66, 0x00, 2, f, .x x⟩ s

/-- SCL (R344): Load a scale-register quarter from scratchpad. -/
def execScl (f : OpF) (s : State) : Out :=
  issue ⟨0x67, 0x00, 0, f, .none⟩ s

/-- SCL_EXT (R344): Load a scale quarter with a chosen width and offset. -/
def execSclExt (f : OpF) (m : ExtM) (s : State) : Out :=
  issue ⟨0x67, 0x00, 2, f, .m m⟩ s

/-- MBATCH (R351): Close a batch and return its number. -/
def execMbatch (f : OpF) (s : State) : Out :=
  issue ⟨0x68, 0x00, 0, f, .none⟩ s

/-- MWAIT (R352): Wait for batches up to s[A] to complete. -/
def execMwait (f : OpF) (s : State) : Out :=
  issue ⟨0x69, 0x00, 0, f, .none⟩ s

/-- MWAIT_IMM (R352): Wait until at most k closed batches are incomplete. -/
def execMwaitImm (f : OpF) (s : State) : Out :=
  issue ⟨0x69, 0x00, 1, f, .none⟩ s

end Sys2Proof.Machine
end

