-- ==== Sys2Proof/Machine/ExecMemory.lean ====
section
/-! DEFINITION. ExecMemory.lean: the meanings of the memory and synchronisation family, majors 0x50 to 0x5C (13 R257): each issues its op for the current
flow, and the family's plan gives the effect. -/

namespace Sys2Proof.Machine

/-- LD (R317): Per-lane load of b32 from the .g space. -/
def execLd (f : OpF) (s : State) : Out :=
  issue ⟨0x50, 0x00, 0, f, .none⟩ s

/-- LD_EXT (R317): Per-lane load of any space and width, with an offset. -/
def execLdExt (f : OpF) (m : ExtM) (s : State) : Out :=
  issue ⟨0x50, 0x00, 2, f, .m m⟩ s

/-- ST (R318): Per-lane store of b32 to the .g space. -/
def execSt (f : OpF) (s : State) : Out :=
  issue ⟨0x51, 0x00, 0, f, .none⟩ s

/-- ST_EXT (R318): Per-lane store of any space and width, with an offset. -/
def execStExt (f : OpF) (m : ExtM) (s : State) : Out :=
  issue ⟨0x51, 0x00, 2, f, .m m⟩ s

/-- ATOM (R320): Per-lane atomic add, returning the old value. -/
def execAtom (f : OpF) (s : State) : Out :=
  issue ⟨0x52, 0x00, 0, f, .none⟩ s

/-- ATOM_EXT (R320): Per-lane atomic with the operation, space and scope given in the extended word. -/
def execAtomExt (f : OpF) (m : ExtM) (s : State) : Out :=
  issue ⟨0x52, 0x00, 2, f, .m m⟩ s

/-- REDM (R322): Per-lane reduction to memory, add. -/
def execRedm (f : OpF) (s : State) : Out :=
  issue ⟨0x53, 0x00, 0, f, .none⟩ s

/-- REDM_EXT (R322): Per-lane reduction to memory, with the operation given in the extended word. -/
def execRedmExt (f : OpF) (m : ExtM) (s : State) : Out :=
  issue ⟨0x53, 0x00, 2, f, .m m⟩ s

/-- PEXPORT (R325): Export a private offset as a global address. -/
def execPexport (f : OpF) (s : State) : Out :=
  issue ⟨0x54, 0x00, 0, f, .none⟩ s

/-- BINIT (R329): Initialise a barrier object. -/
def execBinit (f : OpF) (s : State) : Out :=
  issue ⟨0x55, 0x00, 0, f, .none⟩ s

/-- BINIT_EXT (R329): Initialise a barrier object at an offset. -/
def execBinitExt (f : OpF) (m : ExtM) (s : State) : Out :=
  issue ⟨0x55, 0x00, 2, f, .m m⟩ s

/-- BARR (R330): Arrive on a barrier object with a release. -/
def execBarr (f : OpF) (s : State) : Out :=
  issue ⟨0x56, 0x00, 0, f, .none⟩ s

/-- BARR_EXT (R330): Arrive with the space, scope, .mx and offset given in the extended word. -/
def execBarrExt (f : OpF) (m : ExtM) (s : State) : Out :=
  issue ⟨0x56, 0x00, 2, f, .m m⟩ s

/-- BARRX (R330): Raise expected bytes, then arrive. -/
def execBarrx (f : OpF) (s : State) : Out :=
  issue ⟨0x57, 0x00, 0, f, .none⟩ s

/-- BARRX_EXT (R330): barrx, extended form. -/
def execBarrxExt (f : OpF) (m : ExtM) (s : State) : Out :=
  issue ⟨0x57, 0x00, 2, f, .m m⟩ s

/-- BWAIT (R331): Wait for a barrier phase to complete, with an acquire. -/
def execBwait (f : OpF) (s : State) : Out :=
  issue ⟨0x58, 0x00, 0, f, .none⟩ s

/-- BWAIT_EXT (R331): Wait for a phase, with a deadline under .dl. -/
def execBwaitExt (f : OpF) (m : ExtM) (s : State) : Out :=
  issue ⟨0x58, 0x00, 2, f, .m m⟩ s

/-- BTEST (R332): Test whether a phase is complete. -/
def execBtest (f : OpF) (s : State) : Out :=
  issue ⟨0x59, 0x00, 0, f, .none⟩ s

/-- FENCE (R165): Release followed by acquire, with a full wait. -/
def execFence (f : OpF) (s : State) : Out :=
  issue ⟨0x5A, 0x00, 0, f, .none⟩ s

/-- FENCE_EXT (R165): Fence at a chosen scope. -/
def execFenceExt (f : OpF) (m : ExtM) (s : State) : Out :=
  issue ⟨0x5A, 0x00, 2, f, .m m⟩ s

/-- ACQ (R164): Acquire. -/
def execAcq (f : OpF) (s : State) : Out :=
  issue ⟨0x5A, 0x01, 0, f, .none⟩ s

/-- ACQ_EXT (R164): Acquire at a chosen scope. -/
def execAcqExt (f : OpF) (m : ExtM) (s : State) : Out :=
  issue ⟨0x5A, 0x01, 2, f, .m m⟩ s

/-- REL (R163): Release. -/
def execRel (f : OpF) (s : State) : Out :=
  issue ⟨0x5A, 0x02, 0, f, .none⟩ s

/-- REL_EXT (R163): Release at a chosen scope. -/
def execRelExt (f : OpF) (m : ExtM) (s : State) : Out :=
  issue ⟨0x5A, 0x02, 2, f, .m m⟩ s

/-- DRAIN (R165): Close the interval and wait until every access has performed. -/
def execDrain (f : OpF) (s : State) : Out :=
  issue ⟨0x5A, 0x03, 0, f, .none⟩ s

/-- DRAIN_EXT (R165): drain, extended form. -/
def execDrainExt (f : OpF) (m : ExtM) (s : State) : Out :=
  issue ⟨0x5A, 0x03, 2, f, .m m⟩ s

/-- PFENCE (R177): Hold the flow until its .s stores are on the matrix path. -/
def execPfence (f : OpF) (s : State) : Out :=
  issue ⟨0x5A, 0x04, 0, f, .none⟩ s

/-- PFENCE_EXT (R177): pfence, extended form. -/
def execPfenceExt (f : OpF) (m : ExtM) (s : State) : Out :=
  issue ⟨0x5A, 0x04, 2, f, .m m⟩ s

/-- TBAR (R335): Team barrier. -/
def execTbar (f : OpF) (s : State) : Out :=
  issue ⟨0x5B, 0x00, 0, f, .none⟩ s

/-- TBAR_EXT (R335): Team barrier with a scope and .mx. -/
def execTbarExt (f : OpF) (m : ExtM) (s : State) : Out :=
  issue ⟨0x5B, 0x00, 2, f, .m m⟩ s

/-- PBAR (R335): Patch barrier. -/
def execPbar (f : OpF) (s : State) : Out :=
  issue ⟨0x5C, 0x00, 0, f, .none⟩ s

/-- PBAR_EXT (R335): Patch barrier with a scope and .mx. -/
def execPbarExt (f : OpF) (m : ExtM) (s : State) : Out :=
  issue ⟨0x5C, 0x00, 2, f, .m m⟩ s

end Sys2Proof.Machine
end

