-- ==== Sys2Proof/Machine/ExecScalar.lean ====
section
/-! DEFINITION. ExecScalar.lean: the meanings of the scalar family, majors 0x00 to 0x14 (13 R257): each issues its op for the current
flow, and the family's plan gives the effect. -/

namespace Sys2Proof.Machine

/-- NOP (R259): Does nothing. -/
def execNop (f : OpF) (s : State) : Out :=
  issue ⟨0x00, 0x00, 0, f, .none⟩ s

/-- SADD (R267): Scalar add, register form. -/
def execSadd (f : OpF) (s : State) : Out :=
  issue ⟨0x01, 0x00, 0, f, .none⟩ s

/-- SADD_IMM (R267): Scalar add of imm6. -/
def execSaddImm (f : OpF) (s : State) : Out :=
  issue ⟨0x01, 0x00, 1, f, .none⟩ s

/-- SADD_EXT (R267): Scalar add, extended form. -/
def execSaddExt (f : OpF) (x : ExtX) (s : State) : Out :=
  issue ⟨0x01, 0x00, 2, f, .x x⟩ s

/-- SSUB (R267): Scalar subtract, register form. -/
def execSsub (f : OpF) (s : State) : Out :=
  issue ⟨0x02, 0x00, 0, f, .none⟩ s

/-- SSUB_IMM (R267): Scalar subtract of imm6. -/
def execSsubImm (f : OpF) (s : State) : Out :=
  issue ⟨0x02, 0x00, 1, f, .none⟩ s

/-- SSUB_EXT (R267): Scalar subtract, extended form. -/
def execSsubExt (f : OpF) (x : ExtX) (s : State) : Out :=
  issue ⟨0x02, 0x00, 2, f, .x x⟩ s

/-- SMUL (R267): Scalar multiply, register form. -/
def execSmul (f : OpF) (s : State) : Out :=
  issue ⟨0x03, 0x00, 0, f, .none⟩ s

/-- SMUL_IMM (R267): Scalar multiply by imm6. -/
def execSmulImm (f : OpF) (s : State) : Out :=
  issue ⟨0x03, 0x00, 1, f, .none⟩ s

/-- SMUL_EXT (R268): Scalar product, .div or .rem; a zero divisor traps with cause 0x12. -/
def execSmulExt (f : OpF) (x : ExtX) (s : State) : Out :=
  issue ⟨0x03, 0x00, 2, f, .x x⟩ s

/-- SMULH (R267): Scalar high-half multiply. -/
def execSmulh (f : OpF) (s : State) : Out :=
  issue ⟨0x04, 0x00, 0, f, .none⟩ s

/-- SMULH_EXT (R267): Scalar high-half multiply, extended form. -/
def execSmulhExt (f : OpF) (x : ExtX) (s : State) : Out :=
  issue ⟨0x04, 0x00, 2, f, .x x⟩ s

/-- SAND (R267): Scalar bitwise and. -/
def execSand (f : OpF) (s : State) : Out :=
  issue ⟨0x05, 0x00, 0, f, .none⟩ s

/-- SAND_IMM (R267): Scalar bitwise and with imm6. -/
def execSandImm (f : OpF) (s : State) : Out :=
  issue ⟨0x05, 0x00, 1, f, .none⟩ s

/-- SAND_EXT (R267): Scalar and, extended form. -/
def execSandExt (f : OpF) (x : ExtX) (s : State) : Out :=
  issue ⟨0x05, 0x00, 2, f, .x x⟩ s

/-- SOR (R267): Scalar bitwise or. -/
def execSor (f : OpF) (s : State) : Out :=
  issue ⟨0x06, 0x00, 0, f, .none⟩ s

/-- SOR_IMM (R267): Scalar bitwise or with imm6. -/
def execSorImm (f : OpF) (s : State) : Out :=
  issue ⟨0x06, 0x00, 1, f, .none⟩ s

/-- SOR_EXT (R267): Scalar or, extended form. -/
def execSorExt (f : OpF) (x : ExtX) (s : State) : Out :=
  issue ⟨0x06, 0x00, 2, f, .x x⟩ s

/-- SXOR (R267): Scalar bitwise xor. -/
def execSxor (f : OpF) (s : State) : Out :=
  issue ⟨0x07, 0x00, 0, f, .none⟩ s

/-- SXOR_IMM (R267): Scalar bitwise xor with imm6. -/
def execSxorImm (f : OpF) (s : State) : Out :=
  issue ⟨0x07, 0x00, 1, f, .none⟩ s

/-- SXOR_EXT (R267): Scalar xor, extended form. -/
def execSxorExt (f : OpF) (x : ExtX) (s : State) : Out :=
  issue ⟨0x07, 0x00, 2, f, .x x⟩ s

/-- SSHL (R269): Scalar shift left. -/
def execSshl (f : OpF) (s : State) : Out :=
  issue ⟨0x08, 0x00, 0, f, .none⟩ s

/-- SSHL_IMM (R269): Scalar shift left by imm6. -/
def execSshlImm (f : OpF) (s : State) : Out :=
  issue ⟨0x08, 0x00, 1, f, .none⟩ s

/-- SSHL_EXT (R269): Scalar shift left, extended form. -/
def execSshlExt (f : OpF) (x : ExtX) (s : State) : Out :=
  issue ⟨0x08, 0x00, 2, f, .x x⟩ s

/-- SSHR (R269): Scalar logical shift right. -/
def execSshr (f : OpF) (s : State) : Out :=
  issue ⟨0x09, 0x00, 0, f, .none⟩ s

/-- SSHR_IMM (R269): Scalar logical shift right by imm6. -/
def execSshrImm (f : OpF) (s : State) : Out :=
  issue ⟨0x09, 0x00, 1, f, .none⟩ s

/-- SSHR_EXT (R269): Scalar logical shift right, extended form. -/
def execSshrExt (f : OpF) (x : ExtX) (s : State) : Out :=
  issue ⟨0x09, 0x00, 2, f, .x x⟩ s

/-- SSRA (R269): Scalar arithmetic shift right. -/
def execSsra (f : OpF) (s : State) : Out :=
  issue ⟨0x0A, 0x00, 0, f, .none⟩ s

/-- SSRA_IMM (R269): Scalar arithmetic shift right by imm6. -/
def execSsraImm (f : OpF) (s : State) : Out :=
  issue ⟨0x0A, 0x00, 1, f, .none⟩ s

/-- SSRA_EXT (R269): Scalar arithmetic shift right, extended form. -/
def execSsraExt (f : OpF) (x : ExtX) (s : State) : Out :=
  issue ⟨0x0A, 0x00, 2, f, .x x⟩ s

/-- SMIN (R267): Scalar minimum. -/
def execSmin (f : OpF) (s : State) : Out :=
  issue ⟨0x0B, 0x00, 0, f, .none⟩ s

/-- SMIN_IMM (R267): Scalar minimum with imm6. -/
def execSminImm (f : OpF) (s : State) : Out :=
  issue ⟨0x0B, 0x00, 1, f, .none⟩ s

/-- SMIN_EXT (R267): Scalar minimum, extended form. -/
def execSminExt (f : OpF) (x : ExtX) (s : State) : Out :=
  issue ⟨0x0B, 0x00, 2, f, .x x⟩ s

/-- SMAX (R267): Scalar maximum. -/
def execSmax (f : OpF) (s : State) : Out :=
  issue ⟨0x0C, 0x00, 0, f, .none⟩ s

/-- SMAX_IMM (R267): Scalar maximum with imm6. -/
def execSmaxImm (f : OpF) (s : State) : Out :=
  issue ⟨0x0C, 0x00, 1, f, .none⟩ s

/-- SMAX_EXT (R267): Scalar maximum, extended form. -/
def execSmaxExt (f : OpF) (x : ExtX) (s : State) : Out :=
  issue ⟨0x0C, 0x00, 2, f, .x x⟩ s

/-- SCMP (R267): Scalar compare for equality, writing 0 or 1. -/
def execScmp (f : OpF) (s : State) : Out :=
  issue ⟨0x0D, 0x00, 0, f, .none⟩ s

/-- SCMP_IMM (R267): Scalar compare for equality with imm6. -/
def execScmpImm (f : OpF) (s : State) : Out :=
  issue ⟨0x0D, 0x00, 1, f, .none⟩ s

/-- SCMP_EXT (R267): Scalar compare with the condition given by SUB. -/
def execScmpExt (f : OpF) (x : ExtX) (s : State) : Out :=
  issue ⟨0x0D, 0x00, 2, f, .x x⟩ s

/-- SSEL (R270): Scalar select on the old d. -/
def execSsel (f : OpF) (s : State) : Out :=
  issue ⟨0x0E, 0x00, 0, f, .none⟩ s

/-- SSEL_EXT (R270): Scalar select on s[C]. -/
def execSselExt (f : OpF) (x : ExtX) (s : State) : Out :=
  issue ⟨0x0E, 0x00, 2, f, .x x⟩ s

/-- SMOV (R270): Scalar move. -/
def execSmov (f : OpF) (s : State) : Out :=
  issue ⟨0x0F, 0x00, 0, f, .none⟩ s

/-- SMOV_EXT (R270): Scalar 32-bit or pair move. -/
def execSmovExt (f : OpF) (x : ExtX) (s : State) : Out :=
  issue ⟨0x0F, 0x00, 2, f, .x x⟩ s

/-- SLI (R271): Load a 32-bit immediate into a scalar register. -/
def execSli (f : OpF) (imm : Word) (s : State) : Out :=
  issue ⟨0x10, 0x00, 2, f, .i imm⟩ s

/-- SLIH (R271): Load a 32-bit immediate into s[D+1]. -/
def execSlih (f : OpF) (imm : Word) (s : State) : Out :=
  issue ⟨0x11, 0x00, 2, f, .i imm⟩ s

/-- SADDA (R271): 64-bit address add of a pair. -/
def execSadda (f : OpF) (s : State) : Out :=
  issue ⟨0x12, 0x00, 0, f, .none⟩ s

/-- SADDA_IMM (R271): 64-bit address add of a sign-extended imm6. -/
def execSaddaImm (f : OpF) (s : State) : Out :=
  issue ⟨0x12, 0x00, 1, f, .none⟩ s

/-- SADDA_EXT (R271): 64-bit address add of an extended 32-bit or 64-bit offset. -/
def execSaddaExt (f : OpF) (x : ExtX) (s : State) : Out :=
  issue ⟨0x12, 0x00, 2, f, .x x⟩ s

/-- SGETS (R272): Read a special register. -/
def execSgets (f : OpF) (s : State) : Out :=
  issue ⟨0x13, 0x00, 0, f, .none⟩ s

/-- SSETS (R272): Write a special register. -/
def execSsets (f : OpF) (s : State) : Out :=
  issue ⟨0x14, 0x00, 0, f, .none⟩ s

end Sys2Proof.Machine
end

