-- ==== Sys2Proof/Machine/ExecSystem.lean ====
section
/-! DEFINITION. ExecSystem.lean: the meanings of the engine, task and system family, majors 0x6A to 0x7D (13 R257): each issues its op for the current
flow, and the family's plan gives the effect. -/

namespace Sys2Proof.Machine

/-- CPY (R360): Tensor copy from a descriptor in queue 0. -/
def execCpy (f : OpF) (s : State) : Out :=
  issue ⟨0x6A, 0x00, 0, f, .none⟩ s

/-- CPY_PLANE (R361): Tensor copy converting tiles to plane form. -/
def execCpyPlane (f : OpF) (x : ExtX) (s : State) : Out :=
  issue ⟨0x6A, 0x00, 2, f, .x x⟩ s

/-- CPYL (R362): Linear copy in queue 0. -/
def execCpyl (f : OpF) (s : State) : Out :=
  issue ⟨0x6B, 0x00, 0, f, .none⟩ s

/-- GAT (R363): Gather table rows into scratchpad in queue 1. -/
def execGat (f : OpF) (s : State) : Out :=
  issue ⟨0x6C, 0x00, 0, f, .none⟩ s

/-- GAT_PLANE (R363): Gather rows into plane form. -/
def execGatPlane (f : OpF) (x : ExtX) (s : State) : Out :=
  issue ⟨0x6C, 0x00, 2, f, .x x⟩ s

/-- SCT (R363): Scatter scratchpad rows to a table. -/
def execSct (f : OpF) (s : State) : Out :=
  issue ⟨0x6D, 0x00, 0, f, .none⟩ s

/-- GPL (R364): Grammar gather of vocabulary rows and their scales into a B operand. -/
def execGpl (f : OpF) (s : State) : Out :=
  issue ⟨0x6E, 0x00, 0, f, .none⟩ s

/-- COLL (R365): Start a collective in queue 2. -/
def execColl (f : OpF) (x : ExtX) (s : State) : Out :=
  issue ⟨0x6F, 0x00, 2, f, .x x⟩ s

/-- QFENCE (R367): Enter a queue fence with a mask from s[A]. -/
def execQfence (f : OpF) (s : State) : Out :=
  issue ⟨0x70, 0x00, 0, f, .none⟩ s

/-- QFENCE_IMM (R367): Enter a queue fence with an immediate mask. -/
def execQfenceImm (f : OpF) (s : State) : Out :=
  issue ⟨0x70, 0x00, 1, f, .none⟩ s

/-- QSTAT (R368): Read an engine queue's status. -/
def execQstat (f : OpF) (s : State) : Out :=
  issue ⟨0x71, 0x00, 0, f, .none⟩ s

/-- SEND (R369): Send an active message from scratchpad in queue 3. -/
def execSend (f : OpF) (s : State) : Out :=
  issue ⟨0x72, 0x00, 0, f, .none⟩ s

/-- LAUNCH (R370): Device-side launch of a packet into a queue of the VF. -/
def execLaunch (f : OpF) (s : State) : Out :=
  issue ⟨0x73, 0x00, 0, f, .none⟩ s

/-- TEND (R371): End the flow's part of a task, counting towards commit. -/
def execTend (f : OpF) (s : State) : Out :=
  issue ⟨0x74, 0x00, 0, f, .none⟩ s

/-- TABORT (R372): Abort the task whole. -/
def execTabort (f : OpF) (s : State) : Out :=
  issue ⟨0x75, 0x00, 0, f, .none⟩ s

/-- TABORT_EXT (R372): Abort the task whole, or with .split. -/
def execTabortExt (f : OpF) (x : ExtX) (s : State) : Out :=
  issue ⟨0x75, 0x00, 2, f, .x x⟩ s

/-- VGROW (R373): Grow the register grant to a target in s[A]. -/
def execVgrow (f : OpF) (s : State) : Out :=
  issue ⟨0x76, 0x00, 0, f, .none⟩ s

/-- VGROW_IMM (R373): Grow the register grant to an imm6 target. -/
def execVgrowImm (f : OpF) (s : State) : Out :=
  issue ⟨0x76, 0x00, 1, f, .none⟩ s

/-- SGROW (R373): Grow the scratchpad grant to a target in s[A]. -/
def execSgrow (f : OpF) (s : State) : Out :=
  issue ⟨0x77, 0x00, 0, f, .none⟩ s

/-- SGROW_IMM (R373): Grow the scratchpad grant to imm6 × 4 KiB. -/
def execSgrowImm (f : OpF) (s : State) : Out :=
  issue ⟨0x77, 0x00, 1, f, .none⟩ s

/-- SVC (R55): Service call: release, trap 0x11, post argument blocks, park. -/
def execSvc (f : OpF) (imm : Word) (s : State) : Out :=
  issue ⟨0x78, 0x00, 2, f, .i imm⟩ s

/-- TRAP (R375): Software trap with DETAIL s[A]. -/
def execTrap (f : OpF) (s : State) : Out :=
  issue ⟨0x79, 0x00, 0, f, .none⟩ s

/-- TRAP_EXT (R375): Software trap with an immediate DETAIL. -/
def execTrapExt (f : OpF) (imm : Word) (s : State) : Out :=
  issue ⟨0x79, 0x00, 2, f, .i imm⟩ s

/-- BRK (R375): Breakpoint, cause 0x01. -/
def execBrk (f : OpF) (s : State) : Out :=
  issue ⟨0x7A, 0x00, 0, f, .none⟩ s

/-- UIRET (R376): Return from the user-interrupt handler. -/
def execUiret (f : OpF) (s : State) : Out :=
  issue ⟨0x7B, 0x00, 0, f, .none⟩ s

/-- UIMASK (R377): Set UIMASK from s[A], returning the old mask. -/
def execUimask (f : OpF) (s : State) : Out :=
  issue ⟨0x7C, 0x00, 0, f, .none⟩ s

/-- UIMASK_IMM (R377): Mask or unmask every user-interrupt source. -/
def execUimaskImm (f : OpF) (s : State) : Out :=
  issue ⟨0x7C, 0x00, 1, f, .none⟩ s

/-- TRC (R378): Emit a trace marker with value s[A]. -/
def execTrc (f : OpF) (s : State) : Out :=
  issue ⟨0x7D, 0x00, 0, f, .none⟩ s

/-- TRC_IMM (R378): Emit a trace marker with an imm6 value. -/
def execTrcImm (f : OpF) (s : State) : Out :=
  issue ⟨0x7D, 0x00, 1, f, .none⟩ s

/-- TRC_EXT (R378): Emit a trace marker with a 32-bit immediate. -/
def execTrcExt (f : OpF) (imm : Word) (s : State) : Out :=
  issue ⟨0x7D, 0x00, 2, f, .i imm⟩ s

end Sys2Proof.Machine
end

