-- ==== Sys2Proof/Machine/Run.lean ====
section
/-! DEFINITION. Run.lean: the meaning of an op by its encoding. It is `exec` of the op's constructor (the law
`execInfo_eq` of Laws/Run.lean); it stands beside `exec` because Lean's code generator writes no constructor whose
number exceeds 244, so that a function that builds an Instr cannot be run. -/

namespace Sys2Proof.Machine

/-- The meaning of an encoding of the scalar family. -/
def runScalar (n : Info) (s : State) : Out :=
  match n.major.toNat with
  | 0x00 =>
    match n.form.toNat with
    | 0 => execNop n.f s
    | _ => .next s
  | 0x01 =>
    match n.form.toNat with
    | 0 => execSadd n.f s
    | 1 => execSaddImm n.f s
    | 2 => match n.ext with | .x x => execSaddExt n.f x s | _ => .next s
    | _ => .next s
  | 0x02 =>
    match n.form.toNat with
    | 0 => execSsub n.f s
    | 1 => execSsubImm n.f s
    | 2 => match n.ext with | .x x => execSsubExt n.f x s | _ => .next s
    | _ => .next s
  | 0x03 =>
    match n.form.toNat with
    | 0 => execSmul n.f s
    | 1 => execSmulImm n.f s
    | 2 => match n.ext with | .x x => execSmulExt n.f x s | _ => .next s
    | _ => .next s
  | 0x04 =>
    match n.form.toNat with
    | 0 => execSmulh n.f s
    | 2 => match n.ext with | .x x => execSmulhExt n.f x s | _ => .next s
    | _ => .next s
  | 0x05 =>
    match n.form.toNat with
    | 0 => execSand n.f s
    | 1 => execSandImm n.f s
    | 2 => match n.ext with | .x x => execSandExt n.f x s | _ => .next s
    | _ => .next s
  | 0x06 =>
    match n.form.toNat with
    | 0 => execSor n.f s
    | 1 => execSorImm n.f s
    | 2 => match n.ext with | .x x => execSorExt n.f x s | _ => .next s
    | _ => .next s
  | 0x07 =>
    match n.form.toNat with
    | 0 => execSxor n.f s
    | 1 => execSxorImm n.f s
    | 2 => match n.ext with | .x x => execSxorExt n.f x s | _ => .next s
    | _ => .next s
  | 0x08 =>
    match n.form.toNat with
    | 0 => execSshl n.f s
    | 1 => execSshlImm n.f s
    | 2 => match n.ext with | .x x => execSshlExt n.f x s | _ => .next s
    | _ => .next s
  | 0x09 =>
    match n.form.toNat with
    | 0 => execSshr n.f s
    | 1 => execSshrImm n.f s
    | 2 => match n.ext with | .x x => execSshrExt n.f x s | _ => .next s
    | _ => .next s
  | 0x0A =>
    match n.form.toNat with
    | 0 => execSsra n.f s
    | 1 => execSsraImm n.f s
    | 2 => match n.ext with | .x x => execSsraExt n.f x s | _ => .next s
    | _ => .next s
  | 0x0B =>
    match n.form.toNat with
    | 0 => execSmin n.f s
    | 1 => execSminImm n.f s
    | 2 => match n.ext with | .x x => execSminExt n.f x s | _ => .next s
    | _ => .next s
  | 0x0C =>
    match n.form.toNat with
    | 0 => execSmax n.f s
    | 1 => execSmaxImm n.f s
    | 2 => match n.ext with | .x x => execSmaxExt n.f x s | _ => .next s
    | _ => .next s
  | 0x0D =>
    match n.form.toNat with
    | 0 => execScmp n.f s
    | 1 => execScmpImm n.f s
    | 2 => match n.ext with | .x x => execScmpExt n.f x s | _ => .next s
    | _ => .next s
  | 0x0E =>
    match n.form.toNat with
    | 0 => execSsel n.f s
    | 2 => match n.ext with | .x x => execSselExt n.f x s | _ => .next s
    | _ => .next s
  | 0x0F =>
    match n.form.toNat with
    | 0 => execSmov n.f s
    | 2 => match n.ext with | .x x => execSmovExt n.f x s | _ => .next s
    | _ => .next s
  | 0x10 =>
    match n.form.toNat with
    | 2 => match n.ext with | .i imm => execSli n.f imm s | _ => .next s
    | _ => .next s
  | 0x11 =>
    match n.form.toNat with
    | 2 => match n.ext with | .i imm => execSlih n.f imm s | _ => .next s
    | _ => .next s
  | 0x12 =>
    match n.form.toNat with
    | 0 => execSadda n.f s
    | 1 => execSaddaImm n.f s
    | 2 => match n.ext with | .x x => execSaddaExt n.f x s | _ => .next s
    | _ => .next s
  | 0x13 =>
    match n.form.toNat with
    | 0 => execSgets n.f s
    | _ => .next s
  | 0x14 =>
    match n.form.toNat with
    | 0 => execSsets n.f s
    | _ => .next s
  | _ => .next s

/-- The meaning of an encoding of the control family. -/
def runControl (n : Info) (s : State) : Out :=
  match n.major.toNat with
  | 0x18 =>
    match n.form.toNat with
    | 2 => match n.ext with | .i imm => execBra n.f imm s | _ => .next s
    | _ => .next s
  | 0x19 =>
    match n.form.toNat with
    | 0 => execBrx n.f s
    | _ => .next s
  | 0x1A =>
    match n.form.toNat with
    | 2 => match n.ext with | .i imm => execCall n.f imm s | _ => .next s
    | _ => .next s
  | 0x1B =>
    match n.form.toNat with
    | 0 => execCallx n.f s
    | _ => .next s
  | 0x1C =>
    match n.form.toNat with
    | 0 => execRet n.f s
    | _ => .next s
  | 0x1D =>
    match n.sel.toNat with
    | 0x00 =>
      match n.form.toNat with
      | 0 => execLpadC n.f s
      | _ => .next s
    | 0x01 =>
      match n.form.toNat with
      | 0 => execLpadJ n.f s
      | _ => .next s
    | _ => .next s
  | 0x1E =>
    match n.form.toNat with
    | 0 => execSeam n.f s
    | _ => .next s
  | 0x1F =>
    match n.form.toNat with
    | 2 => match n.ext with | .i imm => execLoop n.f imm s | _ => .next s
    | _ => .next s
  | 0x20 =>
    match n.form.toNat with
    | 0 => execLexit n.f s
    | _ => .next s
  | 0x21 =>
    match n.form.toNat with
    | 0 => execCollapse n.f s
    | 1 => execCollapseN n.f s
    | _ => .next s
  | 0x22 =>
    match n.form.toNat with
    | 0 => execExpand n.f s
    | _ => .next s
  | 0x23 =>
    match n.form.toNat with
    | 0 => execYield n.f s
    | _ => .next s
  | 0x24 =>
    match n.form.toNat with
    | 0 => execExit n.f s
    | _ => .next s
  | 0x25 =>
    match n.form.toNat with
    | 0 => execTack n.f s
    | _ => .next s
  | 0x26 =>
    match n.form.toNat with
    | 0 => execPtload n.f s
    | _ => .next s
  | _ => .next s

/-- The meaning of an encoding of the lane family. -/
def runLane (n : Info) (s : State) : Out :=
  match n.major.toNat with
  | 0x28 =>
    match n.form.toNat with
    | 0 => execAdd n.f s
    | 1 => execAddImm n.f s
    | 2 => match n.ext with | .x x => execAddExt n.f x s | _ => .next s
    | 3 => execAddPort n.f s
    | _ => .next s
  | 0x29 =>
    match n.form.toNat with
    | 0 => execSub n.f s
    | 1 => execSubImm n.f s
    | 2 => match n.ext with | .x x => execSubExt n.f x s | _ => .next s
    | 3 => execSubPort n.f s
    | _ => .next s
  | 0x2A =>
    match n.form.toNat with
    | 0 => execMul n.f s
    | 1 => execMulImm n.f s
    | 2 => match n.ext with | .x x => execMulExt n.f x s | _ => .next s
    | 3 => execMulPort n.f s
    | _ => .next s
  | 0x2B =>
    match n.form.toNat with
    | 0 => execMulh n.f s
    | 2 => match n.ext with | .x x => execMulhExt n.f x s | _ => .next s
    | 3 => execMulhPort n.f s
    | _ => .next s
  | 0x2C =>
    match n.form.toNat with
    | 0 => execMad n.f s
    | 2 => match n.ext with | .x x => execMadExt n.f x s | _ => .next s
    | 3 => execMadPort n.f s
    | _ => .next s
  | 0x2D =>
    match n.form.toNat with
    | 0 => execAnd n.f s
    | 1 => execAndImm n.f s
    | 2 => match n.ext with | .x x => execAndExt n.f x s | _ => .next s
    | 3 => execAndPort n.f s
    | _ => .next s
  | 0x2E =>
    match n.form.toNat with
    | 0 => execOr n.f s
    | 1 => execOrImm n.f s
    | 2 => match n.ext with | .x x => execOrExt n.f x s | _ => .next s
    | 3 => execOrPort n.f s
    | _ => .next s
  | 0x2F =>
    match n.form.toNat with
    | 0 => execXor n.f s
    | 1 => execXorImm n.f s
    | 2 => match n.ext with | .x x => execXorExt n.f x s | _ => .next s
    | 3 => execXorPort n.f s
    | _ => .next s
  | 0x30 =>
    match n.sel.toNat with
    | 0x00 =>
      match n.form.toNat with
      | 0 => execNot n.f s
      | 2 => match n.ext with | .x x => execNotExt n.f x s | _ => .next s
      | 3 => execNotPort n.f s
      | _ => .next s
    | 0x01 =>
      match n.form.toNat with
      | 0 => execAbs n.f s
      | 2 => match n.ext with | .x x => execAbsExt n.f x s | _ => .next s
      | 3 => execAbsPort n.f s
      | _ => .next s
    | 0x02 =>
      match n.form.toNat with
      | 0 => execNeg n.f s
      | 2 => match n.ext with | .x x => execNegExt n.f x s | _ => .next s
      | 3 => execNegPort n.f s
      | _ => .next s
    | 0x03 =>
      match n.form.toNat with
      | 0 => execClz n.f s
      | 2 => match n.ext with | .x x => execClzExt n.f x s | _ => .next s
      | 3 => execClzPort n.f s
      | _ => .next s
    | 0x04 =>
      match n.form.toNat with
      | 0 => execPopc n.f s
      | 2 => match n.ext with | .x x => execPopcExt n.f x s | _ => .next s
      | 3 => execPopcPort n.f s
      | _ => .next s
    | 0x05 =>
      match n.form.toNat with
      | 0 => execBrev n.f s
      | 2 => match n.ext with | .x x => execBrevExt n.f x s | _ => .next s
      | 3 => execBrevPort n.f s
      | _ => .next s
    | _ => .next s
  | 0x31 =>
    match n.form.toNat with
    | 0 => execFadd n.f s
    | 2 => match n.ext with | .x x => execFaddExt n.f x s | _ => .next s
    | 3 => execFaddPort n.f s
    | _ => .next s
  | 0x32 =>
    match n.form.toNat with
    | 0 => execFsub n.f s
    | 2 => match n.ext with | .x x => execFsubExt n.f x s | _ => .next s
    | 3 => execFsubPort n.f s
    | _ => .next s
  | 0x33 =>
    match n.form.toNat with
    | 0 => execFmul n.f s
    | 2 => match n.ext with | .x x => execFmulExt n.f x s | _ => .next s
    | 3 => execFmulPort n.f s
    | _ => .next s
  | 0x34 =>
    match n.form.toNat with
    | 0 => execFma n.f s
    | 2 => match n.ext with | .x x => execFmaExt n.f x s | _ => .next s
    | 3 => execFmaPort n.f s
    | _ => .next s
  | 0x35 =>
    match n.form.toNat with
    | 0 => execFmin n.f s
    | 2 => match n.ext with | .x x => execFminExt n.f x s | _ => .next s
    | 3 => execFminPort n.f s
    | _ => .next s
  | 0x36 =>
    match n.form.toNat with
    | 0 => execFmax n.f s
    | 2 => match n.ext with | .x x => execFmaxExt n.f x s | _ => .next s
    | 3 => execFmaxPort n.f s
    | _ => .next s
  | 0x37 =>
    match n.form.toNat with
    | 0 => execFcmp n.f s
    | 2 => match n.ext with | .x x => execFcmpExt n.f x s | _ => .next s
    | 3 => execFcmpPort n.f s
    | _ => .next s
  | 0x38 =>
    match n.form.toNat with
    | 2 => match n.ext with | .x x => execCvt n.f x s | _ => .next s
    | _ => .next s
  | 0x39 =>
    match n.form.toNat with
    | 0 => execFrnd n.f s
    | 2 => match n.ext with | .x x => execFrndExt n.f x s | _ => .next s
    | 3 => execFrndPort n.f s
    | _ => .next s
  | 0x3A =>
    match n.sel.toNat with
    | 0x00 =>
      match n.form.toNat with
      | 0 => execRcp n.f s
      | 2 => match n.ext with | .x x => execRcpExt n.f x s | _ => .next s
      | 3 => execRcpPort n.f s
      | _ => .next s
    | 0x01 =>
      match n.form.toNat with
      | 0 => execRsq n.f s
      | 2 => match n.ext with | .x x => execRsqExt n.f x s | _ => .next s
      | 3 => execRsqPort n.f s
      | _ => .next s
    | 0x02 =>
      match n.form.toNat with
      | 0 => execSqrt n.f s
      | 2 => match n.ext with | .x x => execSqrtExt n.f x s | _ => .next s
      | 3 => execSqrtPort n.f s
      | _ => .next s
    | 0x03 =>
      match n.form.toNat with
      | 0 => execExp2 n.f s
      | 2 => match n.ext with | .x x => execExp2Ext n.f x s | _ => .next s
      | 3 => execExp2Port n.f s
      | _ => .next s
    | 0x04 =>
      match n.form.toNat with
      | 0 => execLog2 n.f s
      | 2 => match n.ext with | .x x => execLog2Ext n.f x s | _ => .next s
      | 3 => execLog2Port n.f s
      | _ => .next s
    | 0x05 =>
      match n.form.toNat with
      | 0 => execSin n.f s
      | 2 => match n.ext with | .x x => execSinExt n.f x s | _ => .next s
      | 3 => execSinPort n.f s
      | _ => .next s
    | 0x06 =>
      match n.form.toNat with
      | 0 => execCos n.f s
      | 2 => match n.ext with | .x x => execCosExt n.f x s | _ => .next s
      | 3 => execCosPort n.f s
      | _ => .next s
    | 0x07 =>
      match n.form.toNat with
      | 0 => execTanh n.f s
      | 2 => match n.ext with | .x x => execTanhExt n.f x s | _ => .next s
      | 3 => execTanhPort n.f s
      | _ => .next s
    | _ => .next s
  | 0x3B =>
    match n.form.toNat with
    | 0 => execShl n.f s
    | 1 => execShlImm n.f s
    | 2 => match n.ext with | .x x => execShlExt n.f x s | _ => .next s
    | 3 => execShlPort n.f s
    | _ => .next s
  | 0x3C =>
    match n.form.toNat with
    | 0 => execShr n.f s
    | 1 => execShrImm n.f s
    | 2 => match n.ext with | .x x => execShrExt n.f x s | _ => .next s
    | 3 => execShrPort n.f s
    | _ => .next s
  | 0x3D =>
    match n.form.toNat with
    | 0 => execSra n.f s
    | 1 => execSraImm n.f s
    | 2 => match n.ext with | .x x => execSraExt n.f x s | _ => .next s
    | 3 => execSraPort n.f s
    | _ => .next s
  | 0x3E =>
    match n.form.toNat with
    | 0 => execRot n.f s
    | 1 => execRotImm n.f s
    | 2 => match n.ext with | .x x => execRotExt n.f x s | _ => .next s
    | 3 => execRotPort n.f s
    | _ => .next s
  | 0x3F =>
    match n.form.toNat with
    | 0 => execMin n.f s
    | 1 => execMinImm n.f s
    | 2 => match n.ext with | .x x => execMinExt n.f x s | _ => .next s
    | 3 => execMinPort n.f s
    | _ => .next s
  | 0x40 =>
    match n.form.toNat with
    | 0 => execMax n.f s
    | 1 => execMaxImm n.f s
    | 2 => match n.ext with | .x x => execMaxExt n.f x s | _ => .next s
    | 3 => execMaxPort n.f s
    | _ => .next s
  | 0x41 =>
    match n.form.toNat with
    | 0 => execBfe n.f s
    | 2 => match n.ext with | .x x => execBfeExt n.f x s | _ => .next s
    | 3 => execBfePort n.f s
    | _ => .next s
  | 0x42 =>
    match n.form.toNat with
    | 0 => execBfi n.f s
    | 2 => match n.ext with | .x x => execBfiExt n.f x s | _ => .next s
    | 3 => execBfiPort n.f s
    | _ => .next s
  | 0x43 =>
    match n.form.toNat with
    | 0 => execCmp n.f s
    | 1 => execCmpImm n.f s
    | 2 => match n.ext with | .x x => execCmpExt n.f x s | _ => .next s
    | 3 => execCmpPort n.f s
    | _ => .next s
  | 0x44 =>
    match n.form.toNat with
    | 0 => execSel n.f s
    | 2 => match n.ext with | .x x => execSelExt n.f x s | _ => .next s
    | 3 => execSelPort n.f s
    | _ => .next s
  | 0x45 =>
    match n.form.toNat with
    | 0 => execMov n.f s
    | 2 => match n.ext with | .x x => execMovExt n.f x s | _ => .next s
    | 3 => execMovPort n.f s
    | _ => .next s
  | 0x46 =>
    match n.form.toNat with
    | 2 => match n.ext with | .i imm => execMovi n.f imm s | _ => .next s
    | _ => .next s
  | 0x47 =>
    match n.form.toNat with
    | 0 => execDp4 n.f s
    | 2 => match n.ext with | .x x => execDp4Ext n.f x s | _ => .next s
    | 3 => execDp4Port n.f s
    | _ => .next s
  | 0x48 =>
    match n.form.toNat with
    | 0 => execPerm n.f s
    | 2 => match n.ext with | .x x => execPermExt n.f x s | _ => .next s
    | 3 => execPermPort n.f s
    | _ => .next s
  | 0x49 =>
    match n.form.toNat with
    | 0 => execShfl n.f s
    | 1 => execShflImm n.f s
    | 2 => match n.ext with | .x x => execShflExt n.f x s | _ => .next s
    | 3 => execShflPort n.f s
    | _ => .next s
  | 0x4A =>
    match n.form.toNat with
    | 0 => execVote n.f s
    | 2 => match n.ext with | .x x => execVoteExt n.f x s | _ => .next s
    | 3 => execVotePort n.f s
    | _ => .next s
  | 0x4B =>
    match n.form.toNat with
    | 0 => execScan n.f s
    | 2 => match n.ext with | .x x => execScanExt n.f x s | _ => .next s
    | 3 => execScanPort n.f s
    | _ => .next s
  | 0x4C =>
    match n.form.toNat with
    | 0 => execRed n.f s
    | 2 => match n.ext with | .x x => execRedExt n.f x s | _ => .next s
    | 3 => execRedPort n.f s
    | _ => .next s
  | 0x4D =>
    match n.form.toNat with
    | 0 => execBcast n.f s
    | 1 => execBcastImm n.f s
    | 2 => match n.ext with | .x x => execBcastExt n.f x s | _ => .next s
    | 3 => execBcastPort n.f s
    | _ => .next s
  | 0x4E =>
    match n.form.toNat with
    | 0 => execSample n.f s
    | 2 => match n.ext with | .x x => execSampleExt n.f x s | _ => .next s
    | _ => .next s
  | 0x4F =>
    match n.form.toNat with
    | 0 => execXmov n.f s
    | _ => .next s
  | _ => .next s

/-- The meaning of an encoding of the memory and synchronisation family. -/
def runMemory (n : Info) (s : State) : Out :=
  match n.major.toNat with
  | 0x50 =>
    match n.form.toNat with
    | 0 => execLd n.f s
    | 2 => match n.ext with | .m m => execLdExt n.f m s | _ => .next s
    | _ => .next s
  | 0x51 =>
    match n.form.toNat with
    | 0 => execSt n.f s
    | 2 => match n.ext with | .m m => execStExt n.f m s | _ => .next s
    | _ => .next s
  | 0x52 =>
    match n.form.toNat with
    | 0 => execAtom n.f s
    | 2 => match n.ext with | .m m => execAtomExt n.f m s | _ => .next s
    | _ => .next s
  | 0x53 =>
    match n.form.toNat with
    | 0 => execRedm n.f s
    | 2 => match n.ext with | .m m => execRedmExt n.f m s | _ => .next s
    | _ => .next s
  | 0x54 =>
    match n.form.toNat with
    | 0 => execPexport n.f s
    | _ => .next s
  | 0x55 =>
    match n.form.toNat with
    | 0 => execBinit n.f s
    | 2 => match n.ext with | .m m => execBinitExt n.f m s | _ => .next s
    | _ => .next s
  | 0x56 =>
    match n.form.toNat with
    | 0 => execBarr n.f s
    | 2 => match n.ext with | .m m => execBarrExt n.f m s | _ => .next s
    | _ => .next s
  | 0x57 =>
    match n.form.toNat with
    | 0 => execBarrx n.f s
    | 2 => match n.ext with | .m m => execBarrxExt n.f m s | _ => .next s
    | _ => .next s
  | 0x58 =>
    match n.form.toNat with
    | 0 => execBwait n.f s
    | 2 => match n.ext with | .m m => execBwaitExt n.f m s | _ => .next s
    | _ => .next s
  | 0x59 =>
    match n.form.toNat with
    | 0 => execBtest n.f s
    | _ => .next s
  | 0x5A =>
    match n.sel.toNat with
    | 0x00 =>
      match n.form.toNat with
      | 0 => execFence n.f s
      | 2 => match n.ext with | .m m => execFenceExt n.f m s | _ => .next s
      | _ => .next s
    | 0x01 =>
      match n.form.toNat with
      | 0 => execAcq n.f s
      | 2 => match n.ext with | .m m => execAcqExt n.f m s | _ => .next s
      | _ => .next s
    | 0x02 =>
      match n.form.toNat with
      | 0 => execRel n.f s
      | 2 => match n.ext with | .m m => execRelExt n.f m s | _ => .next s
      | _ => .next s
    | 0x03 =>
      match n.form.toNat with
      | 0 => execDrain n.f s
      | 2 => match n.ext with | .m m => execDrainExt n.f m s | _ => .next s
      | _ => .next s
    | 0x04 =>
      match n.form.toNat with
      | 0 => execPfence n.f s
      | 2 => match n.ext with | .m m => execPfenceExt n.f m s | _ => .next s
      | _ => .next s
    | _ => .next s
  | 0x5B =>
    match n.form.toNat with
    | 0 => execTbar n.f s
    | 2 => match n.ext with | .m m => execTbarExt n.f m s | _ => .next s
    | _ => .next s
  | 0x5C =>
    match n.form.toNat with
    | 0 => execPbar n.f s
    | 2 => match n.ext with | .m m => execPbarExt n.f m s | _ => .next s
    | _ => .next s
  | _ => .next s

/-- The meaning of an encoding of the matrix family. -/
def runMatrix (n : Info) (s : State) : Out :=
  match n.major.toNat with
  | 0x5D =>
    match n.form.toNat with
    | 0 => execMma n.f s
    | 2 => match n.ext with | .x x => execMmaExt n.f x s | _ => .next s
    | _ => .next s
  | 0x5E =>
    match n.form.toNat with
    | 2 => match n.ext with | .x x => execMmaq n.f x s | _ => .next s
    | _ => .next s
  | 0x5F =>
    match n.form.toNat with
    | 0 => execMzero n.f s
    | _ => .next s
  | 0x60 =>
    match n.form.toNat with
    | 0 => execMld n.f s
    | 2 => match n.ext with | .m m => execMldExt n.f m s | _ => .next s
    | _ => .next s
  | 0x61 =>
    match n.form.toNat with
    | 0 => execMst n.f s
    | 2 => match n.ext with | .m m => execMstExt n.f m s | _ => .next s
    | _ => .next s
  | 0x62 =>
    match n.form.toNat with
    | 0 => execMplane n.f s
    | 2 => match n.ext with | .x x => execMplaneExt n.f x s | _ => .next s
    | _ => .next s
  | 0x63 =>
    match n.form.toNat with
    | 0 => execMunplane n.f s
    | 2 => match n.ext with | .x x => execMunplaneExt n.f x s | _ => .next s
    | _ => .next s
  | 0x64 =>
    match n.form.toNat with
    | 0 => execMtr n.f s
    | _ => .next s
  | 0x65 =>
    match n.form.toNat with
    | 0 => execMadd n.f s
    | 2 => match n.ext with | .x x => execMaddExt n.f x s | _ => .next s
    | _ => .next s
  | 0x66 =>
    match n.form.toNat with
    | 0 => execMscale n.f s
    | 2 => match n.ext with | .x x => execMscaleExt n.f x s | _ => .next s
    | _ => .next s
  | 0x67 =>
    match n.form.toNat with
    | 0 => execScl n.f s
    | 2 => match n.ext with | .m m => execSclExt n.f m s | _ => .next s
    | _ => .next s
  | 0x68 =>
    match n.form.toNat with
    | 0 => execMbatch n.f s
    | _ => .next s
  | 0x69 =>
    match n.form.toNat with
    | 0 => execMwait n.f s
    | 1 => execMwaitImm n.f s
    | _ => .next s
  | _ => .next s

/-- The meaning of an encoding of the engine, task and system family. -/
def runSystem (n : Info) (s : State) : Out :=
  match n.major.toNat with
  | 0x6A =>
    match n.form.toNat with
    | 0 => execCpy n.f s
    | 2 => match n.ext with | .x x => execCpyPlane n.f x s | _ => .next s
    | _ => .next s
  | 0x6B =>
    match n.form.toNat with
    | 0 => execCpyl n.f s
    | _ => .next s
  | 0x6C =>
    match n.form.toNat with
    | 0 => execGat n.f s
    | 2 => match n.ext with | .x x => execGatPlane n.f x s | _ => .next s
    | _ => .next s
  | 0x6D =>
    match n.form.toNat with
    | 0 => execSct n.f s
    | _ => .next s
  | 0x6E =>
    match n.form.toNat with
    | 0 => execGpl n.f s
    | _ => .next s
  | 0x6F =>
    match n.form.toNat with
    | 2 => match n.ext with | .x x => execColl n.f x s | _ => .next s
    | _ => .next s
  | 0x70 =>
    match n.form.toNat with
    | 0 => execQfence n.f s
    | 1 => execQfenceImm n.f s
    | _ => .next s
  | 0x71 =>
    match n.form.toNat with
    | 0 => execQstat n.f s
    | _ => .next s
  | 0x72 =>
    match n.form.toNat with
    | 0 => execSend n.f s
    | _ => .next s
  | 0x73 =>
    match n.form.toNat with
    | 0 => execLaunch n.f s
    | _ => .next s
  | 0x74 =>
    match n.form.toNat with
    | 0 => execTend n.f s
    | _ => .next s
  | 0x75 =>
    match n.form.toNat with
    | 0 => execTabort n.f s
    | 2 => match n.ext with | .x x => execTabortExt n.f x s | _ => .next s
    | _ => .next s
  | 0x76 =>
    match n.form.toNat with
    | 0 => execVgrow n.f s
    | 1 => execVgrowImm n.f s
    | _ => .next s
  | 0x77 =>
    match n.form.toNat with
    | 0 => execSgrow n.f s
    | 1 => execSgrowImm n.f s
    | _ => .next s
  | 0x78 =>
    match n.form.toNat with
    | 2 => match n.ext with | .i imm => execSvc n.f imm s | _ => .next s
    | _ => .next s
  | 0x79 =>
    match n.form.toNat with
    | 0 => execTrap n.f s
    | 2 => match n.ext with | .i imm => execTrapExt n.f imm s | _ => .next s
    | _ => .next s
  | 0x7A =>
    match n.form.toNat with
    | 0 => execBrk n.f s
    | _ => .next s
  | 0x7B =>
    match n.form.toNat with
    | 0 => execUiret n.f s
    | _ => .next s
  | 0x7C =>
    match n.form.toNat with
    | 0 => execUimask n.f s
    | 1 => execUimaskImm n.f s
    | _ => .next s
  | 0x7D =>
    match n.form.toNat with
    | 0 => execTrc n.f s
    | 1 => execTrcImm n.f s
    | 2 => match n.ext with | .i imm => execTrcExt n.f imm s | _ => .next s
    | _ => .next s
  | _ => .next s

/-- The meaning of an op by its encoding (13 R257). An encoding that is no op does not reach it: the decoder refuses
it first. -/
def execInfo (n : Info) (s : State) : Out :=
  if n.major.toNat ≤ 0x14 then runScalar n s
  else if n.major.toNat ≤ 0x26 then runControl n s
  else if n.major.toNat ≤ 0x4F then runLane n s
  else if n.major.toNat ≤ 0x5C then runMemory n s
  else if n.major.toNat ≤ 0x69 then runMatrix n s
  else runSystem n s

end Sys2Proof.Machine
end

