-- ==== Sys2Proof/Machine/Advance.lean ====
section
/-! DEFINITION. Advance.lean: what the machine does next: the op, bundle or reference that stands next for a flow, and
the first internal event that is due (05 R104 to R106; 09 R191, R192; notes/assumptions/4.md). -/

namespace Sys2Proof.Machine

/-! ### The next item of a flow -/

/-- What stands next for a flow. -/
inductive Next where
  | op (n : Info)
  | bundle (b : Bundle)
  /-- a bundle whose header has reserved bits set -/
  | badHeader (b : Bundle)
  | reference (i : BitVec 9)
  | trap (t : Trap)
  | nothing
  deriving DecidableEq, Repr

/-- The cursor on a flow, for ops that issue in no bundle. -/
def State.at (s : State) (c x f : Nat) : State := { s with cur := { core := c, ctx := x, flow := f, slot := 0 } }

/-- The next instruction of a SIMT flow: the one its stop group has come to, or the first of the group at its position,
decoded whole before any of it issues (09 R191). Where no landing pad stands, the issue of the first one raises the cause
that R204 puts first (10 R204). -/
def State.nextSimt (s : State) : State × Next :=
  match s.cf.group with
  | some g =>
    match g.ops[g.pos]? with
    | some o => (s, .op o.op)
    | none => (s.updCf (fun fl => { fl with group := none }), .nothing)
  | none =>
    match fetchGroup s s.cur.core s.cc s.cf with
    | .error t => (s, .trap t)
    | .ok [] => (s, .nothing)
    | .ok (o :: r) =>
      match s.laterCause (openGroup s.cf (o :: r)) with
      | some t => (s, .trap t)
      | none =>
        if (landingTrap (padKind o.op) s.cf.landing s.cf.pc).isSome then (s, .op o.op)
        else (s.updCf (fun fl => { fl with group := some (openGroup fl (o :: r)), landing := none }), .op o.op)

/-- The next item of a VLIW thread, after pads (11 R221). A bundle of one op is that op in its slot. -/
def State.nextVliw (s : State) : State × Next :=
  let c := s.cur.core
  let s := s.refillLoop c s.cur.ctx
  let fl := s.cf
  match s.misLanding c s.cc fl with
  | some t => (s, .trap t)
  | none =>
    let addr := s.skipPads c s.cc.window fl.pc padFuel
    let s := s.updCf (fun fl => { fl with pc := addr })
    let bs := s.codeBytes c s.cc.window addr.toNat 132
    match decodeVliw bs with
    | .error e => (s, match e, headerBundle bs with
        | .header, some b => .badHeader b
        | _, _ => .trap (decodeTrap (decodeErrorCause e (s.cc.vliwPlace 0) s) 0 addr))
    | .ok (.pad, _) => (s, .trap (decodeTrap (0x07, 0x1) 0 addr))
    | .ok (.reference i, _) => (s, .reference i)
    | .ok (.bundle b, _) =>
      match slotList b.slots, bundleOps (slotList b.slots) b.words with
      | [_], [(slot, .ok n)] => ({ s with cur := { s.cur with slot := slot } }, .op n)
      | _, _ => (s, .bundle b)

/-- The next item of the cursor's flow. -/
def State.nextItem (s : State) : State × Next := if s.cc.vliw then s.nextVliw else s.nextSimt

/-- The issue of what stands next. -/
def Next.run (n : Next) (s : State) : Out :=
  match n with
  | .op i => execInfo i s
  | .bundle b => execVliwBundle b s
  | .badHeader b => issueBadHeader b s
  | .reference i => execPatternReference i s
  | .trap t => whenIssuing (fun s => s.raise t) s
  | .nothing => .next s

/-- One issue word's item: the instruction-pass or bundle that stands next for a flow issues, if the flow may still
issue. -/
def State.issueFor (s : State) (c x f : Nat) : Out :=
  if (s.at c x f).mayIssue c x f then
    let r := (s.at c x f).nextItem
    r.2.run r.1
  else .next (s.at c x f)

/-! ### Readiness (05 R104) -/

/-- Does a wait stand for an issue that has not been made: a retry, a lock, and in VLIW mode every other, since a bundle that
waits issues nothing (05 R104; 06 R125; 16 R331)? -/
def Wait.unissued (w : Wait) (vliw : Bool) : Bool :=
  w.tries || (vliw && w != .none) || (match w with
    | .lock _ => true
    | _ => false)

/-- Where a flow stands: its position, and the pass and the place in its stop group. -/
def Flow.stand (f : Flow) : Word × Nat × Nat :=
  match f.group with
  | some g => (f.pc, g.pass, g.pos)
  | none => (f.pc, f.passes.headD 0, 0)

/-- A flow that would issue is asked whether it can: where its issue only holds, for a busy tile, a full queue, a lock or a
resource that is not free, what it asks for is asked, and the flow is not ready; else it is a candidate. One that is granted a
lock is asked again. -/
def State.askFlow (s : State) (c x f : Nat) : Nat → State
  | 0 => s
  | fuel + 1 =>
    let fl := (s.ctx c x).flow f
    if !s.mayIssue c x f || fl.masks == [] || !s.waitOpen c x fl.wait then s
    else
      let s0 := s.updCtx c x (fun k => k.updFlow f (fun fl => { fl with wait := .none }))
      if (s0.packetOf c x f).isNone then s
      else match s0.issueFor c x f with
        | .next t =>
          let q := (t.ctx c x).flow f
          if q.wait.unissued (s.ctx c x).vliw then { t with cur := s.cur }
          else if q.wait == .none && t.tasks.locks != s0.tasks.locks && q.stand == fl.stand then
            ({ t with cur := s.cur }).askFlow c x f fuel
          else s0
        | _ => s0

/-- Every flow is asked, and every replay that waits is tried: those of tasks in age order over the cores, the rest in age order
on each core (05 R107; 06 R125). -/
def State.askFlows (s : State) : State :=
  let flows : List (Nat × Nat × (Nat ⊕ ParkedPass)) :=
    (SMap.keys s.cores).flatMap (fun c => (s.core c).flowsByAge.map (fun a => (c, a.ctx, .inl a.flow)))
  let all := s.issueOrder (s.replays.map (fun p => (p.1, p.2.1, .inr p.2.2)) ++ flows)
  all.foldl (fun s p => match p.2.2 with
    | .inl f => s.askFlow p.1 p.2.1 f 64
    | .inr q => s.retryPass p.1 p.2.1 q) s

/-- The next core cycle: its clocks, the flows that are ready, and the merge stage's choice. -/
def State.nextCycle (s : State) : State := s.newCycle.askFlows.merge

/-! ### Internal events -/

/-- An event that changes something. -/
def State.act (s : State) (o : Out) : Option Out :=
  match o with
  | .next t => if t = s then none else some o
  | o => some o

/-- Does the agent of an asynchronous completion act in this step: an engine, the matrix unit, a returning load, a section
or the management (notes/assumptions/3.md)? -/
def State.agent (s : State) (kind c x q : Nat) : Bool :=
  Config.asyncReady (s.tick * 2 ^ 32 + ((kind * 256 + c) * 32 + x) * 4 + q)

/-- The first answer of a list of choices. -/
def firstOf {α : Type} (l : List α) (f : α → Option Out) : Option Out := l.findSome? f

/-- What is due in one context, apart from its asynchronous completions. -/
def State.ctxDue (s : State) (c x : Nat) : Option Out :=
  let k := s.ctx c x
  let go : Bool → Out → Option Out := fun b o => if b then s.act o else none
  let step := k.stepping.getD 255
  (go (s.stepDue c x step) (execSingleStepComplete c x step s))
  <|> (go (s.stopDue c x) (execStopReached c x s))
  <|> (go (k.parkAsked && k.stopped.isSome && !s.parkWaits c x) (execPark c x s))
  <|> (go (s.budgetDue c x) (execBudgetEvent c x s))
  <|> (go (s.commitReady c x) (execTaskCommit c x s))
  <|> (go (s.cyclesDue c x) (execCycleBudgetExpiry c x s))
  <|> (go (s.ageDue c x) (execIntervalAgeClose c x s))
  <|> (go (s.uiDue c x) (execUiDelivery c x s))
  <|> (go (s.barrierDue c x false) (execBarrierComplete c x false s))
  <|> (go (s.barrierDue c x true) (execBarrierComplete c x true s))
  <|> (firstOf (SMap.keys k.flows) (fun f => go (s.bwaitEnd c x f).isSome (execBwaitDone c x f s)))
  <|> (firstOf (SMap.keys k.flows) (fun f => go (s.boostDue c x f) (execFlowBoost c x f s)))

/-- The completion that the head of an engine queue has come to. -/
def State.engineDue (s : State) (c x q : Nat) : Option Out :=
  let k := s.ctx c x
  match k.engineHead q with
  | none => none
  | some cmd =>
    if (SMap.find? k.eqStopped q).isSome || s.engineBehind cmd || !s.agent 1 c x q then none
    else if (s.nextFault c x q).isSome then s.act (execEngineFault c x q s)
    else match cmd.op with
      | .coll _ _ _ => s.act (execCollectiveEnd c x s)
      | .launch _ _ _ => s.act (execLaunchAppend c x s)
      | _ => s.act (execEnginePartLanded c x q s)

/-- An asynchronous completion of one context. -/
def State.ctxAsync (s : State) (c x : Nat) : Option Out :=
  let k := s.ctx c x
  (if k.loads.any (fun l => l.trap.isNone) && s.agent 0 c x 0 then s.act (execLoadValueReturned c x s) else none)
  <|> (firstOf (SMap.keys k.eq) (fun q => s.engineDue c x q))
  <|> (if s.agent 9 c x 0 then firstOf (s.serviceStops c x) (fun st => s.act (.next (s.serviceStop c x st))) else none)

/-- What is due on a core. A core that rolls back, or is being retired, does none of it (10 R213). -/
def State.coreDue (s : State) (c : Nat) : Option Out :=
  let co := s.core c
  if co.rolled != [] || co.retiring then none
  else
    (firstOf (SMap.keys co.ctxs) (fun x => s.ctxDue c x))
    <|> (if co.claims = [] then none else s.act (execClaimGrant c s))
    <|> (if co.messages = [] then none else s.act (execHandlerStart c s))
    <|> (if co.mxQ = [] || !s.agent 2 c 0 0 then none else s.act (execMatrixOpComplete c s))
    <|> (if co.sramBusy && s.agent 3 c 0 0 then s.act (execSramSplitDone c s) else none)
    <|> (firstOf (SMap.keys co.ctxs) (fun x => s.ctxAsync c x))

/-- What is due of the tasks: aborts, and the starts of pending tasks. -/
def State.taskDue (s : State) : Option Out :=
  let abort : Nat × Task → Option Out := fun p => match p.2.state with
    | .running c x | .saved c x => if (s.abortFor c x).isSome then s.act (execTaskAbort c x s) else none
    | _ => none
  (firstOf s.tasks.list abort)
  <|> (if s.tasks.list.any (fun p => p.2.state == .pending) then
      firstOf (List.range Config.cores) (fun c => s.act (execPendingTaskStart c s)) else none)

/-- What is due of the grids. -/
def State.gridDue (s : State) : Option Out :=
  firstOf (SMap.keys s.grids) (fun g =>
    (s.act (execGridEnd g s)) <|> (s.act (execMarker g s)) <|> (s.act (execTeamStart g s)) <|> (s.act (execTaskStart g s)))

/-- What is due of the queue controller, once its service runs (02 R40; 04 R75): it serves the switched-in queues
round-robin by number, queue 0 first after reset (04 R78). (log 106, DESIGN CHOICE) -/
def State.queueDue (s : State) : Option Out :=
  if !s.mgmt.funcReady.getLsbD 37 then none
  else
    let keys := SMap.keys s.qc.cache
    let qs := keys.filter (fun q => s.qc.rr ≤ q) ++ keys.filter (fun q => q < s.qc.rr)
    (firstOf qs (fun q => if s.dispatchable q then s.act (execPacketDispatch q s) else none))
    <|> (if s.qc.left = 0 || (qs.all (fun q => !s.dispatchable q) && s.qc.switched != some s.cycle && s.nextPartition.isSome) then s.act (execQcSliceExpiry s) else none)
    <|> (firstOf keys (fun q => if s.qc.slice ≤ SMap.get 0 s.qc.idle q && s.pendingQueues s.qc.resident != [] then
        s.act (execQueueReplace q s) else none))

/-- An asynchronous completion of the attachment or of a section. -/
def State.deviceDue (s : State) : Option Out :=
  (firstOf s.att.vfClosing (fun v => if s.agent 4 0 0 0 then s.act (execVfResetComplete v s) else none))
  <|> (firstOf s.att.partResets (fun p => if s.partitionReady p && s.agent 5 0 0 0 then s.act (execPartitionResetComplete p s) else none))
  <|> (firstOf s.att.batch (fun p => if p.2.state = 3 && s.agent 6 0 0 0 then s.act (execBatchSlotFree p.1 s) else none))
  <|> (if s.agent 8 0 0 0 then firstOf s.sent (fun e => match e.dst with
      | .peer _ _ => s.act (.next (s.ackStore e.tag))
      | _ => none) else none)
  <|> (firstOf s.sects (fun p => if p.2.inval.any (fun i => !s.invalWaits i) && s.agent 7 p.1 0 0 then s.act (execInvalDone p.1 s) else none))

/-- What is due of the engines of tasks: the older tasks' first, since their lock requests of one cycle are served in age order
(06 R125). -/
def State.taskEngineDue (s : State) : Option Out :=
  let held := s.liveContexts.filter (fun p => (s.ctx p.1 p.2).task.isSome && (s.ctx p.1 p.2).eq != []
    && (s.core p.1).rolled == [] && !(s.core p.1).retiring)
  firstOf (s.issueOrder (held.map (fun p => (p.1, p.2, ())))) (fun p =>
    firstOf (SMap.keys (s.ctx p.1 p.2.1).eq) (fun q => s.engineDue p.1 p.2.1 q))

/-- The first internal event that is due. -/
def State.due (s : State) : Option Out :=
  (if s.mgmt.halting then s.act (execThermal105 s) else none) <|> s.taskDue <|> s.taskEngineDue <|> (firstOf (SMap.keys s.cores) s.coreDue) <|> s.gridDue <|> s.queueDue <|> s.deviceDue

/-! ### One step -/

/-- One step where no event of the outside world waits: the next item of the cycle's issue words, else an internal event,
else a new core cycle. In the 105 degree state the core clock stands (01 R10). -/
def State.proceed (s : State) : Out :=
  match s.issueQ with
  | (c, x, f) :: rest => ({ s with issueQ := rest }).issueFor c x f
  | [] =>
    if s.mgmt.halted then .next s.managementTime
    else match s.due with
      | some o => o
      | none => .next s.nextCycle

/-! ### A program placed for the next step -/

/-- A placed context: live, alone on its core, with a register grant and every lane on. -/
def placedCtx (vliw : Bool) : Ctx :=
  { live := true, mode := if vliw then .vliw else .simt, groups := 1, clusters := if vliw then 8 else 0, bound := true
    blocks := if vliw then 32 else 8, nregs := 64, spadLen := 4096
    flows := [(255, { masks := [(0, 0xFFFFFFFF)] })] }

/-- The core of a placed context: its code window at the foot of the instruction store. -/
def placedCore (k : Ctx) (bs : List Byte) : Core :=
  { ctxs := [(0, k)], codeWin := [(0, { refs := 1, part := k.part, len := 1, base := 0, valid := true })]
    istore := Memory.empty.writeBytes 0 bs }

/-- The slot in which a bundle of one op can hold it. -/
def slotFor (n : Info) : Nat :=
  ((List.range 16).find? (fun i => (encodingCause n ((placedCtx true).vliwPlace i)).isNone)).getD 12

/-- Is an op placed in a bundle: where the SIMT stream has it not, or has it at the end of a stop group only? -/
def standsInVliw (n : Info) : Bool :=
  let o := opd n
  ((encodingCause n (placedCtx false).simtPlace).isSome || (isControl o.major && !o.s))
    && (encodingCause n ((placedCtx true).vliwPlace (slotFor n))).isNone

/-- The bytes that hold an op alone: in the SIMT stream its words and a `nop` that ends the stop group, in the VLIW
stream a bundle of one op. -/
def placedBytes (n : Info) (vliw : Bool) : List Byte :=
  if vliw then unitBytes (encHeader (1#16 <<< slotFor n)) ++ (n.words.map unitBytes).flatten
  else (n.words.map wordBytes).flatten ++ wordBytes 0x80000000

/-- A state with a context of core 0 that stands before the given bytes, its item the next to issue. -/
def State.placed (s : State) (k : Ctx) (bs : List Byte) : State :=
  { s with cores := SMap.insert s.cores 0 (placedCore k bs), issueQ := [(0, 0, 255)], inputs := []
           mgmt := { s.mgmt with halted := false, halting := false, powered := true } }

/-- The state with a row's bits as the next item to issue: a parcel refers to a pattern entry that holds an empty
bundle. -/
def State.placeWord (s : State) (nbits w : Nat) : State :=
  if nbits ≤ 16 then
    s.placed { placedCtx true with pats := [(bitsOf w 13 5, { valid := true, words := [0] })] } (natBytes 2 w)
  else
    let bs := natBytes 8 w
    match decodeSimt bs with
    | .ok (n, _) => s.placed (placedCtx (standsInVliw n)) (placedBytes n (standsInVliw n))
    | .error _ => s.placed (placedCtx false) bs

end Sys2Proof.Machine
end

