-- ==== Sys2Proof/Machine/Dispatch.lean ====
section
/-! DEFINITION. Dispatch.lean: the meaning of every instruction and event, one arm each. -/

namespace Sys2Proof.Machine

def exec (i : Instr) (s : State) : Host.Outcome State Fault Refusal :=
  match i with
  | .powerCapWrite v => Sys2Proof.Machine.execPowerCapWrite v s
  | .powerOverCap => Sys2Proof.Machine.execPowerOverCap s
  | .powerBelowCap => Sys2Proof.Machine.execPowerBelowCap s
  | .thermal95 => Sys2Proof.Machine.execThermal95 s
  | .thermal105 => Sys2Proof.Machine.execThermal105 s
  | .thermalTrip110 => Sys2Proof.Machine.execThermalTrip110 s
  | .thermalResume => Sys2Proof.Machine.execThermalResume s
  | .firmwareUpdate kind version verified => Sys2Proof.Machine.execFirmwareUpdate kind version verified s
  | .raiseFusedMinimum kind version => Sys2Proof.Machine.execRaiseFusedMinimum kind version s
  | .managementReset => Sys2Proof.Machine.execManagementReset s
  | .deviceReset => Sys2Proof.Machine.execDeviceReset s
  | .getVersion => Sys2Proof.Machine.execGetVersion s
  | .getCapabilities => Sys2Proof.Machine.execGetCapabilities s
  | .negotiateAlgorithms => Sys2Proof.Machine.execNegotiateAlgorithms s
  | .getDigests => Sys2Proof.Machine.execGetDigests s
  | .getCertificate => Sys2Proof.Machine.execGetCertificate s
  | .challenge => Sys2Proof.Machine.execChallenge s
  | .getMeasurements => Sys2Proof.Machine.execGetMeasurements s
  | .logFlashCopy => Sys2Proof.Machine.execLogFlashCopy s
  | .logOverrunClear v => Sys2Proof.Machine.execLogOverrunClear v s
  | .hbmStackReady stack => Sys2Proof.Machine.execHbmStackReady stack s
  | .sectionSelfTestPass sec => Sys2Proof.Machine.execSectionSelfTestPass sec s
  | .portTrained port => Sys2Proof.Machine.execPortTrained port s
  | .hostComplexRelease verified => Sys2Proof.Machine.execHostComplexRelease verified s
  | .wyundPortTrained port peer => Sys2Proof.Machine.execWyundPortTrained port peer s
  | .wyundIdWrite v => Sys2Proof.Machine.execWyundIdWrite v s
  | .darnVerdict part pass1 pass2 pass3 => Sys2Proof.Machine.execDarnVerdict part pass1 pass2 pass3 s
  | .partKeyGenerate p => Sys2Proof.Machine.execPartKeyGenerate p s
  | .partKeyErase p => Sys2Proof.Machine.execPartKeyErase p s
  | .partitionReset p => Sys2Proof.Machine.execPartitionReset p s
  | .partitionResetComplete p => Sys2Proof.Machine.execPartitionResetComplete p s
  | .vfEnable vf v => Sys2Proof.Machine.execVfEnable vf v s
  | .vfDisable vf => Sys2Proof.Machine.execVfDisable vf s
  | .functionLevelReset vf => Sys2Proof.Machine.execFunctionLevelReset vf s
  | .ldLinkDown ld => Sys2Proof.Machine.execLdLinkDown ld s
  | .vfResetComplete vf => Sys2Proof.Machine.execVfResetComplete vf s
  | .batchSlotActivate slot v => Sys2Proof.Machine.execBatchSlotActivate slot v s
  | .batchSlotFree slot => Sys2Proof.Machine.execBatchSlotFree slot s
  | .cxlMemAccess ld window off req => Sys2Proof.Machine.execCxlMemAccess ld window off req s
  | .inboundPeerRequest dev rpart pa req => Sys2Proof.Machine.execInboundPeerRequest dev rpart pa req s
  | .flitCrcRetry port => Sys2Proof.Machine.execFlitCrcRetry port s
  | .wyundPortFail port => Sys2Proof.Machine.execWyundPortFail port s
  | .rdmaInbound qp pa req => Sys2Proof.Machine.execRdmaInbound qp pa req s
  | .queueFeedTail qp tail => Sys2Proof.Machine.execQueueFeedTail qp tail s
  | .activeMessage qp bytes => Sys2Proof.Machine.execActiveMessage qp bytes s
  | .handlerStart core => Sys2Proof.Machine.execHandlerStart core s
  | .doorbell src queue tail => Sys2Proof.Machine.execDoorbell src queue tail s
  | .qcSliceWrite v => Sys2Proof.Machine.execQcSliceWrite v s
  | .qcSliceExpiry => Sys2Proof.Machine.execQcSliceExpiry s
  | .queueReplace queue => Sys2Proof.Machine.execQueueReplace queue s
  | .packetDispatch queue => Sys2Proof.Machine.execPacketDispatch queue s
  | .marker grid => Sys2Proof.Machine.execMarker grid s
  | .teamStart grid => Sys2Proof.Machine.execTeamStart grid s
  | .taskStart grid => Sys2Proof.Machine.execTaskStart grid s
  | .pendingTaskStart core => Sys2Proof.Machine.execPendingTaskStart core s
  | .gridEnd grid => Sys2Proof.Machine.execGridEnd grid s
  | .coreSchedWrite core v => Sys2Proof.Machine.execCoreSchedWrite core v s
  | .flowBoost core ctx flow => Sys2Proof.Machine.execFlowBoost core ctx flow s
  | .claimGrant core => Sys2Proof.Machine.execClaimGrant core s
  | .taskCommit core ctx => Sys2Proof.Machine.execTaskCommit core ctx s
  | .taskAbort core ctx => Sys2Proof.Machine.execTaskAbort core ctx s
  | .budgetEvent core ctx => Sys2Proof.Machine.execBudgetEvent core ctx s
  | .cycleBudgetExpiry core ctx => Sys2Proof.Machine.execCycleBudgetExpiry core ctx s
  | .intervalAgeClose core ctx => Sys2Proof.Machine.execIntervalAgeClose core ctx s
  | .pageWalk sec asid va write => Sys2Proof.Machine.execPageWalk sec asid va write s
  | .enginePartLanded core ctx queue => Sys2Proof.Machine.execEnginePartLanded core ctx queue s
  | .engineFault core ctx queue => Sys2Proof.Machine.execEngineFault core ctx queue s
  | .collectiveEnd core ctx => Sys2Proof.Machine.execCollectiveEnd core ctx s
  | .launchAppend core ctx => Sys2Proof.Machine.execLaunchAppend core ctx s
  | .matrixOpComplete core => Sys2Proof.Machine.execMatrixOpComplete core s
  | .windowArrival core window part v => Sys2Proof.Machine.execWindowArrival core window part v s
  | .uiRaise core ctx part v => Sys2Proof.Machine.execUiRaise core ctx part v s
  | .uiDelivery core ctx => Sys2Proof.Machine.execUiDelivery core ctx s
  | .tlbInval sec asid va size => Sys2Proof.Machine.execTlbInval sec asid va size s
  | .invalDone sec => Sys2Proof.Machine.execInvalDone sec s
  | .trapqHeadWrite sec v => Sys2Proof.Machine.execTrapqHeadWrite sec v s
  | .replay core ctx => Sys2Proof.Machine.execReplay core ctx s
  | .skip core ctx => Sys2Proof.Machine.execSkip core ctx s
  | .park core ctx => Sys2Proof.Machine.execPark core ctx s
  | .restore core ctx => Sys2Proof.Machine.execRestore core ctx s
  | .destroy core ctx => Sys2Proof.Machine.execDestroy core ctx s
  | .faultGrid core ctx => Sys2Proof.Machine.execFaultGrid core ctx s
  | .requeue core ctx => Sys2Proof.Machine.execRequeue core ctx s
  | .step core ctx flow => Sys2Proof.Machine.execStep core ctx flow s
  | .singleStepComplete core ctx flow => Sys2Proof.Machine.execSingleStepComplete core ctx flow s
  | .stop core ctx => Sys2Proof.Machine.execStop core ctx s
  | .stopReached core ctx => Sys2Proof.Machine.execStopReached core ctx s
  | .flush core ctx => Sys2Proof.Machine.execFlush core ctx s
  | .ctxCmdInvalid core v => Sys2Proof.Machine.execCtxCmdInvalid core v s
  | .codeWinWrite core idx v => Sys2Proof.Machine.execCodeWinWrite core idx v s
  | .istoreWrite core addr bytes => Sys2Proof.Machine.execIstoreWrite core addr bytes s
  | .sramSplitWrite core v => Sys2Proof.Machine.execSramSplitWrite core v s
  | .sramSplitDone core => Sys2Proof.Machine.execSramSplitDone core s
  | .barWinCfgWrite core window v => Sys2Proof.Machine.execBarWinCfgWrite core window v s
  | .trcSizeWrite core v => Sys2Proof.Machine.execTrcSizeWrite core v s
  | .uncorrectableError core ctx loc => Sys2Proof.Machine.execUncorrectableError core ctx loc s
  | .rerunVerdict core ctx agree => Sys2Proof.Machine.execRerunVerdict core ctx agree s
  | .correctedError source code => Sys2Proof.Machine.execCorrectedError source code s
  | .registerWrite reg v => Sys2Proof.Machine.execRegisterWrite reg v s
  | .nop f => Sys2Proof.Machine.execNop f s
  | .sadd f => Sys2Proof.Machine.execSadd f s
  | .saddImm f => Sys2Proof.Machine.execSaddImm f s
  | .saddExt f x => Sys2Proof.Machine.execSaddExt f x s
  | .ssub f => Sys2Proof.Machine.execSsub f s
  | .ssubImm f => Sys2Proof.Machine.execSsubImm f s
  | .ssubExt f x => Sys2Proof.Machine.execSsubExt f x s
  | .smul f => Sys2Proof.Machine.execSmul f s
  | .smulImm f => Sys2Proof.Machine.execSmulImm f s
  | .smulExt f x => Sys2Proof.Machine.execSmulExt f x s
  | .smulh f => Sys2Proof.Machine.execSmulh f s
  | .smulhExt f x => Sys2Proof.Machine.execSmulhExt f x s
  | .sand f => Sys2Proof.Machine.execSand f s
  | .sandImm f => Sys2Proof.Machine.execSandImm f s
  | .sandExt f x => Sys2Proof.Machine.execSandExt f x s
  | .sor f => Sys2Proof.Machine.execSor f s
  | .sorImm f => Sys2Proof.Machine.execSorImm f s
  | .sorExt f x => Sys2Proof.Machine.execSorExt f x s
  | .sxor f => Sys2Proof.Machine.execSxor f s
  | .sxorImm f => Sys2Proof.Machine.execSxorImm f s
  | .sxorExt f x => Sys2Proof.Machine.execSxorExt f x s
  | .sshl f => Sys2Proof.Machine.execSshl f s
  | .sshlImm f => Sys2Proof.Machine.execSshlImm f s
  | .sshlExt f x => Sys2Proof.Machine.execSshlExt f x s
  | .sshr f => Sys2Proof.Machine.execSshr f s
  | .sshrImm f => Sys2Proof.Machine.execSshrImm f s
  | .sshrExt f x => Sys2Proof.Machine.execSshrExt f x s
  | .ssra f => Sys2Proof.Machine.execSsra f s
  | .ssraImm f => Sys2Proof.Machine.execSsraImm f s
  | .ssraExt f x => Sys2Proof.Machine.execSsraExt f x s
  | .smin f => Sys2Proof.Machine.execSmin f s
  | .sminImm f => Sys2Proof.Machine.execSminImm f s
  | .sminExt f x => Sys2Proof.Machine.execSminExt f x s
  | .smax f => Sys2Proof.Machine.execSmax f s
  | .smaxImm f => Sys2Proof.Machine.execSmaxImm f s
  | .smaxExt f x => Sys2Proof.Machine.execSmaxExt f x s
  | .scmp f => Sys2Proof.Machine.execScmp f s
  | .scmpImm f => Sys2Proof.Machine.execScmpImm f s
  | .scmpExt f x => Sys2Proof.Machine.execScmpExt f x s
  | .ssel f => Sys2Proof.Machine.execSsel f s
  | .sselExt f x => Sys2Proof.Machine.execSselExt f x s
  | .smov f => Sys2Proof.Machine.execSmov f s
  | .smovExt f x => Sys2Proof.Machine.execSmovExt f x s
  | .sli f imm => Sys2Proof.Machine.execSli f imm s
  | .slih f imm => Sys2Proof.Machine.execSlih f imm s
  | .sadda f => Sys2Proof.Machine.execSadda f s
  | .saddaImm f => Sys2Proof.Machine.execSaddaImm f s
  | .saddaExt f x => Sys2Proof.Machine.execSaddaExt f x s
  | .sgets f => Sys2Proof.Machine.execSgets f s
  | .ssets f => Sys2Proof.Machine.execSsets f s
  | .bra f imm => Sys2Proof.Machine.execBra f imm s
  | .brx f => Sys2Proof.Machine.execBrx f s
  | .call f imm => Sys2Proof.Machine.execCall f imm s
  | .callx f => Sys2Proof.Machine.execCallx f s
  | .ret f => Sys2Proof.Machine.execRet f s
  | .lpadC f => Sys2Proof.Machine.execLpadC f s
  | .lpadJ f => Sys2Proof.Machine.execLpadJ f s
  | .seam f => Sys2Proof.Machine.execSeam f s
  | .loop f imm => Sys2Proof.Machine.execLoop f imm s
  | .lexit f => Sys2Proof.Machine.execLexit f s
  | .collapse f => Sys2Proof.Machine.execCollapse f s
  | .collapseN f => Sys2Proof.Machine.execCollapseN f s
  | .expand f => Sys2Proof.Machine.execExpand f s
  | .yield f => Sys2Proof.Machine.execYield f s
  | .exit f => Sys2Proof.Machine.execExit f s
  | .tack f => Sys2Proof.Machine.execTack f s
  | .ptload f => Sys2Proof.Machine.execPtload f s
  | .patternReference n => Sys2Proof.Machine.execPatternReference n s
  | .add f => Sys2Proof.Machine.execAdd f s
  | .addImm f => Sys2Proof.Machine.execAddImm f s
  | .addExt f x => Sys2Proof.Machine.execAddExt f x s
  | .addPort f => Sys2Proof.Machine.execAddPort f s
  | .sub f => Sys2Proof.Machine.execSub f s
  | .subImm f => Sys2Proof.Machine.execSubImm f s
  | .subExt f x => Sys2Proof.Machine.execSubExt f x s
  | .subPort f => Sys2Proof.Machine.execSubPort f s
  | .mul f => Sys2Proof.Machine.execMul f s
  | .mulImm f => Sys2Proof.Machine.execMulImm f s
  | .mulExt f x => Sys2Proof.Machine.execMulExt f x s
  | .mulPort f => Sys2Proof.Machine.execMulPort f s
  | .mulh f => Sys2Proof.Machine.execMulh f s
  | .mulhExt f x => Sys2Proof.Machine.execMulhExt f x s
  | .mulhPort f => Sys2Proof.Machine.execMulhPort f s
  | .mad f => Sys2Proof.Machine.execMad f s
  | .madExt f x => Sys2Proof.Machine.execMadExt f x s
  | .madPort f => Sys2Proof.Machine.execMadPort f s
  | .and f => Sys2Proof.Machine.execAnd f s
  | .andImm f => Sys2Proof.Machine.execAndImm f s
  | .andExt f x => Sys2Proof.Machine.execAndExt f x s
  | .andPort f => Sys2Proof.Machine.execAndPort f s
  | .or f => Sys2Proof.Machine.execOr f s
  | .orImm f => Sys2Proof.Machine.execOrImm f s
  | .orExt f x => Sys2Proof.Machine.execOrExt f x s
  | .orPort f => Sys2Proof.Machine.execOrPort f s
  | .xor f => Sys2Proof.Machine.execXor f s
  | .xorImm f => Sys2Proof.Machine.execXorImm f s
  | .xorExt f x => Sys2Proof.Machine.execXorExt f x s
  | .xorPort f => Sys2Proof.Machine.execXorPort f s
  | .not f => Sys2Proof.Machine.execNot f s
  | .notExt f x => Sys2Proof.Machine.execNotExt f x s
  | .notPort f => Sys2Proof.Machine.execNotPort f s
  | .abs f => Sys2Proof.Machine.execAbs f s
  | .absExt f x => Sys2Proof.Machine.execAbsExt f x s
  | .absPort f => Sys2Proof.Machine.execAbsPort f s
  | .neg f => Sys2Proof.Machine.execNeg f s
  | .negExt f x => Sys2Proof.Machine.execNegExt f x s
  | .negPort f => Sys2Proof.Machine.execNegPort f s
  | .clz f => Sys2Proof.Machine.execClz f s
  | .clzExt f x => Sys2Proof.Machine.execClzExt f x s
  | .clzPort f => Sys2Proof.Machine.execClzPort f s
  | .popc f => Sys2Proof.Machine.execPopc f s
  | .popcExt f x => Sys2Proof.Machine.execPopcExt f x s
  | .popcPort f => Sys2Proof.Machine.execPopcPort f s
  | .brev f => Sys2Proof.Machine.execBrev f s
  | .brevExt f x => Sys2Proof.Machine.execBrevExt f x s
  | .brevPort f => Sys2Proof.Machine.execBrevPort f s
  | .fadd f => Sys2Proof.Machine.execFadd f s
  | .faddExt f x => Sys2Proof.Machine.execFaddExt f x s
  | .faddPort f => Sys2Proof.Machine.execFaddPort f s
  | .fsub f => Sys2Proof.Machine.execFsub f s
  | .fsubExt f x => Sys2Proof.Machine.execFsubExt f x s
  | .fsubPort f => Sys2Proof.Machine.execFsubPort f s
  | .fmul f => Sys2Proof.Machine.execFmul f s
  | .fmulExt f x => Sys2Proof.Machine.execFmulExt f x s
  | .fmulPort f => Sys2Proof.Machine.execFmulPort f s
  | .fma f => Sys2Proof.Machine.execFma f s
  | .fmaExt f x => Sys2Proof.Machine.execFmaExt f x s
  | .fmaPort f => Sys2Proof.Machine.execFmaPort f s
  | .fmin f => Sys2Proof.Machine.execFmin f s
  | .fminExt f x => Sys2Proof.Machine.execFminExt f x s
  | .fminPort f => Sys2Proof.Machine.execFminPort f s
  | .fmax f => Sys2Proof.Machine.execFmax f s
  | .fmaxExt f x => Sys2Proof.Machine.execFmaxExt f x s
  | .fmaxPort f => Sys2Proof.Machine.execFmaxPort f s
  | .fcmp f => Sys2Proof.Machine.execFcmp f s
  | .fcmpExt f x => Sys2Proof.Machine.execFcmpExt f x s
  | .fcmpPort f => Sys2Proof.Machine.execFcmpPort f s
  | .cvt f x => Sys2Proof.Machine.execCvt f x s
  | .frnd f => Sys2Proof.Machine.execFrnd f s
  | .frndExt f x => Sys2Proof.Machine.execFrndExt f x s
  | .frndPort f => Sys2Proof.Machine.execFrndPort f s
  | .rcp f => Sys2Proof.Machine.execRcp f s
  | .rcpExt f x => Sys2Proof.Machine.execRcpExt f x s
  | .rcpPort f => Sys2Proof.Machine.execRcpPort f s
  | .rsq f => Sys2Proof.Machine.execRsq f s
  | .rsqExt f x => Sys2Proof.Machine.execRsqExt f x s
  | .rsqPort f => Sys2Proof.Machine.execRsqPort f s
  | .sqrt f => Sys2Proof.Machine.execSqrt f s
  | .sqrtExt f x => Sys2Proof.Machine.execSqrtExt f x s
  | .sqrtPort f => Sys2Proof.Machine.execSqrtPort f s
  | .exp2 f => Sys2Proof.Machine.execExp2 f s
  | .exp2Ext f x => Sys2Proof.Machine.execExp2Ext f x s
  | .exp2Port f => Sys2Proof.Machine.execExp2Port f s
  | .log2 f => Sys2Proof.Machine.execLog2 f s
  | .log2Ext f x => Sys2Proof.Machine.execLog2Ext f x s
  | .log2Port f => Sys2Proof.Machine.execLog2Port f s
  | .sin f => Sys2Proof.Machine.execSin f s
  | .sinExt f x => Sys2Proof.Machine.execSinExt f x s
  | .sinPort f => Sys2Proof.Machine.execSinPort f s
  | .cos f => Sys2Proof.Machine.execCos f s
  | .cosExt f x => Sys2Proof.Machine.execCosExt f x s
  | .cosPort f => Sys2Proof.Machine.execCosPort f s
  | .tanh f => Sys2Proof.Machine.execTanh f s
  | .tanhExt f x => Sys2Proof.Machine.execTanhExt f x s
  | .tanhPort f => Sys2Proof.Machine.execTanhPort f s
  | .shl f => Sys2Proof.Machine.execShl f s
  | .shlImm f => Sys2Proof.Machine.execShlImm f s
  | .shlExt f x => Sys2Proof.Machine.execShlExt f x s
  | .shlPort f => Sys2Proof.Machine.execShlPort f s
  | .shr f => Sys2Proof.Machine.execShr f s
  | .shrImm f => Sys2Proof.Machine.execShrImm f s
  | .shrExt f x => Sys2Proof.Machine.execShrExt f x s
  | .shrPort f => Sys2Proof.Machine.execShrPort f s
  | .sra f => Sys2Proof.Machine.execSra f s
  | .sraImm f => Sys2Proof.Machine.execSraImm f s
  | .sraExt f x => Sys2Proof.Machine.execSraExt f x s
  | .sraPort f => Sys2Proof.Machine.execSraPort f s
  | .rot f => Sys2Proof.Machine.execRot f s
  | .rotImm f => Sys2Proof.Machine.execRotImm f s
  | .rotExt f x => Sys2Proof.Machine.execRotExt f x s
  | .rotPort f => Sys2Proof.Machine.execRotPort f s
  | .min f => Sys2Proof.Machine.execMin f s
  | .minImm f => Sys2Proof.Machine.execMinImm f s
  | .minExt f x => Sys2Proof.Machine.execMinExt f x s
  | .minPort f => Sys2Proof.Machine.execMinPort f s
  | .max f => Sys2Proof.Machine.execMax f s
  | .maxImm f => Sys2Proof.Machine.execMaxImm f s
  | .maxExt f x => Sys2Proof.Machine.execMaxExt f x s
  | .maxPort f => Sys2Proof.Machine.execMaxPort f s
  | .bfe f => Sys2Proof.Machine.execBfe f s
  | .bfeExt f x => Sys2Proof.Machine.execBfeExt f x s
  | .bfePort f => Sys2Proof.Machine.execBfePort f s
  | .bfi f => Sys2Proof.Machine.execBfi f s
  | .bfiExt f x => Sys2Proof.Machine.execBfiExt f x s
  | .bfiPort f => Sys2Proof.Machine.execBfiPort f s
  | .cmp f => Sys2Proof.Machine.execCmp f s
  | .cmpImm f => Sys2Proof.Machine.execCmpImm f s
  | .cmpExt f x => Sys2Proof.Machine.execCmpExt f x s
  | .cmpPort f => Sys2Proof.Machine.execCmpPort f s
  | .sel f => Sys2Proof.Machine.execSel f s
  | .selExt f x => Sys2Proof.Machine.execSelExt f x s
  | .selPort f => Sys2Proof.Machine.execSelPort f s
  | .mov f => Sys2Proof.Machine.execMov f s
  | .movExt f x => Sys2Proof.Machine.execMovExt f x s
  | .movPort f => Sys2Proof.Machine.execMovPort f s
  | .movi f imm => Sys2Proof.Machine.execMovi f imm s
  | .dp4 f => Sys2Proof.Machine.execDp4 f s
  | .dp4Ext f x => Sys2Proof.Machine.execDp4Ext f x s
  | .dp4Port f => Sys2Proof.Machine.execDp4Port f s
  | .perm f => Sys2Proof.Machine.execPerm f s
  | .permExt f x => Sys2Proof.Machine.execPermExt f x s
  | .permPort f => Sys2Proof.Machine.execPermPort f s
  | .shfl f => Sys2Proof.Machine.execShfl f s
  | .shflImm f => Sys2Proof.Machine.execShflImm f s
  | .shflExt f x => Sys2Proof.Machine.execShflExt f x s
  | .shflPort f => Sys2Proof.Machine.execShflPort f s
  | .vote f => Sys2Proof.Machine.execVote f s
  | .voteExt f x => Sys2Proof.Machine.execVoteExt f x s
  | .votePort f => Sys2Proof.Machine.execVotePort f s
  | .scan f => Sys2Proof.Machine.execScan f s
  | .scanExt f x => Sys2Proof.Machine.execScanExt f x s
  | .scanPort f => Sys2Proof.Machine.execScanPort f s
  | .red f => Sys2Proof.Machine.execRed f s
  | .redExt f x => Sys2Proof.Machine.execRedExt f x s
  | .redPort f => Sys2Proof.Machine.execRedPort f s
  | .bcast f => Sys2Proof.Machine.execBcast f s
  | .bcastImm f => Sys2Proof.Machine.execBcastImm f s
  | .bcastExt f x => Sys2Proof.Machine.execBcastExt f x s
  | .bcastPort f => Sys2Proof.Machine.execBcastPort f s
  | .sample f => Sys2Proof.Machine.execSample f s
  | .sampleExt f x => Sys2Proof.Machine.execSampleExt f x s
  | .xmov f => Sys2Proof.Machine.execXmov f s
  | .ld f => Sys2Proof.Machine.execLd f s
  | .ldExt f m => Sys2Proof.Machine.execLdExt f m s
  | .st f => Sys2Proof.Machine.execSt f s
  | .stExt f m => Sys2Proof.Machine.execStExt f m s
  | .atom f => Sys2Proof.Machine.execAtom f s
  | .atomExt f m => Sys2Proof.Machine.execAtomExt f m s
  | .redm f => Sys2Proof.Machine.execRedm f s
  | .redmExt f m => Sys2Proof.Machine.execRedmExt f m s
  | .pexport f => Sys2Proof.Machine.execPexport f s
  | .binit f => Sys2Proof.Machine.execBinit f s
  | .binitExt f m => Sys2Proof.Machine.execBinitExt f m s
  | .barr f => Sys2Proof.Machine.execBarr f s
  | .barrExt f m => Sys2Proof.Machine.execBarrExt f m s
  | .barrx f => Sys2Proof.Machine.execBarrx f s
  | .barrxExt f m => Sys2Proof.Machine.execBarrxExt f m s
  | .bwait f => Sys2Proof.Machine.execBwait f s
  | .bwaitExt f m => Sys2Proof.Machine.execBwaitExt f m s
  | .bwaitDone core ctx flow => Sys2Proof.Machine.execBwaitDone core ctx flow s
  | .btest f => Sys2Proof.Machine.execBtest f s
  | .fence f => Sys2Proof.Machine.execFence f s
  | .fenceExt f m => Sys2Proof.Machine.execFenceExt f m s
  | .acq f => Sys2Proof.Machine.execAcq f s
  | .acqExt f m => Sys2Proof.Machine.execAcqExt f m s
  | .rel f => Sys2Proof.Machine.execRel f s
  | .relExt f m => Sys2Proof.Machine.execRelExt f m s
  | .drain f => Sys2Proof.Machine.execDrain f s
  | .drainExt f m => Sys2Proof.Machine.execDrainExt f m s
  | .pfence f => Sys2Proof.Machine.execPfence f s
  | .pfenceExt f m => Sys2Proof.Machine.execPfenceExt f m s
  | .tbar f => Sys2Proof.Machine.execTbar f s
  | .tbarExt f m => Sys2Proof.Machine.execTbarExt f m s
  | .pbar f => Sys2Proof.Machine.execPbar f s
  | .pbarExt f m => Sys2Proof.Machine.execPbarExt f m s
  | .barrierComplete core ctx patch => Sys2Proof.Machine.execBarrierComplete core ctx patch s
  | .mma f => Sys2Proof.Machine.execMma f s
  | .mmaExt f x => Sys2Proof.Machine.execMmaExt f x s
  | .mmaq f x => Sys2Proof.Machine.execMmaq f x s
  | .mzero f => Sys2Proof.Machine.execMzero f s
  | .mld f => Sys2Proof.Machine.execMld f s
  | .mldExt f m => Sys2Proof.Machine.execMldExt f m s
  | .mst f => Sys2Proof.Machine.execMst f s
  | .mstExt f m => Sys2Proof.Machine.execMstExt f m s
  | .mplane f => Sys2Proof.Machine.execMplane f s
  | .mplaneExt f x => Sys2Proof.Machine.execMplaneExt f x s
  | .munplane f => Sys2Proof.Machine.execMunplane f s
  | .munplaneExt f x => Sys2Proof.Machine.execMunplaneExt f x s
  | .mtr f => Sys2Proof.Machine.execMtr f s
  | .madd f => Sys2Proof.Machine.execMadd f s
  | .maddExt f x => Sys2Proof.Machine.execMaddExt f x s
  | .mscale f => Sys2Proof.Machine.execMscale f s
  | .mscaleExt f x => Sys2Proof.Machine.execMscaleExt f x s
  | .scl f => Sys2Proof.Machine.execScl f s
  | .sclExt f m => Sys2Proof.Machine.execSclExt f m s
  | .mbatch f => Sys2Proof.Machine.execMbatch f s
  | .mwait f => Sys2Proof.Machine.execMwait f s
  | .mwaitImm f => Sys2Proof.Machine.execMwaitImm f s
  | .cpy f => Sys2Proof.Machine.execCpy f s
  | .cpyPlane f x => Sys2Proof.Machine.execCpyPlane f x s
  | .cpyl f => Sys2Proof.Machine.execCpyl f s
  | .gat f => Sys2Proof.Machine.execGat f s
  | .gatPlane f x => Sys2Proof.Machine.execGatPlane f x s
  | .sct f => Sys2Proof.Machine.execSct f s
  | .gpl f => Sys2Proof.Machine.execGpl f s
  | .coll f x => Sys2Proof.Machine.execColl f x s
  | .qfence f => Sys2Proof.Machine.execQfence f s
  | .qfenceImm f => Sys2Proof.Machine.execQfenceImm f s
  | .qstat f => Sys2Proof.Machine.execQstat f s
  | .send f => Sys2Proof.Machine.execSend f s
  | .launch f => Sys2Proof.Machine.execLaunch f s
  | .tend f => Sys2Proof.Machine.execTend f s
  | .tabort f => Sys2Proof.Machine.execTabort f s
  | .tabortExt f x => Sys2Proof.Machine.execTabortExt f x s
  | .vgrow f => Sys2Proof.Machine.execVgrow f s
  | .vgrowImm f => Sys2Proof.Machine.execVgrowImm f s
  | .sgrow f => Sys2Proof.Machine.execSgrow f s
  | .sgrowImm f => Sys2Proof.Machine.execSgrowImm f s
  | .svc f imm => Sys2Proof.Machine.execSvc f imm s
  | .trap f => Sys2Proof.Machine.execTrap f s
  | .trapExt f imm => Sys2Proof.Machine.execTrapExt f imm s
  | .brk f => Sys2Proof.Machine.execBrk f s
  | .uiret f => Sys2Proof.Machine.execUiret f s
  | .uimask f => Sys2Proof.Machine.execUimask f s
  | .uimaskImm f => Sys2Proof.Machine.execUimaskImm f s
  | .trc f => Sys2Proof.Machine.execTrc f s
  | .trcImm f => Sys2Proof.Machine.execTrcImm f s
  | .trcExt f imm => Sys2Proof.Machine.execTrcExt f imm s
  | .vliwBundle b => Sys2Proof.Machine.execVliwBundle b s
  | .powerLoss => Sys2Proof.Machine.execPowerLoss s
  | .loadValueReturned core ctx => Sys2Proof.Machine.execLoadValueReturned core ctx s
  | .grantNak core ctx pa => Sys2Proof.Machine.execGrantNak core ctx pa s
  | .serviceEntryDone vf slot status args => Sys2Proof.Machine.execServiceEntryDone vf slot status args s
  | .firmwareInterfaceCommand sec tag cmd => Sys2Proof.Machine.execFirmwareInterfaceCommand sec tag cmd s
  | .queueCtlReady => Sys2Proof.Machine.execQueueCtlReady s
  | .ldBinding ld port host => Sys2Proof.Machine.execLdBinding ld port host s

end Sys2Proof.Machine
end

