-- ==== Sys2Proof/Machine/Step.lean ====
section
/-! DEFINITION. Step.lean: one step of the machine, and the placing of one instruction before it. -/

namespace Sys2Proof.Machine

/-- The event that gives the module power again: a device reset (01 R10; 02 R20). -/
def givesPower : Instr → Bool
  | .deviceReset => true
  | _ => false

/-- One step: the oldest event of the outside world, else what the machine does next (notes/assumptions/4.md). A module
without power takes no step until an event gives it power; every other event passes it by. (log 4, DESIGN CHOICE) (log 93, DEDUCED) -/
def step (s : State) : Host.Outcome State Fault Refusal :=
  match s.inputs with
  | i :: rest =>
    let t := { s with inputs := rest, tick := s.tick + 1 }
    if s.mgmt.powered || givesPower i then exec i t else .next t
  | [] => if s.mgmt.powered then ({ s with tick := s.tick + 1 }).proceed else .fault .noPower

/-- The state whose next step issues the instruction with these bits: it stands alone before the main flow of a context
of core 0, as a launch leaves one (notes/assumptions/30.md). (log 30, DESIGN CHOICE) -/
def State.withFetchWord (s : State) (nbits w : Nat) : State := s.placeWord nbits w

end Sys2Proof.Machine
end

