-- ==== Sys2Proof/Safety.lean ====
section
/-! DEFINITION. Safety.lean: what counts as a safe run, the invariant that every step keeps, and the terms in which the
statements say that an instruction issues: when nothing holds it back, what it reads, and what an issue leaves alone. -/

namespace Sys2Proof.Machine

/-- A step that answers a state is safe; a module without power stops (01 R10). -/
def Out.isNext (o : Out) : Bool :=
  match o with
  | .next _ => true
  | _ => false

/-- The states that some number of steps reaches from a state. -/
inductive Reaches : State → State → Prop where
  | refl (s : State) : Reaches s s
  | next {s t u : State} : Reaches s t → step t = .next u → Reaches s u

/-- Memory in canonical form: addresses rising, and no listed byte equal to what an unlisted address reads as. -/
def State.Inv (s : State) : Prop := s.mem.wf = true

/-! ### Issuing one instruction -/

/-- A SIMT flow may issue an instruction-pass of `n`: the flow waits for nothing, no outstanding load has a refused
value, the encoding raises no cause, the landing pad that an indirect jump asks for is there, no register of it waits
for a load or a parked pass, and no release holds it back (05 R104; 08 R163; 09 R190; 11 R231; 14 R276; 03 R66). -/
structure SimtReady (s : State) (n : Info) : Prop where
  issues : s.mayIssue s.cur.core s.cur.ctx s.cur.flow = true
  loads : s.cc.badLoad = none
  simt : s.cc.vliw = false
  encoded : encodingCause n s.cc.simtPlace = none
  landed : s.cf.group = none → landingTrap (padKind n) s.cf.landing s.cf.pc = none
  free : s.cc.passHeld (opd n) (s.cf.inGroup n).pass = false
  released : s.releaseHolds s.cc (opd n) = false
  unparked : accessPass (opd n).major = true → s.groupParked s.cur.core s.cur.ctx (s.cf.inGroup n).pass = false

/-- A VLIW thread may issue `n` as the only op of a bundle, in the cursor's slot: as above, with the op legal in its slot,
its stage guard holding, and the bundle not the last one of a loop's body (09 R188, R194, R195; 11 R227, R231). -/
structure VliwReady (s : State) (n : Info) : Prop where
  issues : s.mayIssue s.cur.core s.cur.ctx s.cur.flow = true
  loads : s.cc.badLoad = none
  vliw : s.cc.vliw = true
  flow : s.cur.flow = 255
  noRefill : s.cc.refill = false
  encoded : s.cc.opCause s s.cf.pc s.cur.slot (.ok n) = none
  landed : landingTrap (padKind n) s.cf.landing s.cf.pc = none
  free : s.cc.bundleHeld [opd n] = false
  released : s.releaseHolds s.cc (opd n) = false
  stage : stageGuard s.cc (opd n) = true
  noEnd : s.cc.delay.isSome = true ∨ ∀ en, s.cc.loops.getLast? = some en → en.stop ≠ s.cf.pc

/-- Either decoder. -/
def Ready (s : State) (n : Info) : Prop := SimtReady s n ∨ VliwReady s n

/-- The state in which a ready instruction takes effect: its flow waits for nothing, and in SIMT mode it stands in its
stop group. -/
def State.opState (s : State) (n : Info) : State :=
  if s.cc.vliw then s.updCf (fun fl => { fl with wait := .none, landing := none, pc := s.cf.pc })
  else s.updCf (fun fl => { fl with group := some (s.cf.inGroup n), wait := .none, landing := none })

/-- What a ready instruction sees: its lanes, its address, and the registers as its reads see them (09 R191; 11 R226). -/
def State.opEnv (s : State) (n : Info) : Env :=
  let s' := s.opState n
  if s.cc.vliw then s'.slotEnv s.cur.slot n s.cf.pc
  else
    let fl := s.cf
    let g := fl.inGroup n
    let addr := match g.ops[g.pos]? with
      | some o => o.addr
      | none => fl.pc
    let e := s'.passEnv n addr g.pass (maskOf fl.masks g.pass) (g.pass == g.first) (fl.passes.all (fun p => p ≤ g.pass)) g.shadow
    { e with k := g.recall e.k }

/-- The undo log has room for the registers that an instruction writes first (08 R158, 10 R212). -/
def State.undoRoom (s : State) (n : Info) : Prop :=
  s.cc.undo.length
    + (undoKeys s.cc (opd n) (!s.cc.vliw) (s.opEnv n).group (s.opEnv n).slot).length ≤ Config.undoMax

/-- A context after the issue cycle of an instruction: in VLIW mode the next issue cycle begins, and the results due in it
land (09 R186). -/
def Ctx.afterIssue (k : Ctx) : Ctx := if k.vliw then ({ k with icyc := k.icyc + 1 }).land (k.icyc + 1) else k

/-- A context and what an issue may change of it beside its effect: the position of the flow, the undo log, a step's mark,
and in VLIW mode the delay bundles that are left and the mark of a loop that drains. -/
def Ctx.IssuedFrom (k' k : Ctx) : Prop :=
  k' = { k with flows := k'.flows, undo := k'.undo, undoVals := k'.undoVals, stepped := k'.stepped, delay := k'.delay, loops := k'.loops }

/-- An issue that changes nothing but its context, whose results are the given writes, due `lat` after it. -/
def IssueWrites (s : State) (o : Out) (lat : Nat) (ws : List Write) : Prop :=
  ∃ k, o = .next (s.setCtx s.cur.core s.cur.ctx k) ∧ k.IssuedFrom (s.cc.deliver s.cycle lat ws).afterIssue

/-- The registers of a context once the results of an issue of latency `lat` are due: at once in SIMT mode, at issue cycle
i + lat in VLIW mode (09 R185, R186; 23 R409). -/
def State.settled (s : State) (t : State) (lat : Nat) : Ctx := if s.cc.vliw then t.cc.land (s.cc.icyc + lat) else t.cc

end Sys2Proof.Machine
end

