-- ==== Sys2Proof/WellFormed.lean ====
section
/-! DEFINITION. WellFormed.lean: the instructions that an encoding or an agent can give: what the decoder accepts, with
the reserved bits of its words zero, and events whose arguments name things that exist (00; 02; 03; 04; 11; 13). -/

namespace Sys2Proof

/-- Reserved bits of an extended word are zero (11 R228, R229). -/
def Ext.reservedClear : Ext → Bool
  | .x v => v.rsv == 0
  | .m v => v.rsv == 0
  | _ => true

/-- The op is one that the decoder reads back: B is zero where the selector stands, and SUB is assigned (13 R260 to
R263). -/
def Info.wellFormed (n : Info) : Bool :=
  (selectorCount n.major.toNat == 0 || n.f.b == 0) && subAssigned n.major.toNat n.sub && n.ext.reservedClear

/-- The words of a bundle are those of its slots: one for each, and an extended word where its form is 10 (11 R222). -/
def fitWords : Nat → List Word → Bool
  | 0, ws => ws.isEmpty
  | _ + 1, [] => false
  | n + 1, w :: ws => if hasExt w then (match ws with
    | [] => false
    | _ :: r => fitWords n r) else fitWords n ws

def isCore (c : Nat) : Bool := c < 256
def isContext (x : Nat) : Bool := x < 20
def isFlow (f : Nat) : Bool := f < 64 || f == 255
def isSection (n : Nat) : Bool := n < 32
def isPartition (p : Nat) : Bool := p < 32
def isVf (v : Nat) : Bool := v < 384
def isQueue (q : Nat) : Bool := q < 4096
def isQp (q : Nat) : Bool := q < 65536
def isLd (n : Nat) : Bool := n < 16

/-- Does a net port exist (01 R15)? -/
def NetPort.exists_ : NetPort → Bool
  | .eth n => n < 4
  | .cxl n => n < 2

def DarnUnit.exists_ : DarnUnit → Bool
  | .matrixRow c _ | .sramBank c _ | .core c => c < 264

def DoorbellSource.exists_ : DoorbellSource → Bool
  | .cxl v | .deviceLaunch v => isVf v
  | .queueFeed q => isQp q
  | .hostComplex => true

def MemReq.some_ : MemReq → Bool
  | .read n => 0 < n
  | .write bs => !bs.isEmpty
  | .atomic sub len _ _ => sub ≤ 10 && (len == 4 || len == 8)

def SupReg.exists_ : SupReg → Bool
  | .codeWin c n | .amPort c n => isCore c && n < 16
  | .ctxSave c x => isCore c && isContext x
  | .barWinCfg c w => isCore c && w < 4
  | .trapRecord n i w => isSection n && i < 512 && w < 8
  | .istore c w => isCore c && w < 32768
  | .ctxCmd c | .coreSched c | .clusterOwn c | .sramSplit c | .trcCtl c | .trcBase c | .trcSize c | .trcWptr c | .trcRptr c
  | .trcLost c => isCore c
  | .trapqTail n | .trapqHead n | .sectStatus n | .tlbInval n => isSection n

def DevReg.exists_ : DevReg → Bool
  | .partCfg p | .partQtable p => isPartition p
  | .partCores p d => isPartition p && d < 4
  | .frameOwnerBase | .bootMode => true
  | .hostAccess _ r => r.some_
  | .ownData sec _ r => isSection sec && r.some_
  | .supervisorRead r => r.exists_
  | .qpPost q => isQp q
  | .bar0 v _ r => isVf v && r.some_
  | .vfBind v => isVf v
  | .batchWord0 b => b < 1024
  | .peerGrant e => e < 256
  | .queueCfg q d => isQueue q && d < 8
  | .hdmWindow ld w p _ => isLd ld && w < 8 && isPartition p
  | .qpBind q v k => isQp q && isVf v && k < 3
  | .amPort c e => isCore c && e < 16
  | .ctxSave c x => isCore c && isContext x
  | .trcCtl c | .trcBase c | .trcRptr c => isCore c
  | .sectStatus n => isSection n
  | .reserved _ => true

def FwCommand.exists_ : FwCommand → Bool
  | .loadCode _ p c w _ _ _ => isPartition p && isCore c && w < 16
  | .unloadCode _ => true
  | .createSpace a _ | .pageDataReady a _ _ => a < 4096
  | .mapPage a _ l _ | .unmapPage a _ l => a < 4096 && l ≤ 4
  | .configureRing v _ _ => isVf v

/-- An event names things that exist. -/
def eventOk (i : Instr) : Bool :=
  match i with
  | .hbmStackReady n => n < 12
  | .sectionSelfTestPass n => isSection n
  | .portTrained p => p.exists_
  | .wyundPortTrained p _ | .flitCrcRetry p | .wyundPortFail p => p < 18
  | .darnVerdict u _ _ _ => u.exists_
  | .partKeyGenerate p | .partKeyErase p | .partitionReset p | .partitionResetComplete p => isPartition p
  | .vfEnable v _ | .vfDisable v | .functionLevelReset v | .vfResetComplete v => isVf v
  | .ldLinkDown n => isLd n
  | .batchSlotActivate n _ | .batchSlotFree n => n < 1024
  | .cxlMemAccess ld w _ r => isLd ld && w < 8 && r.some_
  | .inboundPeerRequest _ p _ r => isPartition p && r.some_
  | .rdmaInbound q _ r => isQp q && r.some_
  | .queueFeedTail q _ | .activeMessage q _ => isQp q
  | .doorbell src q _ => src.exists_ && isQueue q
  | .queueReplace q | .packetDispatch q => isQueue q
  | .handlerStart c | .pendingTaskStart c | .coreSchedWrite c _ | .claimGrant c | .matrixOpComplete c
  | .ctxCmdInvalid c _ | .sramSplitWrite c _ | .sramSplitDone c | .trcSizeWrite c _ => isCore c
  | .flowBoost c x f | .step c x f | .singleStepComplete c x f | .bwaitDone c x f => isCore c && isContext x && isFlow f
  | .taskCommit c x | .taskAbort c x | .budgetEvent c x | .cycleBudgetExpiry c x | .intervalAgeClose c x
  | .collectiveEnd c x | .launchAppend c x | .uiDelivery c x | .replay c x | .skip c x | .park c x | .restore c x
  | .destroy c x | .faultGrid c x | .requeue c x | .stop c x | .stopReached c x | .flush c x
  | .loadValueReturned c x | .barrierComplete c x _ | .grantNak c x _ | .uncorrectableError c x _
  | .rerunVerdict c x _ => isCore c && isContext x
  | .enginePartLanded c x q | .engineFault c x q => isCore c && isContext x && q < 4
  | .pageWalk n a _ _ | .tlbInval n a _ _ => isSection n && a < 4096
  | .invalDone n | .trapqHeadWrite n _ => isSection n
  | .windowArrival c w p _ => isCore c && w < 4 && isPartition p
  | .uiRaise c x p _ => isCore c && isContext x && isPartition p
  | .codeWinWrite c w _ => isCore c && w < 16
  | .istoreWrite c a bs => isCore c && a + bs.length ≤ 0x40000
  | .barWinCfgWrite c w _ => isCore c && w < 4
  | .registerWrite r _ => r.exists_
  | .serviceEntryDone v _ _ bs => isVf v && bs.length ≤ 64
  | .firmwareInterfaceCommand n _ c => isSection n && c.exists_
  | .ldBinding ld p _ => isLd ld && p < 2
  | .vliwBundle b => fitWords (slotList b.slots).length b.words
  | _ => true

/-- An instruction that is well formed. -/
def WellFormed (i : Instr) : Bool :=
  match info i with
  | some n => n.wellFormed
  | none => eventOk i

end Sys2Proof
end

