-- ==== Sys2Proof/Certificates/Slice0/Obligations.lean ====
section
/-! DEFINITION. Obligations.lean: the statements for the provers, and the terms in which they say what the rules of the
spec give. -/

namespace Sys2Proof.Claims

open Sys2Proof Sys2Proof.Machine

/-! ### Values of the integer types (12 R238, R239; 11 R228) -/

/-- Width of an integer TYPE: i8, n8, i16, n16, i32, n32, i64, n64. -/
def tyBits (ty : BitVec 4) : Nat :=
  match ty.toNat with
  | 0 | 1 => 8
  | 2 | 3 => 16
  | 4 | 5 => 32
  | _ => 64

/-- The i types are signed. -/
def tySigned (ty : BitVec 4) : Bool := !ty.getLsbD 0

/-- The low bits of a register or pair, read as the type. -/
def rd (ty : BitVec 4) (x : Nat) : Int :=
  if tySigned ty then (BitVec.ofNat (tyBits ty) x).toInt else ((BitVec.ofNat (tyBits ty) x).toNat : Int)

/-- An exact result wrapped, or saturated where SAT is 1, and widened to 32 bits by the type. -/
def wr (ty : BitVec 4) (sat : Bool) (v : Int) : Nat :=
  let n := tyBits ty
  let least : Int := if tySigned ty then -(2 ^ (n - 1)) else 0
  let most : Int := if tySigned ty then 2 ^ (n - 1) - 1 else 2 ^ n - 1
  let w : BitVec n := BitVec.ofInt n (if sat then min (max v least) most else v)
  (if tySigned ty then w.signExtend (max n 32) else w.setWidth (max n 32)).toNat

/-- A condition code of `scmp` and `cmp` (13 R261): eq, ne, lt, le, gt, ge. -/
def holds (cc : Nat) (a b : Int) : Bool :=
  match cc with
  | 0 => a == b
  | 1 => a != b
  | 2 => a < b
  | 3 => a ≤ b
  | 4 => b < a
  | _ => b ≤ a

def truth (b : Bool) : Word := if b then 1 else 0

/-! ### Scalar results (14 R266 to R271) -/

/-- The imm6 of form 01, sign-extended, and zero-extended for a shift. -/
def simm (f : OpF) : Word := f.b.signExtend 32
def uimm (f : OpF) : Nat := f.b.toNat

/-- The scalar register, or pair, of a field. -/
def rs (k : Ctx) (r : BitVec 6) : Word := k.readS r.toNat
def rs64 (k : Ctx) (r : BitVec 6) : BitVec 64 := k.readS (r.toNat + 1) ++ k.readS r.toNat

/-- The writes of a word to a scalar register, and of a pair. -/
def sw (r : BitVec 6) (v : Word) : List Write := [⟨.s r.toNat, v⟩]
def sw64 (r : BitVec 6) (v : BitVec 64) : List Write :=
  [⟨.s r.toNat, v.setWidth 32⟩, ⟨.s (r.toNat + 1), (v >>> 32).setWidth 32⟩]

/-- The high half of a 32-bit signed product. -/
def mulhi (a b : Word) : Word := ((a.signExtend 64 * b.signExtend 64) >>> 32).setWidth 32

/-- Lesser and greater of two signed words. -/
def smin (a b : Word) : Word := if a.toInt ≤ b.toInt then a else b
def smax (a b : Word) : Word := if a.toInt ≤ b.toInt then b else a

/-- What a scalar instruction of one word writes, and `sli` and `slih`: 32-bit arithmetic on the registers as they were
read. -/
def scalarWord (k : Ctx) (i : Instr) : Option (List Write) :=
  match i with
  | .sadd f => some (sw f.d (rs k f.a + rs k f.b))
  | .saddImm f => some (sw f.d (rs k f.a + simm f))
  | .ssub f => some (sw f.d (rs k f.a - rs k f.b))
  | .ssubImm f => some (sw f.d (rs k f.a - simm f))
  | .smul f => some (sw f.d (rs k f.a * rs k f.b))
  | .smulImm f => some (sw f.d (rs k f.a * simm f))
  | .smulh f => some (sw f.d (mulhi (rs k f.a) (rs k f.b)))
  | .sand f => some (sw f.d (rs k f.a &&& rs k f.b))
  | .sandImm f => some (sw f.d (rs k f.a &&& simm f))
  | .sor f => some (sw f.d (rs k f.a ||| rs k f.b))
  | .sorImm f => some (sw f.d (rs k f.a ||| simm f))
  | .sxor f => some (sw f.d (rs k f.a ^^^ rs k f.b))
  | .sxorImm f => some (sw f.d (rs k f.a ^^^ simm f))
  | .sshl f => some (sw f.d (rs k f.a <<< (rs k f.b).toNat))
  | .sshlImm f => some (sw f.d (rs k f.a <<< uimm f))
  | .sshr f => some (sw f.d (rs k f.a >>> (rs k f.b).toNat))
  | .sshrImm f => some (sw f.d (rs k f.a >>> uimm f))
  | .ssra f => some (sw f.d ((rs k f.a).sshiftRight (rs k f.b).toNat))
  | .ssraImm f => some (sw f.d ((rs k f.a).sshiftRight (uimm f)))
  | .smin f => some (sw f.d (smin (rs k f.a) (rs k f.b)))
  | .sminImm f => some (sw f.d (smin (rs k f.a) (simm f)))
  | .smax f => some (sw f.d (smax (rs k f.a) (rs k f.b)))
  | .smaxImm f => some (sw f.d (smax (rs k f.a) (simm f)))
  | .scmp f => some (sw f.d (truth (rs k f.a == rs k f.b)))
  | .scmpImm f => some (sw f.d (truth (rs k f.a == simm f)))
  | .ssel f => some (sw f.d (if rs k f.d ≠ 0 then rs k f.a else rs k f.b))
  | .smov f => some (sw f.d (rs k f.a))
  | .sli f imm => some (sw f.d imm)
  | .slih f imm => some [⟨.s (f.d.toNat + 1), imm⟩]
  | .sadda f => some (sw64 f.d (rs64 k f.a + rs64 k f.b))
  | .saddaImm f => some (sw64 f.d (rs64 k f.a + f.b.signExtend 64))
  | _ => none

/-- What a scalar instruction of form 10 with layout X writes, on the values of its TYPE. -/
def scalarTyped (k : Ctx) (i : Instr) : Option (List Write) :=
  let a : OpF → ExtX → Int := fun f x => rd x.ty (rs k f.a).toNat
  let b : OpF → ExtX → Int := fun f x => rd x.ty (rs k f.b).toNat
  let low : OpF → ExtX → Nat := fun f x => (rs k f.a).toNat % 2 ^ tyBits x.ty
  let count : OpF → Nat := fun f => (rs k f.b).toNat
  let out : OpF → ExtX → Int → Option (List Write) := fun f x v => some (sw f.d (BitVec.ofNat 32 (wr x.ty x.sat v)))
  match i with
  | .saddExt f x => out f x (a f x + b f x)
  | .ssubExt f x => out f x (a f x - b f x)
  | .smulExt f x =>
    if x.sub = 0 then out f x (a f x * b f x)
    else if b f x = 0 then none
    else if x.sub = 1 then out f x (Int.tdiv (a f x) (b f x)) else out f x (Int.tmod (a f x) (b f x))
  | .smulhExt f x => out f x (a f x * b f x / 2 ^ tyBits x.ty)
  | .sandExt f x => out f x (rd x.ty (rs k f.a &&& rs k f.b).toNat)
  | .sorExt f x => out f x (rd x.ty (rs k f.a ||| rs k f.b).toNat)
  | .sxorExt f x => out f x (rd x.ty (rs k f.a ^^^ rs k f.b).toNat)
  | .sshlExt f x => out f x (if count f < tyBits x.ty then (low f x * 2 ^ count f : Nat) else 0)
  | .sshrExt f x => out f x (if count f < tyBits x.ty then (low f x / 2 ^ count f : Nat) else 0)
  | .ssraExt f x => out f x ((BitVec.ofNat (tyBits x.ty) (low f x)).sshiftRight (count f)).toInt
  | .sminExt f x => out f x (min (a f x) (b f x))
  | .smaxExt f x => out f x (max (a f x) (b f x))
  | .scmpExt f x => some (sw f.d (truth (holds x.sub.toNat (a f x) (b f x))))
  | .sselExt f x => some (sw f.d (if k.readS x.c.toNat ≠ 0 then rs k f.a else rs k f.b))
  | .smovExt f x => some (if tyBits x.ty = 64 then sw64 f.d (rs64 k f.a) else sw f.d (rs k f.a))
  | .saddaExt f x => some (sw64 f.d (rs64 k f.a +
      (if tyBits x.ty = 64 then rs64 k f.b else if tySigned x.ty then (rs k f.b).signExtend 64 else (rs k f.b).setWidth 64)))
  | _ => none

end Sys2Proof.Claims

open Sys2Proof Sys2Proof.Machine Sys2Proof.Claims

/-- 14 R266, R267, R269, R270, R271: every one-word scalar instruction, `sli` and `slih`, when it may issue in SIMT or VLIW
mode, completes with latency 1 and writes the 32-bit result the rules give; nothing beside its context changes. -/
def Obligations.ScalarWordResults : Prop :=
  ∀ (s : State) (i : Instr) (n : Info) (ws : List Write), WellFormed i = true → info i = some n → scalarWord (s.opEnv n).k i = some ws →
    Ready s n → s.undoRoom n → IssueWrites s (exec i s) 1 ws

/-- 14 R266 to R271: the scalar instructions of form 10 on the values of their TYPE, with SAT, quotient and remainder. -/
def Obligations.ScalarTypedResults : Prop :=
  ∀ (s : State) (i : Instr) (n : Info) (ws : List Write), WellFormed i = true → info i = some n → scalarTyped (s.opEnv n).k i = some ws →
    Ready s n → s.undoRoom n → IssueWrites s (exec i s) 1 ws

namespace Sys2Proof.Claims

/-! ### Lane results (15 R289 to R303) -/

/-- A lane register, or in form 11 the port that a field above 0x3B names (11 R229). -/
def lv (k : Ctx) (port : Bool) (r : BitVec 6) (l : Nat) : Word :=
  if port && 0x3C ≤ r.toNat then k.readPort (r.toNat - 0x3C) l else k.readV r.toNat l

/-- A lane's register or pair as a number of the TYPE's registers. -/
def lw (k : Ctx) (ty : BitVec 4) (r : BitVec 6) (l : Nat) : Nat :=
  if tyBits ty = 64 then (k.readV (r.toNat + 1) l ++ k.readV r.toNat l).toNat else (k.readV r.toNat l).toNat

/-- Set bits of a word. -/
def ones (a : Word) : Nat := ((List.range 32).filter (fun n => a.getLsbD n)).length

/-- The bit field of a word that `bfe` and `bfi` name: position and length (15 R296). -/
def fieldOf (b : Word) : Nat × Nat :=
  let p := min (b.setWidth 8).toNat 32
  (p, min ((b >>> 8).setWidth 8).toNat (32 - p))

def lowMask (n : Nat) : Word := (1#32 <<< n) - 1

/-- The sum of four products of signed bytes (15 R292). -/
def dotBytes (a b : Word) : Word :=
  let p : Nat → Word := fun i => ((a >>> (8 * i)).setWidth 8).signExtend 32 * ((b >>> (8 * i)).setWidth 8).signExtend 32
  p 0 + p 1 + p 2 + p 3

/-- The operations on 32-bit words of the one-word lane instructions, on two sources and the old destination. -/
inductive WordOp where
  | add | sub | mul | mulh | mad | and | or | xor | not | abs | neg | clz | popc | brev | shl | shr | sra | rot | min | max
  | bfe | bfi | sel | mov | dp4

def WordOp.value (o : WordOp) (a b c : Word) : Word :=
  match o with
  | .add => a + b
  | .sub => a - b
  | .mul => a * b
  | .mulh => mulhi a b
  | .mad => a * b + c
  | .and => a &&& b
  | .or => a ||| b
  | .xor => a ^^^ b
  | .not => ~~~a
  | .abs => if a.toInt < 0 then -a else a
  | .neg => -a
  | .clz => BitVec.ofNat 32 (if a = 0 then 32 else 31 - Nat.log2 a.toNat)
  | .popc => BitVec.ofNat 32 (ones a)
  | .brev => a.reverse
  | .shl => a <<< b.toNat
  | .shr => a >>> b.toNat
  | .sra => a.sshiftRight b.toNat
  | .rot => a.rotateLeft b.toNat
  | .min => smin a b
  | .max => smax a b
  | .bfe => (a >>> (fieldOf b).1) &&& lowMask (fieldOf b).2
  | .bfi =>
    let m := lowMask (fieldOf b).2
    (c &&& ~~~(m <<< (fieldOf b).1)) ||| ((a &&& m) <<< (fieldOf b).1)
  | .sel => if c ≠ 0 then a else b
  | .mov => a
  | .dp4 => dotBytes a b + c

/-- How the second source of a one-word lane instruction is given. -/
inductive SrcB where
  | reg | imm | count | port

/-- The one-word lane instructions on 32-bit integers: the fields, the operation and the second source. -/
def laneWordOp (i : Instr) : Option (OpF × WordOp × SrcB) :=
  match i with
  | .add f => some (f, .add, .reg)
  | .addImm f => some (f, .add, .imm)
  | .addPort f => some (f, .add, .port)
  | .sub f => some (f, .sub, .reg)
  | .subImm f => some (f, .sub, .imm)
  | .subPort f => some (f, .sub, .port)
  | .mul f => some (f, .mul, .reg)
  | .mulImm f => some (f, .mul, .imm)
  | .mulPort f => some (f, .mul, .port)
  | .mulh f => some (f, .mulh, .reg)
  | .mulhPort f => some (f, .mulh, .port)
  | .mad f => some (f, .mad, .reg)
  | .madPort f => some (f, .mad, .port)
  | .and f => some (f, .and, .reg)
  | .andImm f => some (f, .and, .imm)
  | .andPort f => some (f, .and, .port)
  | .or f => some (f, .or, .reg)
  | .orImm f => some (f, .or, .imm)
  | .orPort f => some (f, .or, .port)
  | .xor f => some (f, .xor, .reg)
  | .xorImm f => some (f, .xor, .imm)
  | .xorPort f => some (f, .xor, .port)
  | .not f => some (f, .not, .reg)
  | .notPort f => some (f, .not, .port)
  | .abs f => some (f, .abs, .reg)
  | .absPort f => some (f, .abs, .port)
  | .neg f => some (f, .neg, .reg)
  | .negPort f => some (f, .neg, .port)
  | .clz f => some (f, .clz, .reg)
  | .clzPort f => some (f, .clz, .port)
  | .popc f => some (f, .popc, .reg)
  | .popcPort f => some (f, .popc, .port)
  | .brev f => some (f, .brev, .reg)
  | .brevPort f => some (f, .brev, .port)
  | .shl f => some (f, .shl, .reg)
  | .shlImm f => some (f, .shl, .count)
  | .shlPort f => some (f, .shl, .port)
  | .shr f => some (f, .shr, .reg)
  | .shrImm f => some (f, .shr, .count)
  | .shrPort f => some (f, .shr, .port)
  | .sra f => some (f, .sra, .reg)
  | .sraImm f => some (f, .sra, .count)
  | .sraPort f => some (f, .sra, .port)
  | .rot f => some (f, .rot, .reg)
  | .rotImm f => some (f, .rot, .count)
  | .rotPort f => some (f, .rot, .port)
  | .min f => some (f, .min, .reg)
  | .minImm f => some (f, .min, .imm)
  | .minPort f => some (f, .min, .port)
  | .max f => some (f, .max, .reg)
  | .maxImm f => some (f, .max, .imm)
  | .maxPort f => some (f, .max, .port)
  | .bfe f => some (f, .bfe, .reg)
  | .bfePort f => some (f, .bfe, .port)
  | .bfi f => some (f, .bfi, .reg)
  | .bfiPort f => some (f, .bfi, .port)
  | .sel f => some (f, .sel, .reg)
  | .selPort f => some (f, .sel, .port)
  | .mov f => some (f, .mov, .reg)
  | .movPort f => some (f, .mov, .port)
  | .dp4 f => some (f, .dp4, .reg)
  | .dp4Port f => some (f, .dp4, .port)
  | _ => none

/-- The value of one lane. -/
def WordOp.lane (o : WordOp) (k : Ctx) (f : OpF) (b : SrcB) (l : Nat) : Word :=
  let port := match b with
    | .port => true
    | _ => false
  let src := match b with
    | .imm => simm f
    | .count => BitVec.ofNat 32 (uimm f)
    | _ => lv k port f.b l
  o.value (lv k port f.a l) src (k.readV f.d.toNat l)

/-- The unit of a lane instruction: its port and latency (09 R185). -/
def aluUnit : Nat × Nat := (0, 2)
def mulUnit : Nat × Nat := (1, 4)
def sfuUnit : Nat × Nat := (2, 6)
def specialUnit : Nat × Nat := (2, 8)

def WordOp.unit (o : WordOp) : Nat × Nat :=
  match o with
  | .mul | .mulh | .mad | .dp4 => mulUnit
  | _ => aluUnit

/-- What a lane instruction writes (09 R187; 15 R290): the registers of its active lanes, unless bit 31 of a VLIW op sends
the result to the port alone; in VLIW mode the port of its unit for the sixteen elements of its cluster, 0 for inactive
ones. -/
def laneWs (e : Env) (port : Nat) (regs : Nat → List Write) (val : Nat → Word) : List Write :=
  (if !e.simt && e.o.s then [] else e.lanes.flatMap regs)
    ++ (if e.simt then [] else (List.range 16).map (fun i =>
        ⟨.port port (16 * e.slot + i), if e.lanes.contains (16 * e.slot + i) then val (16 * e.slot + i) else 0⟩))

/-- A number in one lane register, or in a pair where the TYPE is a 64-bit one. -/
def lnum (ty : BitVec 4) (r : BitVec 6) (l x : Nat) : List Write :=
  if tyBits ty = 64 then [⟨.v r.toNat l, BitVec.ofNat 32 x⟩, ⟨.v (r.toNat + 1) l, BitVec.ofNat 32 (x / 2 ^ 32)⟩]
  else [⟨.v r.toNat l, BitVec.ofNat 32 x⟩]

/-- The value of a lane of form 10 with layout X on integers of the TYPE, as the bits of its register or pair (15 R292 to
R298); none for the quotient or remainder by zero. -/
def laneTyped (k : Ctx) (i : Instr) (l : Nat) : Option (OpF × ExtX × Nat) :=
  let a : OpF → ExtX → Int := fun f x => rd x.ty (lw k x.ty f.a l)
  let b : OpF → ExtX → Int := fun f x => rd x.ty (lw k x.ty f.b l)
  let low : OpF → ExtX → BitVec 64 := fun f x => BitVec.ofNat 64 (lw k x.ty f.a l % 2 ^ tyBits x.ty)
  let count : OpF → Nat := fun f => (k.readV f.b.toNat l).toNat
  let out : OpF → ExtX → Int → Option (OpF × ExtX × Nat) := fun f x v => some (f, x, wr x.ty x.sat v)
  let old : ExtX → Word := fun x => k.readV x.c.toNat l
  match i with
  | .addExt f x => out f x (a f x + b f x)
  | .subExt f x => out f x (a f x - b f x)
  | .mulExt f x =>
    if x.sub = 0 then out f x (a f x * b f x)
    else if b f x = 0 then none
    else if x.sub = 1 then out f x (Int.tdiv (a f x) (b f x)) else out f x (Int.tmod (a f x) (b f x))
  | .mulhExt f x => out f x (a f x * b f x / 2 ^ tyBits x.ty)
  | .madExt f x => out f x (a f x * b f x + rd x.ty (old x).toNat)
  | .andExt f x => out f x (rd x.ty (lw k x.ty f.a l &&& lw k x.ty f.b l))
  | .orExt f x => out f x (rd x.ty (lw k x.ty f.a l ||| lw k x.ty f.b l))
  | .xorExt f x => out f x (rd x.ty (lw k x.ty f.a l ^^^ lw k x.ty f.b l))
  | .notExt f x => out f x (rd x.ty (~~~(low f x)).toNat)
  | .absExt f x => out f x (if a f x < 0 then -(a f x) else a f x)
  | .negExt f x => out f x (-(a f x))
  | .clzExt f x => out f x (if low f x = 0 then tyBits x.ty else tyBits x.ty - 1 - Nat.log2 (low f x).toNat : Nat)
  | .popcExt f x => out f x (((List.range 64).filter (fun n => (low f x).getLsbD n)).length : Nat)
  | .brevExt f x => out f x (rd x.ty ((low f x).reverse >>> (64 - tyBits x.ty)).toNat)
  | .shlExt f x => out f x (rd x.ty (low f x <<< count f).toNat)
  | .shrExt f x => out f x (rd x.ty (low f x >>> count f).toNat)
  | .sraExt f x => out f x ((BitVec.ofNat (tyBits x.ty) (low f x).toNat).sshiftRight (count f)).toInt
  | .rotExt f x => out f x (rd x.ty ((BitVec.ofNat (tyBits x.ty) (low f x).toNat).rotateLeft (count f)).toNat)
  | .minExt f x => out f x (min (a f x) (b f x))
  | .maxExt f x => out f x (max (a f x) (b f x))
  | .bfeExt f x =>
    let p := fieldOf (k.readV f.b.toNat l)
    let w := (k.readV f.a.toNat l >>> p.1) &&& lowMask p.2
    some (f, x, (if x.ty = 4 then (BitVec.ofNat p.2 w.toNat).signExtend 32 else w).toNat)
  | .bfiExt f x =>
    some (f, x, (WordOp.bfi.value (k.readV f.a.toNat l) (k.readV f.b.toNat l) (old x)).toNat)
  | .selExt f x => out f { x with sat := false } (if k.readP x.c.toNat l then a f x else b f x)
  | .movExt f x => out f { x with sat := false } (a f x)
  | .dp4Ext f x =>
    let va := (k.readV f.a.toNat l).toNat
    let vb := (k.readV f.b.toNat l).toNat
    let p : Nat → Int := fun i => rd x.ty (va / 256 ^ i) * rd x.ty (vb / 256 ^ i)
    let t : BitVec 4 := if tySigned x.ty then 4 else 5
    some (f, { x with ty := t }, wr t x.sat (p 0 + p 1 + p 2 + p 3 + rd t (old x).toNat))
  | _ => none

/-- The unit of an instruction of form 10 on integers. -/
def typedUnit (i : Instr) : Nat × Nat :=
  match i with
  | .mulExt _ _ | .mulhExt _ _ | .madExt _ _ | .dp4Ext _ _ => mulUnit
  | _ => aluUnit

/-- The comparison a lane makes: `cmp` of integers and `fcmp` of floats (15 R297, R300). -/
def laneCompare (k : Ctx) (i : Instr) (l : Nat) : Option (OpF × Bool) :=
  match i with
  | .cmp f => some (f, lv k false f.a l == lv k false f.b l)
  | .cmpImm f => some (f, lv k false f.a l == simm f)
  | .cmpPort f => some (f, lv k true f.a l == lv k true f.b l)
  | .cmpExt f x => some (f, holds x.sub.toNat (rd x.ty (lw k x.ty f.a l)) (rd x.ty (lw k x.ty f.b l)))
  | .fcmp f => some (f, fcmpHolds f32 0 (lv k false f.a l).toNat (lv k false f.b l).toNat)
  | .fcmpPort f => some (f, fcmpHolds f32 0 (lv k true f.a l).toNat (lv k true f.b l).toNat)
  | .fcmpExt f x => some (f, fcmpHolds (floatFmt x.ty.toNat) x.sub.toNat (lv k false f.a l).toNat (lv k false f.b l).toNat)
  | _ => none

/-! ### Float results (15 R299 to R303; 12 R243 to R245, R256) -/

/-- The float operations: format, rounding mode, SAT, and the two sources and the third as bits. -/
inductive FloatOp where
  | add | sub | mul | fma | min | max | rnd
  | special (sel : Nat)

def FloatOp.bits (o : FloatOp) (t : FloatFmt) (mode : Nat) (sat : Bool) (a b c : Nat) : Nat :=
  let out : FVal → Nat := fun v => satFloat t sat (t.rnd mode v)
  match o with
  | .add => out (exactSum mode [t.val a, t.val b])
  | .sub => out (exactSum mode [t.val a, (t.val b).neg])
  | .mul => out (mulExact (t.val a) (t.val b))
  | .fma => out (exactSum mode [mulExact (t.val a) (t.val b), t.val c])
  | .min => fminmax t false (a % 2 ^ t.width) (b % 2 ^ t.width)
  | .max => fminmax t true (a % 2 ^ t.width) (b % 2 ^ t.width)
  | .rnd => frndBits t mode (a % 2 ^ t.width)
  | .special n => satFloat t sat (specialFn n t mode (a % 2 ^ t.width))

/-- The float instructions: fields, operation, the extended word, and whether the form is 11. -/
def laneFloatOp (i : Instr) : Option (OpF × FloatOp × Option ExtX × Bool) :=
  match i with
  | .fadd f => some (f, .add, none, false)
  | .faddExt f x => some (f, .add, some x, false)
  | .faddPort f => some (f, .add, none, true)
  | .fsub f => some (f, .sub, none, false)
  | .fsubExt f x => some (f, .sub, some x, false)
  | .fsubPort f => some (f, .sub, none, true)
  | .fmul f => some (f, .mul, none, false)
  | .fmulExt f x => some (f, .mul, some x, false)
  | .fmulPort f => some (f, .mul, none, true)
  | .fma f => some (f, .fma, none, false)
  | .fmaExt f x => some (f, .fma, some x, false)
  | .fmaPort f => some (f, .fma, none, true)
  | .fmin f => some (f, .min, none, false)
  | .fminExt f x => some (f, .min, some x, false)
  | .fminPort f => some (f, .min, none, true)
  | .fmax f => some (f, .max, none, false)
  | .fmaxExt f x => some (f, .max, some x, false)
  | .fmaxPort f => some (f, .max, none, true)
  | .frnd f => some (f, .rnd, none, false)
  | .frndExt f x => some (f, .rnd, some x, false)
  | .frndPort f => some (f, .rnd, none, true)
  | .rcp f => some (f, .special 0, none, false)
  | .rcpExt f x => some (f, .special 0, some x, false)
  | .rcpPort f => some (f, .special 0, none, true)
  | .rsq f => some (f, .special 1, none, false)
  | .rsqExt f x => some (f, .special 1, some x, false)
  | .rsqPort f => some (f, .special 1, none, true)
  | .sqrt f => some (f, .special 2, none, false)
  | .sqrtExt f x => some (f, .special 2, some x, false)
  | .sqrtPort f => some (f, .special 2, none, true)
  | .exp2 f => some (f, .special 3, none, false)
  | .exp2Ext f x => some (f, .special 3, some x, false)
  | .exp2Port f => some (f, .special 3, none, true)
  | .log2 f => some (f, .special 4, none, false)
  | .log2Ext f x => some (f, .special 4, some x, false)
  | .log2Port f => some (f, .special 4, none, true)
  | .sin f => some (f, .special 5, none, false)
  | .sinExt f x => some (f, .special 5, some x, false)
  | .sinPort f => some (f, .special 5, none, true)
  | .cos f => some (f, .special 6, none, false)
  | .cosExt f x => some (f, .special 6, some x, false)
  | .cosPort f => some (f, .special 6, none, true)
  | .tanh f => some (f, .special 7, none, false)
  | .tanhExt f x => some (f, .special 7, some x, false)
  | .tanhPort f => some (f, .special 7, none, true)
  | _ => none

def FloatOp.unit (o : FloatOp) : Nat × Nat :=
  match o with
  | .add | .sub | .mul | .fma => mulUnit
  | .special _ => specialUnit
  | _ => aluUnit

/-- The value of one lane: f32 rounded to nearest in the one-word forms; the third source is C in form 10, else the old
destination. -/
def FloatOp.lane (o : FloatOp) (k : Ctx) (f : OpF) (x : Option ExtX) (port : Bool) (l : Nat) : Word :=
  let t := match x with
    | some x => floatFmt x.ty.toNat
    | none => f32
  let c := match x with
    | some x => k.readV x.c.toNat l
    | none => k.readV f.d.toNat l
  let mode := match x with
    | some x => x.rnd.toNat
    | none => 0
  let sat := match x with
    | some x => x.sat
    | none => false
  BitVec.ofNat 32 (o.bits t mode sat (lv k port f.a l).toNat (lv k port f.b l).toNat c.toNat)

end Sys2Proof.Claims

/-- 15 R292, R294 to R296, R298: every one-word lane instruction on 32-bit integers (forms 00, 01 and 11), when it may
issue, completes with its unit's latency and gives each active lane the 32-bit result of the rules. -/
def Obligations.LaneWordResults : Prop :=
  ∀ (s : State) (i : Instr) (n : Info) (f : OpF) (o : WordOp) (b : SrcB), WellFormed i = true → info i = some n →
    laneWordOp i = some (f, o, b) → Ready s n → s.undoRoom n →
    let e := s.opEnv n
    IssueWrites s (exec i s) o.unit.2
      (laneWs e o.unit.1 (fun l => [⟨.v f.d.toNat l, o.lane e.k f b l⟩]) (o.lane e.k f b))

/-- 15 R292 to R298: the lane instructions of form 10 on the values of their TYPE; where each active lane has a result
(a quotient or remainder by zero has none), the instruction completes and writes it, a 64-bit one to a pair. -/
def Obligations.LaneTypedResults : Prop :=
  ∀ (s : State) (i : Instr) (n : Info) (f : OpF) (x : ExtX) (v : Nat → Nat), WellFormed i = true → info i = some n →
    (∀ l ∈ (s.opEnv n).lanes, laneTyped (s.opEnv n).k i l = some (f, x, v l)) → (s.opEnv n).lanes ≠ [] →
    Ready s n → s.undoRoom n →
    let e := s.opEnv n
    IssueWrites s (exec i s) (typedUnit i).2
      (laneWs e (typedUnit i).1 (fun l => lnum x.ty f.d l (v l)) (fun l => BitVec.ofNat 32 (v l)))

/-- 15 R297, R300: `cmp` and `fcmp` complete and write each active lane's predicate D; a write to p0 is discarded (09
R183) by the delivery. -/
def Obligations.LaneComparisons : Prop :=
  ∀ (s : State) (i : Instr) (n : Info) (f : OpF) (v : Nat → Bool), WellFormed i = true → info i = some n →
    (∀ l ∈ (s.opEnv n).lanes, laneCompare (s.opEnv n).k i l = some (f, v l)) → (s.opEnv n).lanes ≠ [] →
    Ready s n → s.undoRoom n →
    let e := s.opEnv n
    IssueWrites s (exec i s) 2 (laneWs e 0 (fun l => [⟨.p f.d.toNat l, truth (v l)⟩]) (fun l => truth (v l)))

/-- 15 R299 to R301, R303 with 12 R243 to R245, and R302 with 12 R246 for `cvt`; `movi`: the float instructions complete and give
each active lane the value that the helper functions of 12 R256 give; `cvt` converts between its two types, and `movi` writes
its immediate. How `cvt` of equal float types with SAT treats a value is log 36's reading (DEDUCED), and what the special functions
`exp2` to `tanh` give is log 8's (UNVERIFIED). -/
def Obligations.LaneFloatResults : Prop :=
  (∀ (s : State) (i : Instr) (n : Info) (f : OpF) (o : FloatOp) (x : Option ExtX) (port : Bool), WellFormed i = true → info i = some n →
    laneFloatOp i = some (f, o, x, port) → Ready s n → s.undoRoom n →
    let e := s.opEnv n
    IssueWrites s (exec i s) o.unit.2
      (laneWs e o.unit.1 (fun l => [⟨.v f.d.toNat l, o.lane e.k f x port l⟩]) (o.lane e.k f x port)))
  ∧ (∀ (s : State) (f : OpF) (x : ExtX) (n : Info), info (.cvt f x) = some n → Ready s n → s.undoRoom n →
    let e := s.opEnv n
    let v := fun l => cvtBits x.ty.toNat x.ty2.toNat x.rnd.toNat x.sat (lw e.k x.ty2 f.a l)
    IssueWrites s (exec (.cvt f x) s) 2 (laneWs e 0 (fun l => lnum x.ty f.d l (v l)) (fun l => BitVec.ofNat 32 (v l))))
  ∧ (∀ (s : State) (f : OpF) (imm : Word) (n : Info), info (.movi f imm) = some n → Ready s n → s.undoRoom n →
    IssueWrites s (exec (.movi f imm) s) 2 (laneWs (s.opEnv n) 0 (fun l => [⟨.v f.d.toNat l, imm⟩]) (fun _ => imm)))

namespace Sys2Proof.Claims

/-! ### Cross-lane instructions (15 R289, R304 to R312) -/

/-- The span of an instruction: a group in SIMT mode, the elements of the op's cluster in VLIW mode. -/
def spanBase (e : Env) : Nat := if e.simt then 32 * e.group else 16 * e.slot
def spanLen (e : Env) : Nat := if e.simt && e.k.mode != .half then 32 else 16

/-- The lane of the span with a number, where it is a live source. -/
def liveLane (e : Env) (j : Nat) : Option Nat :=
  if j < spanLen e && e.lanes.contains (spanBase e + j) then some (spanBase e + j) else none

/-- The lane of the team with a number, where it is a live source of a `perm` in SIMT mode: its mask bit in the flow and
the guard. -/
def liveTeamLane (e : Env) (f : OpF) (i : Nat) : Option Nat :=
  let mask := maskOf (e.k.flow e.flow).masks (i / 32)
  if i < e.k.laneCount && mask.getLsbD (i % 32) && (e.k.readP f.g.toNat i != f.n) then some i else none

/-- The source lane that `shfl` names by its mode: idx, up, down, xor. -/
def shflLane (e : Env) (sub b l : Nat) : Option Nat :=
  let n := l - spanBase e
  match sub with
  | 0 => liveLane e b
  | 1 => if b ≤ n then liveLane e (n - b) else none
  | 2 => liveLane e (n + b)
  | _ => liveLane e (n ^^^ b)

/-- The fields, the extended word, the form and the source lane of `perm`, `shfl` and `bcast` for a lane. -/
def gatherOf (e : Env) (i : Instr) (l : Nat) : Option (OpF × Option ExtX × Bool × Option Nat) :=
  let b : Bool → OpF → Nat → Nat := fun port f l => (lv e.k port f.b l).toNat
  let permLane : OpF → Nat → Option Nat := fun f i => if e.simt then liveTeamLane e f i else liveLane e i
  let low := e.lanes.headD 0
  match i with
  | .perm f => some (f, none, false, permLane f (b false f l))
  | .permExt f x => some (f, some x, false, permLane f (b false f l))
  | .permPort f => some (f, none, true, permLane f (b true f l))
  | .shfl f => some (f, none, false, shflLane e 0 (b false f l) l)
  | .shflImm f => some (f, none, false, shflLane e 0 f.b.toNat l)
  | .shflExt f x => some (f, some x, false, shflLane e x.sub.toNat (b false f l) l)
  | .shflPort f => some (f, none, true, shflLane e 0 (b true f l) l)
  | .bcast f => some (f, none, false, liveLane e (b false f low))
  | .bcastImm f => some (f, none, false, liveLane e f.b.toNat)
  | .bcastExt f x => some (f, some x, false, liveLane e (b false f low))
  | .bcastPort f => some (f, none, true, liveLane e (b true f low))
  | _ => none

/-- The TYPE of a cross-lane gather: n32 in the one-word forms. -/
def gatherType (x : Option ExtX) : BitVec 4 :=
  match x with
  | some x => x.ty
  | none => 5

/-- What a lane receives: the source's value, else its fill, which is v[C] in form 10 and the old destination otherwise. -/
def gathered (e : Env) (f : OpF) (x : Option ExtX) (port : Bool) (src : Option Nat) (l : Nat) : Nat :=
  let fill := match x with
    | some x => x.c
    | none => f.d
  match src with
  | some j => if port then (lv e.k true f.a j).toNat else lw e.k (gatherType x) f.a j
  | none => lw e.k (gatherType x) fill l

/-- The combination of values by `scan` and `red` (15 R309): add, min, max, and, or, xor. -/
def combined (ty : BitVec 4) (sub mode : Nat) (sat : Bool) (vals : List Nat) : Nat :=
  if ty = 8 then
    match sub with
    | 0 => f32.rnd mode (exactSum mode (vals.map f32.val))
    | n => match vals with
      | [] => 0
      | v :: r => r.foldl (fminmax f32 (n == 2)) (fminmax f32 (n == 2) v v)
  else
    match vals.map (rd ty) with
    | [] => 0
    | v :: r =>
      let bits : (BitVec 32 → BitVec 32 → BitVec 32) → Nat := fun g =>
        wr ty false (rd ty (((r.map (BitVec.ofInt 32)).foldl g (BitVec.ofInt 32 v)).toNat))
      match sub with
      | 0 => wr ty sat (v + r.sum)
      | 1 => wr ty false (r.foldl min v)
      | 2 => wr ty false (r.foldl max v)
      | 3 => bits (· &&& ·)
      | 4 => bits (· ||| ·)
      | _ => bits (· ^^^ ·)

/-- `scan` and `red`: fields, form, TYPE, SUB, RND, SAT, and whether a lane takes only the lanes up to it. -/
def reduceOf (i : Instr) : Option (OpF × Bool × BitVec 4 × Nat × Nat × Bool × Bool) :=
  match i with
  | .scan f => some (f, false, 4, 0, 0, false, true)
  | .scanExt f x => some (f, false, x.ty, x.sub.toNat, x.rnd.toNat, x.sat, true)
  | .scanPort f => some (f, true, 4, 0, 0, false, true)
  | .red f => some (f, false, 4, 0, 0, false, false)
  | .redExt f x => some (f, false, x.ty, x.sub.toNat, x.rnd.toNat, x.sat, false)
  | .redPort f => some (f, true, 4, 0, 0, false, false)
  | _ => none

/-- `vote` (15 R308): fields, SUB, and the bit of a lane. -/
def voteOf (e : Env) (i : Instr) : Option (OpF × Nat × (Nat → Bool)) :=
  match i with
  | .vote f => some (f, 0, fun l => e.k.readP f.a.toNat l)
  | .voteExt f x => some (f, x.sub.toNat, fun l => e.k.readP f.a.toNat l)
  | .votePort f => some (f, 0, fun l => lv e.k true f.a l != 0)
  | _ => none

/-- The ballot of the active lanes: bit j for lane number j of the span. -/
def ballot (e : Env) (v : Nat → Bool) : Word :=
  ((e.lanes.filter v).map (fun l => 1#32 <<< (l - spanBase e))).foldl (· ||| ·) 0

/-! ### Special registers (11 R232; 14 R272) -/

/-- The uniform special registers that `sgets` reads into a scalar register, CYCLE apart. -/
def specialWord (s : State) (e : Env) (n : Nat) : Option Word :=
  let k := e.k
  match n with
  | 0x02 => some (BitVec.ofNat 32 (s.teamId k))
  | 0x03 => some (BitVec.ofNat 32 s.cur.core)
  | 0x04 => some (BitVec.ofNat 32 s.cur.ctx)
  | 0x05 => some (if k.mode = .simt then BitVec.ofNat 32 k.groups else 1)
  | 0x06 => some (if k.mode = .vliw then BitVec.ofNat 32 k.clusters else 0)
  | 0x07 => some (BitVec.ofNat 32 k.nregs)
  | 0x08 => some (BitVec.ofNat 32 k.spadLen)
  | 0x09 => some (BitVec.ofNat 32 (k.mapIdx % s.patchTeams k))
  | 0x0A => some (BitVec.ofNat 32 (s.ageOf k / 2 ^ 32))
  | 0x0B => some (BitVec.ofNat 32 (s.ageOf k))
  | 0x0C | 0x0D | 0x0E | 0x0F => some (BitVec.ofNat 32 (s.boxEnd k (n - 0x0C) false))
  | 0x10 | 0x11 | 0x12 | 0x13 => some (BitVec.ofNat 32 (s.boxEnd k (n - 0x10) true))
  | 0x14 => some (BitVec.ofNat 16 (min k.aborts 0xFFFF) ++ (if k.idem then 1#8 else 0#8) ++ BitVec.ofNat 8 k.cause)
  | 0x16 => some k.cycleHi
  | 0x17 => some k.privHi
  | 0x18 => some k.privLo
  | 0x19 => some k.privSz
  | 0x1A => some k.tileHi
  | 0x1B => some k.tileLo
  | 0x1C => some k.uivec
  | 0x1D => some (k.uipend.setWidth 32)
  | 0x1E => some (k.uimask.setWidth 32)
  | 0x1F => some k.uipc
  | 0x20 => some k.uisrc
  | _ => none

/-- Every active lane of every group of the flow, or every element of every owned cluster. -/
def allLanes (e : Env) : List Nat :=
  if e.simt then (e.k.flow e.flow).masks.flatMap (fun p =>
    ((List.range 32).filter (fun l => p.2.getLsbD l)).map (fun l => 32 * p.1 + l))
  else List.range (16 * e.k.clusters)

/-- A context after `ssets` wrote one of its settings in a core cycle; what UI_RAISE has set of UIPEND in that cycle stays
set (11 R232). -/
def withSetting (k : Ctx) (cycle n : Nat) (v : Word) : Option Ctx :=
  match n with
  | 0x17 => some { k with privHi := v }
  | 0x18 => some { k with privLo := v &&& 0xFFFFFFF8 }
  | 0x19 => some { k with privSz := if 0x100000 < (v &&& 0xFFFFFFF8).toNat then 0x100000 else v &&& 0xFFFFFFF8 }
  | 0x1A => some { k with tileHi := v }
  | 0x1B => some { k with tileLo := v &&& 0xFFFFF000 }
  | 0x1C => some { k with uivec := v }
  | 0x1D => some { k with uipend := v.setWidth 16 ||| (if k.raisedAt = cycle then k.raised else 0) }
  | 0x1E => some { k with uimask := v.setWidth 16 }
  | 0x1F => some { k with uipc := v }
  | _ => none

end Sys2Proof.Claims

/-- 15 R304 to R307: `perm`, `shfl` and `bcast`, in every form, complete with latency 6 and give each active lane the value
of its source lane where that lane is a live source, else its fill. -/
def Obligations.LaneGathers : Prop :=
  ∀ (s : State) (i : Instr) (n : Info) (f : OpF) (x : Option ExtX) (port : Bool) (src : Nat → Option Nat), WellFormed i = true → info i = some n →
    (∀ l, gatherOf (s.opEnv n) i l = some (f, x, port, src l)) → Ready s n → s.undoRoom n →
    let e := s.opEnv n
    let v := fun l => gathered e f x port (src l) l
    IssueWrites s (exec i s) 6 (laneWs e 2 (fun l => lnum (gatherType x) f.d l (v l)) (fun l => BitVec.ofNat 32 (v l)))

/-- 15 R308, R309, R312 with 12 R253: `vote`, `scan` and `red` complete with latency 6, `xmov` with latency 3 and no port: a ballot or
predicate of the active lanes' bits, the combination of the active lanes up to each lane, of all of them, and the copy of
a lane of another half of the group or of another cluster. -/
def Obligations.LaneReductions : Prop :=
  (∀ (s : State) (i : Instr) (n : Info) (f : OpF) (sub : Nat) (v : Nat → Bool), WellFormed i = true → info i = some n →
    voteOf (s.opEnv n) i = some (f, sub, v) → Ready s n → s.undoRoom n →
    let e := s.opEnv n
    let all := e.lanes.all v
    let p := if sub = 1 then e.lanes.any v else if sub = 2 then all else all || e.lanes.all (fun l => !v l)
    IssueWrites s (exec i s) 6
      (if sub = 0 then laneWs e 2 (fun l => [⟨.v f.d.toNat l, ballot e v⟩]) (fun _ => ballot e v)
       else laneWs e 2 (fun l => [⟨.p f.d.toNat l, truth p⟩]) (fun _ => truth p)))
  ∧ (∀ (s : State) (i : Instr) (n : Info) (f : OpF) (port : Bool) (ty : BitVec 4) (sub mode : Nat) (sat scans : Bool),
    WellFormed i = true → info i = some n → reduceOf i = some (f, port, ty, sub, mode, sat, scans) → Ready s n → s.undoRoom n →
    let e := s.opEnv n
    let v := fun l => combined ty sub mode sat
      ((e.lanes.filter (fun j => !scans || j ≤ l)).map (fun j => (lv e.k port f.a j).toNat))
    IssueWrites s (exec i s) 6 (laneWs e 2 (fun l => [⟨.v f.d.toNat l, BitVec.ofNat 32 (v l)⟩]) (fun l => BitVec.ofNat 32 (v l))))
  ∧ (∀ (s : State) (f : OpF) (n : Info), info (.xmov f) = some n → Ready s n → s.undoRoom n →
    let e := s.opEnv n
    let src := fun l => if e.simt then 32 * e.group + 16 * (f.b.toNat % 2) + l % 16 else 16 * f.b.toNat + l % 16
    IssueWrites s (exec (.xmov f) s) 3 (e.lanes.map (fun l => ⟨.v f.d.toNat l, e.k.readV f.a.toNat (src l)⟩)))

/-- 15 R310 with 12 R254: `sample` completes; v[D+1] is the prefix of the highest active lane, which is the f32 sum of the
clamped weights (after the clamped carry, in the `.cin` form); p7 says whether a lane was drawn; v[D] is −1 or the number
of the drawn lane, the first active one whose prefix exceeds the draw point. -/
def Obligations.SampleResults : Prop :=
  ∀ (s : State) (i : Instr) (n : Info) (f : OpF) (carry : Option (BitVec 6)), WellFormed i = true → info i = some n →
    (i = .sample f ∧ carry = none ∨ ∃ x : ExtX, i = .sampleExt f x ∧ carry = (if x.sub = 1 then some x.c else none)) →
    Ready s n → s.undoRoom n →
    let e := s.opEnv n
    let low := e.lanes.headD 0
    let c : FVal := match carry with
      | some r => clampWeight (e.k.readV r.toNat low).toNat
      | none => .fin false 0 0
    let sum := fun l => f32.rnd 0 (exactSum 0 (c :: (e.lanes.filter (fun j => j ≤ l)).map
      (fun j => clampWeight (e.k.readV f.a.toNat j).toNat)))
    let total := sum (e.lanes.getLastD 0)
    ∃ drawn : Option Nat,
      IssueWrites s (exec i s) 6 (laneWs e 2
        (fun l => [⟨.v f.d.toNat l, drawn.elim 0xFFFFFFFF (fun j => BitVec.ofNat 32 (j - spanBase e))⟩,
          ⟨.v (f.d.toNat + 1) l, BitVec.ofNat 32 total⟩, ⟨.p 7 l, truth drawn.isSome⟩])
        (fun _ => drawn.elim 0xFFFFFFFF (fun j => BitVec.ofNat 32 (j - spanBase e))))
      ∧ (∀ j, drawn = some j → j ∈ e.lanes)
      ∧ (carry = none → drawn = if (f32.val total).isZero then none
          else e.lanes.find? (fun l => cmpVal (f32.val (sum l)) (f32.val (drawPoint (e.k.readS f.b.toNat).toNat (f32.val total))) == .gt))
      ∧ (∀ r, carry = some r →
          let bound : FVal := match f32.val (e.k.readV (r.toNat + 1) low).toNat with
            | .nan => .fin false 0 0
            | .inf neg => if neg then .fin false 0 0 else f32.val (f32.maxFinite false)
            | .fin neg m x => if neg then .fin false 0 0 else .fin false m x
          let t := f32.val (drawPoint (e.k.readS f.b.toNat).toNat bound)
          drawn = if !bound.isZero && cmpVal c t != .gt then e.lanes.find? (fun l => cmpVal (f32.val (sum l)) t == .gt) else none)

/-- 14 R272 with 11 R232: `sgets` completes: a uniform special register is written to s[D]; LANEID and GROUPID to v[D] of
every active lane of the flow, or of every element of every owned cluster; CYCLE gives the low half of the core cycle
counter, and latches the high half for CYCLEHI. -/
def Obligations.SpecialRegisterReads : Prop :=
  (∀ (s : State) (f : OpF) (n : Info) (v : Word), info (.sgets f) = some n → Ready s n → s.undoRoom n →
    specialWord (s.opState n) (s.opEnv n) f.a.toNat = some v → IssueWrites s (exec (.sgets f) s) 1 (sw f.d v))
  ∧ (∀ (s : State) (f : OpF) (n : Info), info (.sgets f) = some n → f.a.toNat ≤ 1 → Ready s n → s.undoRoom n →
    let e := s.opEnv n
    let width := if e.simt then 32 else 16
    IssueWrites s (exec (.sgets f) s) 1 ((allLanes e).map (fun l =>
      ⟨.v f.d.toNat l, BitVec.ofNat 32 (if f.a.toNat = 0 then l % width else l / width)⟩)))
  ∧ (∀ (s : State) (f : OpF) (n : Info), info (.sgets f) = some n → f.a.toNat = 0x15 → Ready s n → s.undoRoom n →
    s.cc.loadLog.length < Config.loadLogMax →
    ∃ t, exec (.sgets f) s = .next t ∧ (s.settled t 1).readS f.d.toNat = BitVec.ofNat 32 s.cycle
      ∧ t.cc.cycleHi = BitVec.ofNat 32 (s.cycle / 2 ^ 32) ∧ t.mem = s.mem)

/-- 14 R272 with 11 R232: `ssets` completes and writes the context setting D names, with the bits the rule ignores, and
no register; TILEHI and TILELO are written while nothing is spilled (19 R388). -/
def Obligations.SpecialRegisterWrites : Prop :=
  ∀ (s : State) (f : OpF) (n : Info) (k' : Ctx), info (.ssets f) = some n → Ready s n → s.undoRoom n →
    (f.d = 0x1A ∨ f.d = 0x1B → s.cc.spilled = 0 ∧ s.cc.stackSpilled = 0 ∧ s.cc.rasSpilled = 0) →
    withSetting s.cc s.cycle f.d.toNat ((s.opEnv n).k.readS f.a.toNat) = some k' →
    ∃ t, exec (.ssets f) s = .next (s.setCtx s.cur.core s.cur.ctx t)
      ∧ t.IssuedFrom { k'.afterIssue with pend := t.pend }

namespace Sys2Proof.Claims

/-! ### Memory instructions (16 R314 to R325; 07 R138, R149; 08 R154 to R160) -/

/-- SPACE, SCOPE, WIDTH, SUB and OFFSET of a memory instruction: `.g`, `.dev`, b32, 0 and 0 in the one-word forms. -/
structure MemForm where
  f : OpF
  space : Nat
  scope : Nat
  width : Nat
  sub : Nat
  off : Int

def oneWord (f : OpF) : MemForm := { f := f, space := 2, scope := 4, width := 2, sub := 0, off := 0 }
def extForm (f : OpF) (m : ExtM) : MemForm :=
  { f := f, space := m.space.toNat, scope := m.scope.toNat, width := m.width.toNat, sub := m.sub.toNat, off := m.off.toInt }

def loadForm (i : Instr) : Option MemForm :=
  match i with
  | .ld f => some (oneWord f)
  | .ldExt f m => some (extForm f m)
  | _ => none

def storeForm (i : Instr) : Option MemForm :=
  match i with
  | .st f => some (oneWord f)
  | .stExt f m => some (extForm f m)
  | _ => none

/-- `atom` and `redm`: whether the old value returns. -/
def atomForm (i : Instr) : Option (MemForm × Bool) :=
  match i with
  | .atom f => some (oneWord f, true)
  | .atomExt f m => some (extForm f m, true)
  | .redm f => some (oneWord f, false)
  | .redmExt f m => some (extForm f m, false)
  | _ => none

/-- The address that a lane forms (16 R314). -/
def MemForm.addr (m : MemForm) (k : Ctx) (l : Nat) : Nat :=
  if m.space = 2 then ((((k.readV (m.f.a.toNat + 1) l ++ k.readV m.f.a.toNat l).toNat : Nat) + m.off) % 2 ^ 64).toNat
  else ((((k.readV m.f.a.toNat l).toNat : Nat) + m.off) % 2 ^ 32).toNat

def MemForm.bytes (m : MemForm) : Nat := 2 ^ m.width

/-- The data registers of a lane as bytes, the lowest register first (16 R315, R318). -/
def MemForm.data (m : MemForm) (k : Ctx) (l : Nat) : List Byte :=
  let word : Word → List Byte := fun w => [w.extractLsb' 0 8, w.extractLsb' 8 8, w.extractLsb' 16 8, w.extractLsb' 24 8]
  ((List.range 4).flatMap (fun i => word (k.readV (m.f.d.toNat + i) l))).take m.bytes

/-- The registers that loaded bytes make: one, a pair or four; a narrow load is zero-extended (16 R315). -/
def MemForm.loaded (m : MemForm) (l : Nat) (bs : List Byte) : List Write :=
  (List.range ((m.bytes + 3) / 4)).map (fun i =>
    ⟨.v (m.f.d.toNat + i) l, bs.getD (4 * i + 3) 0 ++ bs.getD (4 * i + 2) 0 ++ bs.getD (4 * i + 1) 0 ++ bs.getD (4 * i) 0⟩)

/-- A lane's `.d` access: aligned, and inside the grant of the live peer team of the patch that its rank names, whose core and
context these are (07 R137, R138). -/
def MemForm.inPeer (m : MemForm) (s : State) (k : Ctx) (l : Nat) (p : Nat × Nat) : Prop :=
  let a := m.addr k l
  a % m.bytes = 0 ∧ a < 2 ^ 24 ∧ k.handler = false ∧ a / 2 ^ 20 < s.patchTeams k ∧ s.peerTeam k (a / 2 ^ 20) = some p
    ∧ a % 2 ^ 20 + m.bytes ≤ (s.ctx p.1 p.2).spadLen

/-- The first byte of such an access in the peer's core's scratchpad. -/
def MemForm.peerByte (m : MemForm) (s : State) (k : Ctx) (l : Nat) (p : Nat × Nat) : Nat :=
  (s.ctx p.1 p.2).spadBase + m.addr k l % 2 ^ 20

/-- Aligned, and inside the context's own grant (07 R138). -/
def MemForm.inGrant (m : MemForm) (k : Ctx) (l : Nat) : Prop :=
  m.addr k l % m.bytes = 0 ∧ m.addr k l + m.bytes ≤ k.spadLen

/-- No earlier instruction of the stop group has stored, and no store of the context is buffered or under way: a load reads
what stands in scratchpad (08 R154, R155). -/
def NothingPending (s : State) (n : Info) : Prop :=
  s.cc.tack = [] ∧ s.cc.sent = [] ∧ ∀ g, (s.opState n).cf.group = some g → g.old = []

/-- The interval holds nothing that its close would perform, and nothing that left it is still to be done: no buffered store,
no held command, no outstanding load, no store under way (08 R163). -/
def Quiet (s : State) : Prop := s.cc.tack = [] ∧ s.cc.held = [] ∧ s.cc.loads = [] ∧ s.cc.sent = []

/-- The trace stream of the issuing core is off. -/
def Untraced (s : State) : Prop := (s.core s.cur.core).trc.enable = false

/-- A new value of an atomic (16 R320) on n bits: add, signed and unsigned min, signed and unsigned max, and, or, xor,
exchange, compare and swap. -/
def atomic (n sub : Nat) (old b cmp : BitVec n) : BitVec n :=
  match sub with
  | 0 => old + b
  | 1 => if old.toInt ≤ b.toInt then old else b
  | 2 => if old.toNat ≤ b.toNat then old else b
  | 3 => if b.toInt ≤ old.toInt then old else b
  | 4 => if b.toNat ≤ old.toNat then old else b
  | 5 => old &&& b
  | 6 => old ||| b
  | 7 => old ^^^ b
  | 8 => b
  | _ => if old = cmp then b else old

/-- A lane's operand of an atomic: a register, or a pair under b64. -/
def MemForm.operand (m : MemForm) (k : Ctx) (r : BitVec 6) (l : Nat) : Nat :=
  if m.width = 3 then (k.readV (r.toNat + 1) l ++ k.readV r.toNat l).toNat else (k.readV r.toNat l).toNat

/-- The new value that a lane's atomic writes over an old one; f32 addition under SUB 0xA. -/
def MemForm.newValue (m : MemForm) (k : Ctx) (l old : Nat) : Nat :=
  if m.sub = 10 then f32.rnd 0 (exactSum 0 [f32.val old, f32.val (m.operand k m.f.b l)])
  else (atomic (8 * m.bytes) m.sub (BitVec.ofNat _ old) (BitVec.ofNat _ (m.operand k m.f.b l))
    (BitVec.ofNat _ (m.operand k m.f.d l))).toNat

/-- Atomics of lanes on a scratchpad in lane order: the bytes after, and each lane's old value. -/
def MemForm.inOrder (m : MemForm) (k : Ctx) (ls : List Nat) (mem : Memory) : Memory × List (Nat × Nat) :=
  ls.foldl (fun r l =>
    let at_ := k.spadBase + m.addr k l
    let old := leNat (r.1.readBytes at_ m.bytes)
    (r.1.writeBytes at_ (leBytes m.bytes (m.newValue k l old)), r.2 ++ [(l, old)])) (mem, [])

/-- The writes of a number to the data registers of an atomic. -/
def MemForm.old (m : MemForm) (l x : Nat) : List Write :=
  if m.width = 3 then [⟨.v m.f.d.toNat l, BitVec.ofNat 32 x⟩, ⟨.v (m.f.d.toNat + 1) l, BitVec.ofNat 32 (x / 2 ^ 32)⟩]
  else [⟨.v m.f.d.toNat l, BitVec.ofNat 32 x⟩]

/-- Parked passes, but for the bytes they keep of what later stores of their stop group overwrite (08 R154). -/
def withoutOld (ps : List ParkedPass) : List ParkedPass := ps.map (fun p => { p with old := [] })

/-- What is left of a tack buffer behind stores of its context to places (offset and length) of its own grant: its earlier `.d`
stores to the same bytes stand before them (08 R155). -/
def trimmed (k : Ctx) (places : List (Nat × Nat)) : List TackStore :=
  places.foldl (fun t p => t.flatMap (TackStore.trim k.grid k.team p.1 p.2)) k.tack

/-- An issue that stores at some places of its own grant, and changes nothing but its context, its core's scratchpad, and the
bytes that parked passes keep. -/
def IssueStores (s : State) (o : Out) (places : List (Nat × Nat)) (spad : Memory) (k : Ctx) : Prop :=
  ∃ k' ps, o = .next ((s.updCore s.cur.core (fun co => { co with spad := spad, parked := ps })).setCtx s.cur.core s.cur.ctx k')
    ∧ withoutOld ps = withoutOld (s.core s.cur.core).parked
    ∧ k'.IssuedFrom { k with tack := trimmed s.cc places }

/-- No store of the issuing context to its own grant is buffered or under way (08 R155). -/
def OwnStoresDone (s : State) : Prop := ∀ t ∈ s.ownStores s.cc, ∀ o, t.dst ≠ .spad s.cc.grid s.cc.team o

/-- Every lane's access is located, each at one piece of HBM, whose locks a task holds; what the access reads, its home slice
gives without poison. -/
def AllInMemory (s : State) (n : Info) (kind : AccKind) (s1 : State) (as : List Acc) : Prop :=
  let e := s.opEnv n
  e.locateAll kind (s.opState n) = (s1, .ok as)
    ∧ (∀ a ∈ as, ∃ pa va m, a.spots = [(.mem pa va, m)])
    ∧ e.missingLocks s1 as = []
    ∧ (kind ≠ .store → e.refusedSpots s1 as = [] ∧ e.poisonSpots (if kind = .load then e.fillLines as s1 else s1) kind as = [])

/-- The issuing context has trapped (03 R51, R52): it is stopped, with a record that names the cause and the place at the tail
of its section's trap queue; where the queue has no slot it stands at the trap, not stopped yet, and the trap with such a
record waits for one. -/
def Trapped (s t : State) (p : TrapRecord → Prop) : Prop :=
  if s.ringFull s.cur.core then
    t.cc.stopped = none ∧ ∃ w, .stop s.cur.core s.cur.ctx s.cur.flow w ∈ (t.sect (s.cur.core / 8)).owed
      ∧ p (t.record s.cur.core s.cur.ctx s.cur.flow w)
  else ∃ r, t.cc.stopped = some r ∧ p r ∧ r.core = s.cur.core ∧ r.context = s.cur.ctx
    ∧ r ∈ (t.sect (s.cur.core / 8)).trapQ

/-- An issue after which its context has trapped. -/
def TrapsWith (s : State) (o : Out) (p : TrapRecord → Prop) : Prop := ∃ t, o = .next t ∧ Trapped s t p

/-- A memory access of the lanes, with what it is. -/
def AccessForm (i : Instr) (m : MemForm) (kind : AccKind) : Prop :=
  loadForm i = some m ∧ kind = .load ∨ storeForm i = some m ∧ kind = .store ∨ (∃ b, atomForm i = some (m, b)) ∧ kind = .atomic

/-- The DETAIL of cause 0x0E of a lane's aligned access that lies outside the grant of its space (07 R138). -/
def MemForm.outside (m : MemForm) (s : State) (k : Ctx) (l : Nat) : Option Nat :=
  let a := m.addr k l
  match m.space with
  | 0 => if k.spadLen < a + m.bytes then some 0x1 else none
  | 1 =>
    if 2 ^ 24 ≤ a then some 0x5
    else if k.handler = true ∨ s.patchTeams k ≤ a / 2 ^ 20 then some 0x2
    else match s.peerTeam k (a / 2 ^ 20) with
      | none => if s.peerParked k (a / 2 ^ 20) then none else some 0x4
      | some p => if (s.ctx p.1 p.2).spadLen < a % 2 ^ 20 + m.bytes then some 0x3 else none
  | 2 => none
  | _ => if k.windowLanes ≤ l ∨ k.privSz.toNat < a + m.bytes then some 0x6 else none

/-- What locating an access leaves alone: everything but memory, where a walk marks a leaf, and what caches translations. -/
def OnlyWalked (s s1 : State) (n : Info) : Prop :=
  s1.cc = (s.opState n).cc ∧ s1.cur = s.cur ∧ s1.sent = s.sent ∧ (∀ j, s1.sect j = s.sect j)
    ∧ (s1.core s.cur.core).trc = (s.core s.cur.core).trc ∧ (s1.core s.cur.core).parked = (s.core s.cur.core).parked
    ∧ ∀ c, (s1.core c).spad = (s.core c).spad

/-- No byte is stored, to memory or to a scratchpad, and none is buffered or on its way. -/
def NothingStored (s1 t : State) : Prop :=
  t.mem = s1.mem ∧ (∀ c, (t.core c).spad = (s1.core c).spad) ∧ t.cc.tack = [] ∧ t.sent = s1.sent

/-- The lanes of a SIMT pass that a record names. -/
def LanesWith (r : TrapRecord) (e : Env) (p : Nat → Prop) : Prop :=
  ∀ l, l < 32 → (r.lanes.getLsbD l = true ↔ ∃ x ∈ e.lanes, x % 32 = l ∧ p x)

/-- A load whose issue is over: the values are outstanding, to be written when it returns, their registers are pending until
then, its lanes take entries of the load log, and no lane register has changed. -/
def OutstandingLoad (s t : State) (lanes : Nat) (ws : List Write) : Prop :=
  (∀ l r, t.cc.readV r l = (if s.cc.vliw then s.cc.land (s.cc.icyc + 1) else s.cc).readV r l)
    ∧ t.cc.loadLog.length = s.cc.loadLog.length + lanes
    ∧ ∃ ld, t.cc.loads = s.cc.loads ++ [ld] ∧ ld.trap = none ∧ ld.tag = s.cc.nextTag ∧ ld.writes = ws
      ∧ ∀ w ∈ ld.writes, ∀ r l, w.dst = .v r l → ∃ p ∈ t.cc.pend, p.reg = .v r (l / 32) ∧ p.till = none ∧ p.tag = ld.tag

end Sys2Proof.Claims

/-- 16 R314, R315, R317 (`.s`): a load from the context's own scratchpad completes with latency 6: each active lane
receives the bytes at its address, zero-extended, one register, a pair or four. -/
def Obligations.ScratchpadLoads : Prop :=
  ∀ (s : State) (i : Instr) (n : Info) (m : MemForm), WellFormed i = true → info i = some n → loadForm i = some m → m.space = 0 →
    Ready s n → s.undoRoom n → NothingPending s n → (∀ l ∈ (s.opEnv n).lanes, m.inGrant (s.opEnv n).k l) →
    let e := s.opEnv n
    IssueWrites s (exec i s) 6 (e.lanes.flatMap (fun l =>
      m.loaded l ((s.core s.cur.core).spad.readBytes (e.k.spadBase + m.addr e.k l) m.bytes)))

/-- 16 R317, 09 R188 (`.g` and `.p`): a load from HBM completes its issue: the value of every lane is outstanding, to be
written to its data registers when it returns, read once the L1 has filled the lines the load meets (08 R161); its registers
are pending until then, each lane takes a load-log entry (log 43, DEDUCED), no register has changed, and memory is as the
translation left it. 07 R137 (`.d`): so does a load from the scratchpads of peer teams of the patch, whose values are the
bytes that stand there. -/
def Obligations.GlobalLoadsIssue : Prop :=
  (∀ (s s1 : State) (i : Instr) (n : Info) (m : MemForm) (as : List Acc), WellFormed i = true → info i = some n → loadForm i = some m →
    m.space = 2 ∨ m.space = 3 → Ready s n → s.undoRoom n → AllInMemory s n .load s1 as →
    s1.cc = (s.opState n).cc → s1.sent = s.sent → s.cc.loadLog.length + (s.opEnv n).lanes.length ≤ Config.loadLogMax →
    let e := s.opEnv n
    ∃ t, exec i s = .next t ∧ t.mem = s1.mem
      ∧ OutstandingLoad s t e.lanes.length (as.flatMap (fun a => m.loaded a.lane (a.spots.flatMap (fun p =>
            (e.fillLines as s1).readPiece s.cur.core s.cur.ctx s.cur.flow (a.lane + 1) p.1 p.2)))))
  ∧ (∀ (s : State) (i : Instr) (n : Info) (m : MemForm) (peer : Nat → Nat × Nat), WellFormed i = true → info i = some n →
    loadForm i = some m → m.space = 1 → Ready s n → s.undoRoom n → NothingPending s n →
    s.cc.loadLog.length + (s.opEnv n).lanes.length ≤ Config.loadLogMax →
    let e := s.opEnv n
    (∀ l ∈ e.lanes, m.inPeer (s.opState n) e.k l (peer l)) →
    ∃ t, exec i s = .next t ∧ t.mem = s.mem ∧ (∀ c, (t.core c).spad = (s.core c).spad)
      ∧ OutstandingLoad s t e.lanes.length (e.lanes.flatMap (fun l =>
          m.loaded l ((s.core (peer l).1).spad.readBytes (m.peerByte (s.opState n) e.k l (peer l)) m.bytes))))

/-- 16 R314, R315, R318 (`.s`), 08 R160: a store to the context's own scratchpad performs at once, the highest lane's
value standing where lanes coincide; no register changes, and no other state, but that an earlier `.d` store of the context to
the same bytes, still buffered, no longer covers them (08 R155). The frame of scratchpad stores: outside the
bytes at the addresses that the active lanes form, every byte of the core's scratchpad, and every byte of memory, reads as
before. -/
def Obligations.ScratchpadStores : Prop :=
  (∀ (s : State) (i : Instr) (n : Info) (m : MemForm), WellFormed i = true → info i = some n → storeForm i = some m → m.space = 0 →
      Ready s n → (∀ l ∈ (s.opEnv n).lanes, m.inGrant (s.opEnv n).k l) →
      s.cc.undo.length + (s.opEnv n).lanes.length * ((m.bytes + 3) / 4) ≤ Config.undoMax →
      let e := s.opEnv n
      IssueStores s (exec i s) (e.lanes.map (fun l => (m.addr e.k l, m.bytes)))
        (e.lanes.foldl (fun mem l => mem.writeBytes (e.k.spadBase + m.addr e.k l) (m.data e.k l)) (s.core s.cur.core).spad)
        s.cc.afterIssue)
  ∧ (∀ (s t : State) (i : Instr) (n : Info) (m : MemForm), WellFormed i = true → info i = some n → storeForm i = some m → m.space = 0 →
      Ready s n → (∀ l ∈ (s.opEnv n).lanes, m.inGrant (s.opEnv n).k l) →
      s.cc.undo.length + (s.opEnv n).lanes.length * ((m.bytes + 3) / 4) ≤ Config.undoMax → exec i s = .next t →
      let e := s.opEnv n
      (∀ a, (∀ l ∈ e.lanes, a < e.k.spadBase + m.addr e.k l ∨ e.k.spadBase + m.addr e.k l + m.bytes ≤ a) →
        (t.core s.cur.core).spad.read a = (s.core s.cur.core).spad.read a)
      ∧ (∀ a, t.mem.read a = s.mem.read a)
      ∧ (∀ c, c ≠ s.cur.core → t.core c = s.core c)
      ∧ (s.cc.vliw = false → ∀ r l, t.cc.readV r l = s.cc.readV r l ∧ t.cc.readS r = s.cc.readS r))

/-- 16 R318, 08 R157 (`.g` and `.p`): a store to HBM completes its issue: each active lane's bytes stand in the tack buffer
in lane order, with the physical address of its access, one entry a lane (log 43, DEDUCED), and no byte of memory has changed
by it. 07 R137 (`.d`): so does a store of a plain team to the scratchpads of peer teams of the patch, and no byte of a
scratchpad has changed. -/
def Obligations.GlobalStoresBuffer : Prop :=
  (∀ (s s1 : State) (i : Instr) (n : Info) (m : MemForm) (as : List Acc), WellFormed i = true → info i = some n → storeForm i = some m →
    m.space = 2 ∨ m.space = 3 → Ready s n → s.undoRoom n → AllInMemory s n .store s1 as →
    s1.cc = (s.opState n).cc → s.cc.tack.length + as.length ≤ Config.tackMax →
    let e := s.opEnv n
    ∃ t, exec i s = .next t ∧ t.mem = s1.mem
      ∧ t.cc.tack = s.cc.tack ++ as.flatMap (fun a => a.spots.flatMap (fun p => match p.1 with
          | .mem pa va => [⟨.mem pa, m.data e.k a.lane, BitVec.ofNat 64 va, s.cur.flow⟩]
          | _ => [])))
  ∧ (∀ (s : State) (i : Instr) (n : Info) (m : MemForm) (peer : Nat → Nat × Nat), WellFormed i = true → info i = some n →
    storeForm i = some m → m.space = 1 → s.cc.task = none → Ready s n → s.undoRoom n →
    s.cc.tack.length + (s.opEnv n).lanes.length ≤ Config.tackMax →
    let e := s.opEnv n
    (∀ l ∈ e.lanes, m.inPeer (s.opState n) e.k l (peer l)) →
    ∃ t, exec i s = .next t ∧ t.mem = s.mem ∧ (∀ c, (t.core c).spad = (s.core c).spad)
      ∧ t.cc.tack = s.cc.tack ++ e.lanes.map (fun l =>
          let q := s.ctx (peer l).1 (peer l).2
          ⟨.spad q.grid q.team (m.addr e.k l % 2 ^ 20), m.data e.k l, 0, s.cur.flow⟩))

/-- 16 R320 to R322 (`.s`): `atom` and `redm` on the context's own scratchpad complete: every active lane, in lane order,
reads the old value and writes the new one; `atom` returns the old values with latency 6. No `.d` store of the context to
its own rank is still on its way. -/
def Obligations.ScratchpadAtomics : Prop :=
  ∀ (s : State) (i : Instr) (n : Info) (m : MemForm) (returns : Bool), WellFormed i = true → info i = some n →
    atomForm i = some (m, returns) → m.space = 0 → Ready s n → OwnStoresDone s →
    (∀ l ∈ (s.opEnv n).lanes, m.inGrant (s.opEnv n).k l) →
    s.cc.undo.length + (undoKeys s.cc (opd n) (!s.cc.vliw) (s.opEnv n).group (s.opEnv n).slot).length
      + 2 * (s.opEnv n).lanes.length ≤ Config.undoMax →
    let e := s.opEnv n
    let r := m.inOrder e.k e.lanes (s.core s.cur.core).spad
    IssueStores s (exec i s) [] r.1
      (s.cc.deliver s.cycle 6 (if returns then r.2.flatMap (fun p => m.old p.1 p.2) else [])).afterIssue

/-- 16 R320 to R322, 08 R168 (`.g`): an `atom` or `redm` of one active lane on a word of HBM, by a plain team whose interval
holds nothing to perform, completes: memory at the word holds the new value, and `atom`'s old value is outstanding. The
word lies outside the FRAME_OWNER table. 07 R137 (`.d`): so does one on a word of the scratchpad of a peer team of the patch. -/
def Obligations.GlobalAtomicsPerform : Prop :=
  (∀ (s s1 : State) (i : Instr) (n : Info) (m : MemForm) (returns : Bool) (l pa va : Nat), WellFormed i = true → info i = some n →
    atomForm i = some (m, returns) → m.space = 2 → SimtReady s n → s.undoRoom n → Quiet s → s.cc.task = none →
    (s.core s.cur.core).trc.enable = false →
    (s.opEnv n).lanes = [l] → s1.cc = (s.opState n).cc → s1.core s.cur.core = { s1.core s.cur.core with trc := (s.core s.cur.core).trc } →
    AllInMemory s n .atomic s1 [{ lane := l, addr := va, spots := [(.mem pa va, m.bytes)] }] →
    s1.physCheck s.cc.part pa true = .ok →
    (pa + m.bytes ≤ s1.att.frameOwnerBase ∨ s1.att.frameOwnerBase + 12 * 2 ^ 20 ≤ pa) →
    let e := s.opEnv n
    let old := leNat (s1.mem.readBytes pa m.bytes)
    ∃ t, exec i s = .next t ∧ t.mem = s1.mem.writeBytes pa (leBytes m.bytes (m.newValue e.k l old))
      ∧ t.cc.idem = false
      ∧ (returns = true → ∃ ld ∈ t.cc.loads, ld.trap = none ∧ ld.writes = m.old l old))
  ∧ (∀ (s : State) (i : Instr) (n : Info) (m : MemForm) (returns : Bool) (l : Nat) (p : Nat × Nat), WellFormed i = true →
    info i = some n → atomForm i = some (m, returns) → m.space = 1 → Ready s n → Quiet s → Untraced s → s.cc.task = none →
    (s.opEnv n).lanes = [l] → s.undoRoom n →
    let e := s.opEnv n
    m.inPeer (s.opState n) e.k l p →
    let a := m.peerByte (s.opState n) e.k l p
    let old := leNat ((s.core p.1).spad.readBytes a m.bytes)
    ∃ t, exec i s = .next t ∧ t.mem = s.mem
      ∧ (t.core p.1).spad = (s.core p.1).spad.writeBytes a (leBytes m.bytes (m.newValue e.k l old))
      ∧ (∀ c, c ≠ p.1 → (t.core c).spad = (s.core c).spad) ∧ t.cc.idem = false
      ∧ (returns = true → ∃ ld ∈ t.cc.loads, ld.trap = none ∧ ld.writes = m.old l old))

/-- 16 R325 with 07 R149: `pexport` completes with latency 6: each active lane's pair receives the global address of its
private offset; no access is made. -/
def Obligations.PrivateAddressesExported : Prop :=
  ∀ (s : State) (f : OpF) (n : Info), info (.pexport f) = some n → Ready s n → s.undoRoom n →
    let e := s.opEnv n
    (∀ l ∈ e.lanes, l < e.k.windowLanes ∧ (e.k.readV f.a.toNat l).toNat < e.k.privSz.toNat) →
    let base := (e.k.privHi ++ e.k.privLo).toNat
    let addr := fun l =>
      let o := (e.k.readV f.a.toNat l).toNat
      (base + o / 8 * 8 * e.k.windowLanes + l * 8 + o % 8) % 2 ^ 64
    IssueWrites s (exec (.pexport f) s) 6 (e.lanes.flatMap (fun l =>
      [⟨.v f.d.toNat l, BitVec.ofNat 32 (addr l)⟩, ⟨.v (f.d.toNat + 1) l, BitVec.ofNat 32 (addr l / 2 ^ 32)⟩]))

/-- 07 R138 with 10 R204: a per-lane memory access of any space whose address is not a multiple of its size in some active lane
traps with cause 0x06, which stands before every other cause of an access; in a SIMT pass of `.s` or `.d` the record names
the misaligned lanes. One that is aligned and lies outside the grant of its space in some lane, and that the register space
does not refuse, traps with cause 0x0E and the DETAIL of the first such lane. 03 R66: a SIMT pass that a translation refuses
with cause 0x07 or 0x08, DETAIL 0x0, parks where the table and the ring have room: it enters the table with its record in the
trap queue, its registers stay pending, the context is not stopped, and the flow goes on; every other refused access stops
the context. In no case is a byte stored. -/
def Obligations.AccessTraps : Prop :=
  (∀ (s : State) (i : Instr) (n : Info) (m : MemForm) (kind : AccKind), WellFormed i = true → info i = some n →
    AccessForm i m kind → Ready s n → Quiet s → Untraced s →
    let e := s.opEnv n
    let s1 := (e.locateAll kind (s.opState n)).1
    OnlyWalked s s1 n → (∃ l ∈ e.lanes, m.addr e.k l % m.bytes ≠ 0) →
    ∃ t, exec i s = .next t ∧ NothingStored s1 t
      ∧ Trapped s t (fun r => r.cause = 0x06 ∧ r.detail = 0
        ∧ (s.cc.vliw = false → m.space ≤ 1 → LanesWith r e (fun x => m.addr e.k x % m.bytes ≠ 0))))
  ∧ (∀ (s : State) (i : Instr) (n : Info) (m : MemForm) (kind : AccKind) (d : Nat), WellFormed i = true → info i = some n →
    AccessForm i m kind → Ready s n → Quiet s → Untraced s →
    let e := s.opEnv n
    let r1 := e.locateAll kind (s.opState n)
    OnlyWalked s r1.1 n → (∀ l ∈ e.lanes, m.addr e.k l % m.bytes = 0) → (∀ tr, r1.2 = .error tr → tr.cause ≠ 0x06) →
    e.lanes.findSome? (fun l => m.outside (s.opState n) e.k l) = some d →
    ∃ t, exec i s = .next t ∧ NothingStored r1.1 t
      ∧ Trapped s t (fun r => r.cause = 0x0E ∧ r.detail = d
        ∧ (s.cc.vliw = false → LanesWith r e (fun x => (m.outside (s.opState n) e.k x).isSome = true))))
  ∧ (∀ (s s1 : State) (i : Instr) (n : Info) (m : MemForm) (kind : AccKind) (tr : Trap), WellFormed i = true → info i = some n →
    AccessForm i m kind → Ready s n → Quiet s → Untraced s →
    (s.opEnv n).locateAll kind (s.opState n) = (s1, .error tr) → OnlyWalked s s1 n →
    let place := s.cur.core
    let refused := (tr.cause = 0x07 ∨ tr.cause = 0x08) ∧ tr.detail = 0
    (s.cc.vliw = false → refused → (s.core place).parked.length < 32 → s.ringFull place = false →
      ∃ t q, exec i s = .next t ∧ NothingStored s1 t ∧ t.cc.stopped = none
        ∧ (t.core place).parked = (s.core place).parked ++ [q]
        ∧ q.ctx = s.cur.ctx ∧ q.flow = s.cur.flow ∧ q.group = (s.cf.inGroup n).pass ∧ q.op = n
        ∧ q.record ∈ (t.sect (place / 8)).trapQ ∧ q.record.cause = tr.cause ∧ q.record.detail = 0
        ∧ (∀ r ∈ opRegs (opd n) true, ⟨Reg.name q.group r, none, q.tag⟩ ∈ t.cc.pend)
        ∧ (∀ r l, t.cc.readV r l = s.cc.readV r l) ∧ t.cf.pc = (s.opState n).cf.advance.pc)
    ∧ (s.cc.vliw = true ∨ ¬ refused ∨ 32 ≤ (s.core place).parked.length →
      ∃ t, exec i s = .next t ∧ NothingStored s1 t ∧ Trapped s t (fun r => r.cause = tr.cause ∧ r.detail = tr.detail)))

namespace Sys2Proof.Claims

/-! ### Ordering and barriers (08 R157, R163 to R165, R174, R175; 16 R327 to R335) -/

/-- The issuing context has no parked pass. -/
def NoneParked (s : State) : Prop := ∀ p ∈ (s.core s.cur.core).parked, p.ctx ≠ s.cur.ctx

/-- An issue that leaves a state like `t` but for its own position and marks. -/
def IssueGives (s : State) (o : Out) (t : State) : Prop :=
  ∃ k, o = .next (t.setCtx s.cur.core s.cur.ctx k) ∧ k.IssuedFrom (t.ctx s.cur.core s.cur.ctx).afterIssue

/-- No register of the issuing context changes by the instruction. -/
def SameRegisters (s t : State) : Prop :=
  ∀ r l, t.cc.readV r l = s.cc.afterIssue.readV r l ∧ t.cc.readS r = s.cc.afterIssue.readS r
    ∧ t.cc.readP r l = s.cc.afterIssue.readP r l

/-- What an acquire at a scope beyond the core does to the L1: words that the core does not own are gone (08 R164). -/
def Acquired (s t : State) (scope : Nat) : Prop :=
  if 3 ≤ scope then
    ∀ line ln, SMap.find? (t.core s.cur.core).l1 line = some ln → ln.valid &&& ~~~ln.owned = 0
  else (t.core s.cur.core).l1 = (s.core s.cur.core).l1

/-- The ordering group: 0 fence, 1 acquire, 2 release, 3 drain, 4 pfence; with its SCOPE, `.dev` in the one-word forms. -/
def orderForm (i : Instr) : Option (Nat × Nat) :=
  match i with
  | .fence _ => some (0, 4)
  | .fenceExt _ m => some (0, m.scope.toNat)
  | .acq _ => some (1, 4)
  | .acqExt _ m => some (1, m.scope.toNat)
  | .rel _ => some (2, 4)
  | .relExt _ m => some (2, m.scope.toNat)
  | .drain _ | .drainExt _ _ => some (3, 0)
  | .pfence _ | .pfenceExt _ _ => some (4, 0)
  | _ => none

/-- The barrier-object instructions of one word access `.s` at offset 0. -/
def objForm (i : Instr) : Option (Nat × MemForm) :=
  let one : OpF → MemForm := fun f => { f := f, space := 0, scope := 3, width := 0, sub := 0, off := 0 }
  match i with
  | .binit f => some (0, one f)
  | .binitExt f m => some (0, extForm f m)
  | .barr f => some (1, one f)
  | .barrExt f m => some (1, extForm f m)
  | .barrx f => some (2, one f)
  | .barrxExt f m => some (2, extForm f m)
  | .bwait f => some (3, one f)
  | .bwaitExt f m => some (3, extForm f m)
  | _ => none

/-- The address of an object: s[A] and the OFFSET, modulo 2^32 (16 R330). -/
def MemForm.object (m : MemForm) (k : Ctx) : Nat := ((((k.readS m.f.a.toNat).toNat : Nat) + m.off) % 2 ^ 32).toNat

/-- An address names an object at an offset of a context's grant: of the own one under `.s`, of a live peer team of the
patch under `.d` (07 R137, R138; 16 R327). -/
def ObjectAt (s : State) (k : Ctx) (space a c x off : Nat) : Prop :=
  a % 32 = 0 ∧
    (if space = 0 then c = s.cur.core ∧ x = s.cur.ctx ∧ off = a ∧ a + 32 ≤ k.spadLen
     else a < 2 ^ 24 ∧ k.handler = false ∧ a / 2 ^ 20 % 16 < s.patchTeams k ∧ s.peerTeam k (a / 2 ^ 20 % 16) = some (c, x)
       ∧ off = a % 2 ^ 20 ∧ off + 32 ≤ (s.ctx c x).spadLen)

/-- The object's first byte in its core's scratchpad. -/
def objectByte (s : State) (c x off : Nat) : Nat := (s.ctx c x).spadBase + off

/-- The completions of a counting step (16 R328): phases complete while the arrivals and the bytes expected are there. -/
inductive Completes : Barrier → Nat → Barrier → Prop where
  | over (b : Barrier) (h : b.tcnt < max b.texp 1 ∨ b.bcnt < b.bexp) : Completes b 0 b
  | phase {b b' : Barrier} {n : Nat} (ha : max b.texp 1 ≤ b.tcnt) (hb : b.bexp ≤ b.bcnt)
      (r : Completes { phase := (b.phase + 1) % 2 ^ 32, texp := max (b.texp - b.tadj) 1, tcnt := b.tcnt - max b.texp 1
                       bbase := b.bbase, bexp := b.bbase, bcnt := b.bcnt - b.bexp, tadj := 0 } n b') : Completes b (n + 1) b'

/-- Is phase n complete: does PHASE − n, modulo 2^32, lie from 1 to 2^31 − 1 (16 R328)? -/
def phaseOver (b : Barrier) (n : Word) : Prop :=
  1 ≤ (BitVec.ofNat 32 b.phase - n).toNat ∧ (BitVec.ofNat 32 b.phase - n).toNat < 2 ^ 31

/-- A deadline has passed: the low half of the core cycle lies up to 2^31 − 1 behind it (16 R331). -/
def deadlineOver (s : State) (dl : Word) : Prop := (BitVec.ofNat 32 s.cycle - dl).toNat < 2 ^ 31

/-- `tbar` and `pbar`, with their SCOPE: `.team` and `.patch` in the one-word forms. -/
def barForm (i : Instr) : Option (Bool × Nat) :=
  match i with
  | .tbar _ => some (false, 1)
  | .tbarExt _ m => some (false, m.scope.toNat)
  | .pbar _ => some (true, 3)
  | .pbarExt _ m => some (true, m.scope.toNat)
  | _ => none

/-- The flow is alone in its team: no other flow has lanes, no lane waits in a seam entry, and none is held aside for a
`callx` (14 R277). -/
def AloneInTeam (s : State) : Prop :=
  (∀ p ∈ s.cc.flows, p.1 ≠ s.cur.flow → p.2.masks = []) ∧ s.cc.seams = [] ∧ s.cc.stackSpilled = 0 ∧ s.cc.aside = []

/-- The last byte that the stores of a tack buffer hold for a byte of memory (08 R157). -/
def buffered (tack : List TackStore) (a : Nat) : Option Byte :=
  tack.foldl (fun b st => match st.dst with
    | .mem pa => if pa ≤ a ∧ a < pa + st.bytes.length then st.bytes[a - pa]? else b
    | _ => b) none

def retBarrier (w : Wait) (patch : Bool) : Prop := ∃ sc, w = .barrier patch sc

end Sys2Proof.Claims

/-- 13 R259 and 14 R276: `nop` and the landing pads `lpad.c` and `lpad.j` do nothing but move their flow on. -/
def Obligations.NopsAndLandingPads : Prop :=
  ∀ (s : State) (i : Instr) (n : Info), (∃ f, i = .nop f ∨ i = .lpadC f ∨ i = .lpadJ f) → info i = some n → Ready s n →
    s.undoRoom n → IssueGives s (exec i s) s

/-- 16 R333 with 08 R163 to R165: `fence`, `acq`, `rel`, `drain` and `pfence` complete; in an interval that holds nothing
to perform they change no memory and no register; `fence` and `acq` beyond the core leave no word in the L1 that the core
does not own; `rel` clears `.idem`. 08 R158: `fence`, `rel` and `drain` close the interval, whose undo log and load log are
empty then; `acq` and `pfence` close none, and leave them as they are. -/
def Obligations.OrderingInstructions : Prop :=
  ∀ (s : State) (i : Instr) (n : Info) (kind scope : Nat), WellFormed i = true → info i = some n →
    orderForm i = some (kind, scope) → Ready s n → (s.opEnv n).first = true → s.undoRoom n → Quiet s → Untraced s →
    NoneParked s → s.cc.peerFailed = none →
    ∃ t, exec i s = .next t ∧ t.mem = s.mem ∧ (t.core s.cur.core).spad = (s.core s.cur.core).spad ∧ SameRegisters s t
      ∧ Acquired s t (if kind ≤ 1 then scope else 0) ∧ (kind = 2 → t.cc.idem = false)
      ∧ (if kind = 1 ∨ kind = 4 then t.cc.undo = s.cc.undo ∧ t.cc.loadLog = s.cc.loadLog
         else t.cc.undo = [] ∧ t.cc.loadLog = [])

/-- 14 R286 with 08 R157, R158: `tack` completes: every buffered store of a plain team performs in buffer order, every
outstanding load returns, and the interval's buffer and logs are empty. That the stores have performed when `tack` is over is
the model's choice (log 6, DESIGN CHOICE). The stores lie outside the FRAME_OWNER table and their home slices accept them.
06 R120, R121: those of a task's team enter its write set, where the slices have room: memory is as it was, and the task
reads the stored bytes. -/
def Obligations.TackClosesTheInterval : Prop :=
  (∀ (s : State) (f : OpF) (n : Info), info (.tack f) = some n → Ready s n → (s.opEnv n).last = true → Untraced s →
    s.cc.task = none → s.cc.held = [] →
    (∀ st ∈ s.cc.tack, ∃ pa, st.dst = .mem pa ∧ s.physCheck s.cc.part pa true = .ok
      ∧ (pa + st.bytes.length ≤ s.att.frameOwnerBase ∨ s.att.frameOwnerBase + 12 * 2 ^ 20 ≤ pa)) →
    ∃ t, exec (.tack f) s = .next t
      ∧ t.mem = s.cc.tack.foldl (fun m st => match st.dst with
          | .mem pa => m.writeBytes pa st.bytes
          | _ => m) s.mem
      ∧ t.cc.tack = [] ∧ t.cc.loads = [] ∧ t.cc.undo = [] ∧ t.cc.loadLog = [] ∧ t.cc.held = [])
  ∧ (∀ (s : State) (f : OpF) (n : Info) (task : Nat), info (.tack f) = some n → Ready s n → (s.opEnv n).last = true → Untraced s →
    s.cc.task = some task → s.cc.held = [] →
    (∀ st ∈ s.cc.tack, ∃ pa, st.dst = .mem pa ∧ s.physCheck s.cc.part pa true = .ok) →
    s.fullSlice task (s.cc.tack.flatMap (fun st => match st.dst with
      | .mem pa => wordsOf pa st.bytes.length
      | _ => [])) = none →
    ∃ t, exec (.tack f) s = .next t ∧ t.mem = s.mem
      ∧ (∀ a, t.taskBytes task a 1 = match buffered s.cc.tack a with
          | some b => [b]
          | none => s.taskBytes task a 1)
      ∧ t.cc.tack = [] ∧ t.cc.loads = [] ∧ t.cc.undo = [] ∧ t.cc.loadLog = [] ∧ t.cc.held = [])

/-- 16 R329: `binit` completes: the object's eight words are PHASE 0, T_EXP s[B], T_CNT 0, B_BASE and B_EXP s[B+1], B_CNT
0, T_ADJ 0 and 0; no other byte and no register changes. -/
def Obligations.BarrierObjectsBegin : Prop :=
  ∀ (s : State) (i : Instr) (n : Info) (m : MemForm), WellFormed i = true → info i = some n → objForm i = some (0, m) →
    Ready s n → (s.opEnv n).first = true → s.cc.undo.length + 8 ≤ Config.undoMax →
    let k := (s.opEnv n).k
    m.object k % 32 = 0 → m.object k + 32 ≤ k.spadLen →
    let w : Word → List Byte := fun v => leBytes 4 v.toNat
    let b := k.readS (m.f.b.toNat + 1)
    IssueStores s (exec i s) [(m.object k, 32)]
      ((s.core s.cur.core).spad.writeBytes (k.spadBase + m.object k)
        (w 0 ++ w (k.readS m.f.b.toNat) ++ w 0 ++ w b ++ w b ++ w 0 ++ w 0 ++ w 0)) s.cc.afterIssue

/-- 16 R328, R330: `barr` and `barrx` on an object of the own grant or of a peer team complete: s[B] arrivals are counted
in one step, under `barrx` after s[B+1] is added to B_EXP, phases complete as far as the counts reach, and D receives
the phase counted in, with latency 6, or as a load returns under `.d`. No other scratchpad byte changes, and no memory
while no batch slot is leaving. -/
def Obligations.BarrierArrivals : Prop :=
  ∀ (s : State) (i : Instr) (n : Info) (kind : Nat) (m : MemForm) (c x off : Nat), WellFormed i = true → info i = some n →
    objForm i = some (kind, m) → kind = 1 ∨ kind = 2 → Ready s n → (s.opEnv n).first = true → s.undoRoom n → Quiet s →
    Untraced s → NoneParked s → s.cc.peerFailed = none → (m.space = 1 → s.cc.task = none) →
    let k := (s.opEnv n).k
    let b := k.readS m.f.b.toNat
    b.toNat < 2 ^ 16 → ObjectAt s k m.space (m.object k) c x off →
    let o := objectByte s c x off
    let old := s.barrierAt c o
    let more := if kind = 2 then (k.readS (m.f.b.toNat + 1)).toNat else 0
    ∃ t y phases, exec i s = .next t
      ∧ Completes { old with tcnt := (old.tcnt + b.toNat) % 2 ^ 32, bexp := (old.bexp + more) % 2 ^ 32 } phases y
      ∧ t.barrierAt c o = y
      ∧ (∀ a, a < o ∨ o + 28 ≤ a → (t.core c).spad.read a = (s.core c).spad.read a)
      ∧ ((∀ p ∈ s.att.batch, p.2.state ≠ 2) → t.mem = s.mem)
      ∧ (if m.space = 0 then (s.settled t 6).readS m.f.d.toNat = BitVec.ofNat 32 old.phase
         else ∃ ld ∈ t.cc.loads, ld.trap = none ∧ ld.writes = sw m.f.d (BitVec.ofNat 32 old.phase))

/-- 16 R328, R332: `btest` completes with latency 6: D receives 1 if phase s[B] of the object at s[A] is complete, else 0;
nothing else changes. -/
def Obligations.BarrierTests : Prop :=
  ∀ (s : State) (f : OpF) (n : Info), info (.btest f) = some n → Ready s n → (s.opEnv n).first = true → s.undoRoom n →
    NothingPending s n →
    let k := (s.opEnv n).k
    let a := (k.readS f.a.toNat).toNat
    a % 32 = 0 → a + 32 ≤ k.spadLen →
    let b := s.barrierAt s.cur.core (k.spadBase + a)
    (phaseOver b (k.readS f.b.toNat) → IssueWrites s (exec (.btest f) s) 6 (sw f.d 1))
    ∧ (¬ phaseOver b (k.readS f.b.toNat) → IssueWrites s (exec (.btest f) s) 6 (sw f.d 0))


/-- 16 R331 with 08 R174, R175: `bwait` on a phase that is complete completes with D = 0, latency 1, and an acquire; with
a deadline that has passed it completes with D = 1; otherwise its flow waits, with D as it was. 16 R331: a flow that waits
in `bwait` on an object of its own grant goes on once the phase is complete: in SIMT mode its destination receives 0 and
it no longer waits; in VLIW mode its bundle issues again with that result. Its acquire waits for the context's parked
passes, so both hold where there is none. -/
def Obligations.BarrierWaits : Prop :=
  (∀ (s : State) (i : Instr) (n : Info) (m : MemForm) (c x off : Nat), WellFormed i = true → info i = some n →
      objForm i = some (3, m) → Ready s n → (s.opEnv n).first = true → s.undoRoom n → Quiet s → Untraced s →
      NoneParked s → s.cf.bwaitResult = none →
      let k := (s.opEnv n).k
      ObjectAt s k m.space (m.object k) c x off →
      let b := s.barrierAt c (objectByte s c x off)
      let n' := k.readS m.f.b.toNat
      let late := m.sub = 1 ∧ deadlineOver s (k.readS (m.f.b.toNat + 1))
      ∃ t, exec i s = .next t ∧ t.mem = s.mem
        ∧ (phaseOver b n' → (s.settled t 1).readS m.f.d.toNat = 0 ∧ Acquired s t m.scope)
        ∧ (¬ phaseOver b n' → late → (s.settled t 1).readS m.f.d.toNat = 1)
        ∧ (¬ phaseOver b n' → ¬ late → t.cc.readS m.f.d.toNat = s.cc.readS m.f.d.toNat
            ∧ ∃ dl sc, t.cf.wait = .bwait (m.space == 1) (BitVec.ofNat 32 (m.object k)) n' dl m.f.d.toNat sc))
  ∧ (∀ (s : State) (c x f : Nat) (addr phase : Word) (dl : Option Word) (dst scope : Nat),
      ((s.ctx c x).flow f).wait = .bwait false addr phase dl dst scope →
      phaseOver (s.barrierAt c ((s.ctx c x).spadBase + addr.toNat)) phase → (∀ p ∈ (s.core c).parked, p.ctx ≠ x) →
      ∃ t, exec (.bwaitDone c x f) s = .next t ∧ ((t.ctx c x).flow f).wait = .none
        ∧ (if (s.ctx c x).vliw then ((t.ctx c x).flow f).bwaitResult = some 0 else (t.ctx c x).readS dst = 0))

/-- 16 R335: `tbar` of a flow that is alone in its team completes at once, with its acquire; every other `tbar` or `pbar`
releases and arrives: its flow waits at the barrier; and one whose barrier is complete goes on. 16 R335: once every live
lane of the team, or for `pbar` of every team of the patch, has arrived, no flow of them waits at the barrier any more. -/
def Obligations.TeamAndPatchBarriers : Prop :=
  (∀ (s : State) (i : Instr) (n : Info) (patch : Bool) (scope : Nat), WellFormed i = true → info i = some n →
      barForm i = some (patch, scope) → Ready s n → (s.opEnv n).first = true → s.undoRoom n →
      (∀ v, s.cf.bwaitResult = some v → ∃ t, exec i s = .next t ∧ t.mem = s.mem ∧ SameRegisters s t ∧ t.cf.bwaitResult = none)
      ∧ (s.cf.bwaitResult = none → Quiet s → Untraced s → NoneParked s → s.cc.peerFailed = none →
          ∃ t, exec i s = .next t ∧ t.mem = s.mem
            ∧ (patch = false → AloneInTeam s → SameRegisters s t ∧ Acquired s t scope)
            ∧ (patch = true ∨ ¬ AloneInTeam s → t.cf.wait = .barrier patch scope)))
  ∧ (∀ (s : State) (c x : Nat) (patch : Bool), s.barrierDue c x patch = true →
      ∃ t, exec (.barrierComplete c x patch) s = .next t ∧
        ∀ p ∈ (if patch then s.patchOf (s.ctx c x) else [(c, x)]), ∀ q ∈ (s.ctx p.1 p.2).flows,
          retBarrier ((s.ctx p.1 p.2).flow q.1).wait patch → ((t.ctx p.1 p.2).flow q.1).wait = .none)

namespace Sys2Proof.Claims

/-! ### The matrix family (17 R337 to R352; 12 R247 to R252) -/

/-- The layout word that a field names (17 R337). -/
def layoutOf (k : Ctx) (r : BitVec 6) : LayoutWord :=
  let w := fun n => k.readS (r.toNat + n)
  { base := (w 0).toNat, s0 := ((w 1).extractLsb' 0 16).toNat, s1 := ((w 1).extractLsb' 16 16).toNat
    s2 := ((w 2).extractLsb' 0 16).toNat, swz := ((w 2).extractLsb' 16 4).toNat, orient := (w 2).getLsbD 20 }

/-- The `.s` offset of a piece: word i of plane p, or piece i of row p (17 R338). -/
def pieceAddr (l : LayoutWord) (off : Int) (plane : Bool) (p i : Nat) : Nat :=
  let start := (((l.base : Nat) + off) % 2 ^ 32).toNat
  let a := (if plane then start + p * l.s1 + i * l.s0 else start + p * l.s2 + 8 * i) % 2 ^ 32
  let g := if plane then (i / 16 + p) % 16 else p % 16
  a ^^^ (8 * (l.swz &&& g))

/-- Bits of an element: f32, f16, bf16, q8, q4, q2. -/
def fmtBits (ty : Nat) : Nat := match ty with | 8 => 32 | 9 | 10 => 16 | 11 => 8 | 12 => 4 | _ => 2

/-- The bit of the encoding that each plane holds (12 R249); 16 stands for the hidden bit. -/
def planeOrder (ty : Nat) : List Nat :=
  match ty with
  | 10 => [15, 14, 13, 12, 11, 10, 9, 8, 7, 16, 6, 5, 4, 3, 2, 1, 0]
  | 9 => [15, 14, 13, 12, 11, 10, 16, 9, 8, 7, 6, 5, 4, 3, 2, 1, 0]
  | 11 => [7, 6, 5, 4, 3, 2, 1, 0]
  | 12 => [3, 2, 1, 0]
  | _ => [1, 0]

/-- A scratchpad operand: its layout word, offset, form and format. -/
structure MxOperand where
  l : LayoutWord
  off : Int
  plane : Bool
  ty : Nat

/-- Rows of pieces, and pieces of a row: planes of 64 words, or 64 rows of packed elements. -/
def MxOperand.size (o : MxOperand) : Nat × Nat :=
  if o.plane then ((planeOrder o.ty).length, 64) else (64, fmtBits o.ty)

def MxOperand.at_ (o : MxOperand) (p i : Nat) : Nat := pieceAddr o.l o.off o.plane p i

/-- Strides, BASE and OFFSET are multiples of 8, and every piece lies in the grant (17 R339). -/
def MxOperand.Fits (o : MxOperand) (len : Nat) : Prop :=
  o.l.base % 8 = 0 ∧ o.off % 8 = 0 ∧ (if o.plane then o.l.s0 % 8 = 0 ∧ o.l.s1 % 8 = 0 else o.l.s2 % 8 = 0)
    ∧ ∀ p, p < o.size.1 → ∀ i, i < o.size.2 → o.at_ p i + 8 ≤ len

/-- Element (x, y) of an operand in a grant at `base`: its bits from the planes, the hidden bit left out, or from its row. -/
def MxOperand.element (o : MxOperand) (spad : Memory) (base x y : Nat) : Nat :=
  let i := if o.l.orient then y else x
  let j := if o.l.orient then x else y
  let word := fun p q => leNat (spad.readBytes (base + o.at_ p q) 8)
  if o.plane then
    (((planeOrder o.ty).zip (List.range 17)).map (fun bp =>
      if bp.1 < 16 ∧ (word bp.2 i).testBit j then 2 ^ bp.1 else 0)).sum
  else
    let w := fmtBits o.ty
    word i (j * w / 64) / 2 ^ (j * w % 64) % 2 ^ w

/-- A scratchpad with an operand written: its pieces in ascending order of their indices, the hidden-bit plane among
them (17 R338; 12 R249). -/
def MxOperand.stored (o : MxOperand) (spad : Memory) (base : Nat) (f : Nat → Nat → Nat) : Memory :=
  let el := fun i j => if o.l.orient then f j i else f i j
  let hidden := fun v => if o.ty = 10 then v / 2 ^ 7 % 2 ^ 8 != 0 else v / 2 ^ 10 % 2 ^ 5 != 0
  let word : Nat → Nat → Nat := fun p q =>
    if o.plane then
      let b := (planeOrder o.ty).getD p 0
      ((List.range 64).map (fun j =>
        if (if b = 16 then hidden (el q j) else (el q j).testBit b) then 2 ^ j else 0)).sum
    else
      let w := fmtBits o.ty
      ((List.range (64 / w)).map (fun n => el p (q * (64 / w) + n) % 2 ^ w * 2 ^ (n * w))).sum
  (List.range o.size.1).foldl (fun m p => (List.range o.size.2).foldl (fun m q =>
    m.writeBytes (base + o.at_ p q) (leBytes 8 (word p q))) m) spad

/-- The tiles and the scratchpad operands that an engine operation names. -/
def mxNames (k : Ctx) (i : Instr) : Option (List Nat × List MxOperand) :=
  let pl : BitVec 6 → Nat → MxOperand := fun r ty => ⟨layoutOf k r, 0, true, ty⟩
  let el : BitVec 6 → Int → Nat → MxOperand := fun r off ty => ⟨layoutOf k r, off, false, ty⟩
  match i with
  | .mma f => some ([f.d.toNat], [pl f.a 10, pl f.b 10])
  | .mmaExt f x => some ([f.d.toNat], [pl f.a x.ty.toNat, pl f.b x.ty2.toNat])
  | .mmaq f x => some ([f.d.toNat], [pl f.a x.ty.toNat, pl f.b x.ty2.toNat])
  | .mzero f => some ([f.d.toNat], [])
  | .mld f | .mst f => some ([f.d.toNat], [el f.a 0 8])
  | .mldExt f m | .mstExt f m => some ([f.d.toNat], [el f.a m.off.toInt 8])
  | .mplane f => some ([], [el f.a 0 10, pl f.d 10])
  | .mplaneExt f x => some ([], [el f.a 0 x.ty.toNat, pl f.d x.ty.toNat])
  | .munplane f => some ([], [pl f.a 10, el f.d 0 10])
  | .munplaneExt f x => some ([], [pl f.a x.ty.toNat, el f.d 0 x.ty.toNat])
  | .mtr f => some ([f.d.toNat, f.a.toNat], [])
  | .madd f | .maddExt f _ => some ([f.d.toNat, f.a.toNat, f.b.toNat], [])
  | .mscale f | .mscaleExt f _ => some ([f.d.toNat, f.a.toNat], [])
  | _ => none

/-- The queue entry of an engine operation holds all that it read at issue (17 R340). -/
def MxWants (k : Ctx) (i : Instr) (o : MxOp) : Prop :=
  let two : OpF → Prop := fun f => o.d = f.d.toNat ∧ o.la = some (layoutOf k f.a) ∧ o.lb = some (layoutOf k f.b)
  let mem : OpF → Int → Prop := fun f off => o.d = f.d.toNat ∧ o.la = some (layoutOf k f.a) ∧ o.off = off
  let conv : OpF → Nat → Prop := fun f ty => o.ld = some (layoutOf k f.d) ∧ o.la = some (layoutOf k f.a) ∧ o.ty = ty
  let rounded : Nat → Bool → Prop := fun rnd sat => o.rnd = rnd ∧ o.sat = sat
  match i with
  | .mma f => o.kind = .mma ∧ two f ∧ o.ty = 10 ∧ o.ty2 = 10
  | .mmaExt f x => o.kind = .mma ∧ two f ∧ o.ty = x.ty.toNat ∧ o.ty2 = x.ty2.toNat
  | .mmaq f x => o.kind = .mmaq ∧ two f ∧ o.ty = x.ty.toNat ∧ o.ty2 = x.ty2.toNat ∧ o.sub = x.sub.toNat ∧ o.scales = k.scales
  | .mzero f => o.kind = .mzero ∧ o.d = f.d.toNat
  | .mld f => o.kind = .mld ∧ mem f 0
  | .mldExt f m => o.kind = .mld ∧ mem f m.off.toInt
  | .mst f => o.kind = .mst ∧ mem f 0
  | .mstExt f m => o.kind = .mst ∧ mem f m.off.toInt
  | .mplane f => o.kind = .mplane ∧ conv f 10
  | .mplaneExt f x => o.kind = .mplane ∧ conv f x.ty.toNat
  | .munplane f => o.kind = .munplane ∧ conv f 10
  | .munplaneExt f x => o.kind = .munplane ∧ conv f x.ty.toNat
  | .mtr f => o.kind = .mtr ∧ o.d = f.d.toNat ∧ o.a = f.a.toNat
  | .madd f => o.kind = .madd ∧ o.d = f.d.toNat ∧ o.a = f.a.toNat ∧ o.b = f.b.toNat ∧ rounded 0 false
  | .maddExt f x => o.kind = .madd ∧ o.d = f.d.toNat ∧ o.a = f.a.toNat ∧ o.b = f.b.toNat ∧ rounded x.rnd.toNat x.sat
  | .mscale f => o.kind = .mscale ∧ o.d = f.d.toNat ∧ o.a = f.a.toNat ∧ o.scalar = k.readS f.b.toNat ∧ rounded 0 false
  | .mscaleExt f x =>
    o.kind = .mscale ∧ o.d = f.d.toNat ∧ o.a = f.a.toNat ∧ o.scalar = k.readS f.b.toNat ∧ rounded x.rnd.toNat x.sat
  | _ => False

/-- One chunk of 32 exact products, rounded (12 R250). -/
def chunk (a b : Nat → FVal) : Nat := f32.rnd 0 (exactSum 0 ((List.range 32).map (fun j => mulExact (a j) (b j))))

/-- An f32 sum of two encodings, rounded to nearest even. -/
def plus (x y : Nat) : Nat := f32.rnd 0 (exactSum 0 [f32.val x, f32.val y])

/-- A scale entry's SCALE and ZP (17 R343). -/
def entryScale (m : SMap Word) (g e : Nat) : FVal := f16.val ((SMap.get 0 m (g * 64 + e)).setWidth 16).toNat
def entryZero (m : SMap Word) (g e bits : Nat) : Int := (((SMap.get 0 m (g * 64 + e)).extractLsb' 16 8).toNat % 2 ^ bits : Nat)

/-- One block of n elements from k0 on: the block sum, scaled and added (12 R251, R252). -/
def block (a w : Nat → Nat) (k0 n : Nat) (za zw : Int) (sa sw : FVal) (acc : Nat) : Nat :=
  let s : Int := ((List.range n).map (fun j => ((a (k0 + j) : Int) - za) * ((w (k0 + j) : Int) - zw))).sum
  plus acc (f32.rnd 0 (mulExact (FVal.ofInt s) (mulExact sa sw)))

/-- What the element (m, n) of an operation's tile becomes, from the tiles and the scratchpad as they stand. -/
def mxElement (k : Ctx) (spad : Memory) (o : MxOp) (m n : Nat) : Option Nat :=
  let base := k.spadBase
  let el : Option LayoutWord → Int → Bool → Nat → Nat → Nat → Option Nat := fun l off plane ty x y =>
    l.map (fun l => (MxOperand.mk l off plane ty).element spad base x y)
  let a := fun j => (el o.la 0 true o.ty m j).getD 0
  let b := fun j => (el o.lb 0 true o.ty2 j n).getD 0
  let old := k.tile o.d m n
  match o.kind with
  | .mzero => some 0
  | .mtr => some (k.tile o.a n m)
  | .madd => some (satFloat f32 o.sat (f32.rnd o.rnd (exactSum o.rnd [f32.val (k.tile o.a m n), f32.val (k.tile o.b m n)])))
  | .mscale => some (satFloat f32 o.sat (f32.rnd o.rnd (mulExact (f32.val (k.tile o.a m n)) (f32.val o.scalar.toNat))))
  | .mld => el o.la o.off false 8 m n
  | .mma =>
    let va := fun j => (floatFmt o.ty).val (a j)
    let vb := fun j => (floatFmt o.ty2).val (b j)
    some (plus (plus old (chunk va vb)) (chunk (fun j => va (32 + j)) (fun j => vb (32 + j))))
  | .mmaq =>
    let bits := fmtBits o.ty2
    let one := fun h k0 len acc => block a b k0 len (entryZero o.scales h m 8) (entryZero o.scales (2 + h) n bits)
      (entryScale o.scales h m) (entryScale o.scales (2 + h) n) acc
    some (if o.sub = 0 then one 1 32 32 (one 0 0 32 old) else one 0 0 64 old)
  | _ => none

/-- What the scratchpad becomes under `mst`, `mplane` and `munplane`. -/
def mxStored (k : Ctx) (spad : Memory) (o : MxOp) : Option Memory :=
  let base := k.spadBase
  match o.kind, o.la, o.ld with
  | .mst, some l, _ => some ((MxOperand.mk l o.off false 8).stored spad base (fun x y => k.tile o.d x y))
  | .mplane, some l, some d =>
    some ((MxOperand.mk d 0 true o.ty).stored spad base ((MxOperand.mk l 0 false o.ty).element spad base))
  | .munplane, some l, some d =>
    some ((MxOperand.mk d 0 false o.ty).stored spad base ((MxOperand.mk l 0 true o.ty).element spad base))
  | _, _, _ => none

/-- The pieces that an operation reads or writes lie in the grant. -/
def InGrant (o : MxOp) (len : Nat) : Prop :=
  (∀ l, o.la = some l → (o.kind = .mma ∨ o.kind = .mmaq ∨ o.kind = .munplane → (MxOperand.mk l 0 true o.ty).Fits len)
    ∧ (o.kind = .mld ∨ o.kind = .mst → (MxOperand.mk l o.off false 8).Fits len)
    ∧ (o.kind = .mplane → (MxOperand.mk l 0 false o.ty).Fits len))
  ∧ (∀ l, o.lb = some l → (MxOperand.mk l 0 true o.ty2).Fits len)
  ∧ (∀ l, o.ld = some l → (MxOperand.mk l 0 (o.kind == .mplane) o.ty).Fits len)

/-- `scl`: fields, WIDTH and OFFSET; b64 and 0 in the one-word form. -/
def sclForm (i : Instr) : Option (OpF × Nat × Int) :=
  match i with
  | .scl f => some (f, 3, 0)
  | .sclExt f m => some (f, m.width.toNat, m.off.toInt)
  | _ => none

/-- Batch m is earlier than or equal to batch n (17 R351). -/
def notLater (m n : Nat) : Prop := (n + 2 ^ 16 - m) % 2 ^ 16 < 2 ^ 15

/-- The closed batches of a context that have operations not yet completed. -/
def openOf (s : State) : List Nat :=
  (((s.core s.cur.core).mxQ.filter (fun o => o.ctx == s.cur.ctx && o.batch != s.cc.batchNext)).map (·.batch)).eraseDups

/-- An issue that changes nothing but its context, which it leaves as given but for its own marks. -/
def OnlyIssue (s : State) (o : Out) (k : Ctx) : Prop :=
  ∃ k', o = .next (s.setCtx s.cur.core s.cur.ctx k') ∧ k'.IssuedFrom k

end Sys2Proof.Claims

/-- 17 R340 with R337, R339: every engine operation of the matrix family, with its operands in the grant, its tiles free and
room in the queue, completes its issue: it enters the core's matrix queue with what it read, and changes no tile, no
register, no scratchpad byte and no memory. In SIMT mode this is stated for a packet without matrix teams. -/
def Obligations.MatrixOperationsQueue : Prop :=
  ∀ (s : State) (i : Instr) (n : Info) (ts : List Nat) (os : List MxOperand), WellFormed i = true → info i = some n →
    mxNames (s.opEnv n).k i = some (ts, os) → Ready s n → (s.opEnv n).first = true → (s.cc.vliw = true ∨ s.mxTeam s.cc = 0) →
    s.undoRoom n → Quiet s → Untraced s → (s.core s.cur.core).mxQ.length < 16 →
    (∀ p ∈ (s.core s.cur.core).mxQ, p.ctx ≠ s.cur.ctx) → (s.core s.cur.core).tilesUse.length + ts.length ≤ 8 →
    s.cc.spilled = 0 → (∀ o ∈ os, o.Fits s.cc.spadLen) →
    ∃ t o, exec i s = .next t ∧ (t.core s.cur.core).mxQ = (s.core s.cur.core).mxQ ++ [o] ∧ MxWants (s.opEnv n).k i o
      ∧ o.core = s.cur.core ∧ o.ctx = s.cur.ctx ∧ o.batch = s.cc.batchNext ∧ o.closed = false ∧ t.mem = s.mem
      ∧ (t.core s.cur.core).spad = (s.core s.cur.core).spad ∧ t.cc.tiles = s.cc.tiles ∧ SameRegisters s t

/-- 17 R345 to R349 with 12 R249 to R252: when the engine completes the operation at the head of a core's queue, every
element of its tile is what the rules give: 0, the transpose, the rounded sum or product, the element loaded, the two
chunks of a float multiply, or the one or two blocks of a quantised one. Every other tile, the scratchpad and memory
stand. -/
def Obligations.MatrixTileResults : Prop :=
  ∀ (s : State) (c : Nat) (o : MxOp) (r : List MxOp), (s.core c).mxQ = o :: r → o.core = c → (s.ctx c o.ctx).live = true →
    (∃ p ∈ (s.ctx c o.ctx).flows, p.2.masks ≠ []) → (s.core c).spad.wf = true → InGrant o (s.ctx c o.ctx).spadLen →
    o.d < 8 → o.a < 8 → o.b < 8 → (∀ p ∈ (s.ctx c o.ctx).tiles, p.1 < 32768) →
    (s.ctx c o.ctx).tiles.Pairwise (fun p q => p.1 < q.1) →
    (o.kind = .mld ∨ o.kind = .mma ∨ o.kind = .mmaq → o.la.isSome) → (o.kind = .mma ∨ o.kind = .mmaq → o.lb.isSome) →
    (∃ m n v, mxElement (s.ctx c o.ctx) (s.core c).spad o m n = some v) →
    ∃ t, exec (.matrixOpComplete c) s = .next t ∧ (t.core c).mxQ = r ∧ t.mem = s.mem ∧ (t.core c).spad = (s.core c).spad
      ∧ (∀ m n, m < 64 → n < 64 →
          mxElement (s.ctx c o.ctx) (s.core c).spad o m n = some ((t.ctx c o.ctx).tile o.d m n))
      ∧ ∀ q m n, q < 8 → q ≠ o.d → m < 64 → n < 64 → (t.ctx c o.ctx).tile q m n = (s.ctx c o.ctx).tile q m n

/-- 17 R338, R348, R350: `mst`, `mplane` and `munplane` write their operand to the scratchpad when they complete, all of it
read before, the higher piece standing where pieces coincide; no tile changes, and no memory. -/
def Obligations.MatrixScratchpadResults : Prop :=
  ∀ (s : State) (c : Nat) (o : MxOp) (r : List MxOp) (m : Memory), (s.core c).mxQ = o :: r → o.core = c →
    (s.ctx c o.ctx).live = true → (∃ p ∈ (s.ctx c o.ctx).flows, p.2.masks ≠ []) → (s.core c).spad.wf = true →
    InGrant o (s.ctx c o.ctx).spadLen → (∀ x y, (s.ctx c o.ctx).tile o.d x y < 2 ^ 32) →
    mxStored (s.ctx c o.ctx) (s.core c).spad o = some m →
    ∃ t, exec (.matrixOpComplete c) s = .next t ∧ (t.core c).mxQ = r ∧ (t.core c).spad = m ∧ t.mem = s.mem
      ∧ (t.ctx c o.ctx).tiles = (s.ctx c o.ctx).tiles


/-- 17 R343, R344: `scl` completes with latency 5: sixteen entries of a scale register, 16 q on, receive the 16 low bits
of the 2 B read, or the 24 low bits of the 4 or 8 B read; the arrivals that the context's groups have made note it. 17 R351, R352: `mbatch` completes: D receives BATCH_NEXT, which
goes on by 1 modulo 2^16; `mwait` of a closed batch completes, changing nothing, once no batch earlier than or equal to it
has an operation left, and `mwait k` once at most k closed batches have. -/
def Obligations.ScalesAndBatches : Prop :=
  (∀ (s : State) (i : Instr) (n : Info) (f : OpF) (w : Nat) (off : Int), WellFormed i = true → info i = some n →
      sclForm i = some (f, w, off) → Ready s n → (s.opEnv n).first = true → s.undoRoom n → NothingPending s n →
      let k := (s.opEnv n).k
      let base := ((((k.readS f.a.toNat).toNat : Nat) + off) % 2 ^ 32).toNat
      base % 2 ^ w = 0 → base + 16 * 2 ^ w ≤ k.spadLen →
      let ws : List Write := (List.range 16).map (fun e =>
        ⟨.scale f.d.toNat (16 * f.b.toNat + e),
          BitVec.ofNat 32 (leNat ((s.core s.cur.core).spad.readBytes (k.spadBase + base + 2 ^ w * e) (2 ^ w)) %
            2 ^ (if w = 1 then 16 else 24))⟩)
      OnlyIssue s (exec i s) { (s.cc.deliver s.cycle 5 ws).afterIssue with
        mxArr := s.cc.mxArr.map (fun a => { a with scl := true }) })
  ∧ ((∀ (s : State) (f : OpF) (n : Info), info (.mbatch f) = some n → Ready s n → (s.opEnv n).first = true → s.undoRoom n →
      ∃ t, exec (.mbatch f) s = .next t ∧ (s.settled t 1).readS f.d.toNat = BitVec.ofNat 32 s.cc.batchNext
        ∧ t.cc.batchNext = (s.cc.batchNext + 1) % 2 ^ 16)
    ∧ (∀ (s : State) (f : OpF) (n : Info), info (.mwait f) = some n → Ready s n → (s.opEnv n).first = true → s.undoRoom n →
      let b := (((s.opEnv n).k.readS f.a.toNat).setWidth 16).toNat
      ¬ notLater s.cc.batchNext b → (∀ m ∈ openOf s, ¬ notLater m b) → IssueGives s (exec (.mwait f) s) s)
    ∧ (∀ (s : State) (f : OpF) (n : Info), info (.mwaitImm f) = some n → Ready s n → (s.opEnv n).first = true → s.undoRoom n →
      (openOf s).length ≤ f.b.toNat → IssueGives s (exec (.mwaitImm f) s) s))

namespace Sys2Proof.Claims

/-! ### Engine commands (18 R354 to R370, R414) -/

/-- What a command enters: its queue, its op and the object it notifies. -/
structure Entry where
  queue : Nat
  op : EngOp
  notify : Option Nat

/-- A notify field with VALID 1 names the object at 32 times its index (18 R355). -/
def notifies (n : Nat) : Option Nat := if n.testBit 16 then some (n % 2 ^ 16 * 32) else none

/-- The bytes of a descriptor in the own grant. -/
def descBytes (s : State) (k : Ctx) (off n : Nat) : List Byte := (s.core s.cur.core).spad.readBytes (k.spadBase + off) n

/-- A field of a descriptor, and a signed one. -/
def fld (bs : List Byte) (off n : Nat) : Nat := leNat ((bs.drop off).take n)
def sfld (bs : List Byte) (off : Nat) : Int := (BitVec.ofNat 32 (fld bs off 4)).toInt

/-- The copy that a 160 B descriptor asks for (18 R359). -/
def copyAsked (bs : List Byte) : CopyDesc :=
  { src := fld bs 0 8, dst := fld bs 8 8, sspace := fld bs 16 1, dspace := fld bs 17 1, elem := fld bs 18 1
    dims := (List.range (fld bs 19 1)).map (fun d => (fld bs (32 + 12 * d) 4, sfld bs (36 + 12 * d), sfld bs (40 + 12 * d))) }

/-- The gather that a 64 B descriptor and its index list ask for (18 R363). -/
def gatherAsked (bs : List Byte) (idx : List Nat) : GatherDesc :=
  { table := fld bs 0 8, tstride := fld bs 8 8, idx := idx, rowBytes := fld bs 24 4, local_ := fld bs 28 4
    lstride := fld bs 32 4, etype := fld bs 36 1, nblk := fld bs 37 1, scales := fld bs 40 8, sstride := fld bs 48 8
    slocal := fld bs 56 4 }

/-- The collective that a 64 B descriptor asks for (18 R365). -/
def collAsked (bs : List Byte) (off : Nat) : CollDesc :=
  { src := fld bs 0 8, dst := fld bs 8 8, count := fld bs 16 4, tag := fld bs 20 4, ndev := fld bs 24 2, rank := fld bs 26 2
    red := fld bs 28 1, root := fld bs 30 2, list := fld bs 32 8, status := off + 44 }

/-- The linear copy of `cpyl` (18 R362). -/
def linearAsked (k : Ctx) (f : OpF) : CopyDesc :=
  let w := (k.readS (f.b.toNat + 1)).toNat
  { src := (k.readS (f.a.toNat + 1) ++ k.readS f.a.toNat).toNat, dst := (k.readS (f.d.toNat + 1) ++ k.readS f.d.toNat).toNat
    sspace := w / 2 ^ 18 % 4, dspace := w / 2 ^ 20 % 4, elem := 2, dims := [((k.readS f.b.toNat).toNat / 4, 4, 4)] }

/-- The gather commands. -/
def engGather (i : Instr) : Option (GatherKind × OpF) :=
  match i with
  | .gat f => some (.gat, f)
  | .gatPlane f _ => some (.plane, f)
  | .sct f => some (.sct, f)
  | .gpl f => some (.gpl, f)
  | _ => none

/-- The head of an engine queue that is not stopped (18 R354, R357). -/
def headOf (s : State) (c x q : Nat) (cmd : EngCmd) : Prop :=
  SMap.find? (s.ctx c x).eqStopped q = none ∧ ∃ r, SMap.get [] (s.ctx c x).eq q = cmd :: r

/-- What each command enters in a queue. -/
def engineEntry (s : State) (k : Ctx) (i : Instr) : Option Entry :=
  let at_ : OpF → Nat := fun f => (k.readS f.a.toNat).toNat
  let compl : OpF → Nat := fun f => (k.readS f.b.toNat).toNat
  let note : OpF → Option Nat := fun f => notifies (k.readS (f.b.toNat + 1)).toNat
  let copy : OpF → Bool → Option Entry := fun f plane =>
    let bs := descBytes s k (at_ f) 160
    some ⟨0, .copy (copyAsked bs) plane, notifies (fld bs 20 4)⟩
  let gather : GatherKind → OpF → Option Entry := fun kind f =>
    let bs := descBytes s k (at_ f) 64
    let n := fld bs 20 4
    let ids := descBytes s k (fld bs 16 4) (4 * n)
    some ⟨1, .gather kind (gatherAsked bs ((List.range n).map (fun i => fld ids (4 * i) 4))), notifies (fld bs 60 4)⟩
  match i with
  | .cpy f => copy f false
  | .cpyPlane f _ => copy f true
  | .cpyl f => some ⟨0, .copy (linearAsked k f) false, notifies ((k.readS (f.b.toNat + 1)).toNat % 2 ^ 17)⟩
  | .gat f => gather .gat f
  | .gatPlane f _ => gather .plane f
  | .sct f => gather .sct f
  | .gpl f => gather .gpl f
  | .coll f x =>
    let bs := descBytes s k (at_ f) 64
    some ⟨2, .coll x.sub.toNat x.ty.toNat (collAsked bs (at_ f)), notifies (fld bs 40 4)⟩
  | .qfence f => some ⟨0, .fence ((k.readS f.a.toNat).setWidth 4), none⟩
  | .qfenceImm f => some ⟨0, .fence (f.b.setWidth 4), none⟩
  | .send f => some ⟨3, .send (at_ f) (compl f), note f⟩
  | .launch f =>
    some ⟨3, .launch (k.readS f.d.toNat).toNat (k.readS (f.a.toNat + 1) ++ k.readS f.a.toNat).toNat (compl f), note f⟩
  | _ => none

/-- The checks at issue find nothing (18 R359, R361 to R366, R369, R370, R414). -/
def engineChecks (s : State) (k : Ctx) (i : Instr) : Prop :=
  let at_ : OpF → Nat := fun f => (k.readS f.a.toNat).toNat
  let placed : OpF → Nat → Prop := fun f n => at_ f % 32 = 0 ∧ at_ f + n ≤ k.spadLen
  let notified : Nat → Prop := fun n => n < 2 ^ 17 ∧ ∀ o, notifies n = some o → o + 32 ≤ k.spadLen
  let copy : OpF → Bool → Prop := fun f plane =>
    let bs := descBytes s k (at_ f) 160
    placed f 160 ∧ copyBad bs plane = false ∧ firstBad (s.copyChecks k (copyAsked bs) plane (fld bs 20 4)) = none
  let completion : OpF → Prop := fun f =>
    (k.readS f.b.toNat).toNat % 8 = 0 ∧ (k.readS f.b.toNat).toNat + 8 ≤ k.spadLen ∧ notified (k.readS (f.b.toNat + 1)).toNat
  match i with
  | .cpy f => copy f false
  | .cpyPlane f _ => copy f true
  | .cpyl f =>
    let w := (k.readS (f.b.toNat + 1)).toNat
    let len := (k.readS f.b.toNat).toNat
    let d := linearAsked k f
    d.sspace ≠ 3 ∧ d.dspace ≠ 3 ∧ w / 2 ^ 22 = 0 ∧ w.testBit 17 = false ∧ len % 4 = 0 ∧ len < 2 ^ 31
      ∧ (d.sspace ≠ 2 → d.src < 2 ^ 32) ∧ (d.dspace ≠ 2 → d.dst < 2 ^ 32)
      ∧ firstBad (s.copyChecks k d false (w % 2 ^ 17)) = none
  | .gat f | .gatPlane f _ | .sct f | .gpl f =>
    let bs := descBytes s k (at_ f) 64
    let d := gatherAsked bs []
    let n := fld bs 20 4
    placed f 64 ∧ notified (fld bs 60 4) ∧ bs.getD 38 0 = 0 ∧ bs.getD 39 0 = 0 ∧ 1 ≤ n
      ∧ fld bs 16 4 % 4 = 0 ∧ fld bs 16 4 + 4 * n ≤ k.spadLen ∧ d.table % 4 = 0 ∧ d.tstride % 4 = 0
      ∧ d.scales % 4 = 0 ∧ d.sstride % 4 = 0 ∧ d.slocal % 4 = 0
      ∧ ∀ kind g, engGather i = some (kind, g) →
        (if kind = .gat ∨ kind = .sct then
          n ≤ 65535 ∧ 4 ≤ d.rowBytes ∧ d.rowBytes ≤ 65536 ∧ d.rowBytes % 4 = 0 ∧ n * d.rowBytes < 2 ^ 31 ∧ d.etype = 0 ∧ d.nblk = 0
            ∧ d.local_ % 4 = 0 ∧ d.lstride % 4 = 0
            ∧ ∀ r, r < n → (d.local_ + r * d.lstride) % 2 ^ 32 + d.rowBytes ≤ k.spadLen
        else
          n ≤ 64 ∧ d.rowBytes = 0 ∧ d.lstride = 0 ∧ 9 ≤ d.etype ∧ d.etype ≤ 13 ∧ d.nblk ≤ (if kind = .gpl then 2 else 0)
            ∧ d.local_ % 8 = 0 ∧ d.local_ + 512 * planeCount d.etype ≤ k.spadLen
            ∧ (d.nblk ≠ 0 → d.slocal + 256 * d.nblk ≤ k.spadLen))
  | .coll f x =>
    let bs := descBytes s k (at_ f) 64
    let d := collAsked bs (at_ f)
    let w := if x.ty = 9 ∨ x.ty = 10 then 2 else 4
    let out := if x.sub = 1 then d.count / d.ndev else if x.sub = 2 then d.count * d.ndev else d.count
    placed f 64 ∧ notified (fld bs 40 4) ∧ 1 ≤ d.ndev ∧ d.ndev ≤ 16384 ∧ d.rank < d.ndev ∧ bs.getD 29 0 = 0 ∧ fld bs 48 16 = 0
      ∧ d.red ≤ (if x.sub.toNat ≤ 1 then 2 else 0) ∧ (x.sub = 4 → d.root < d.ndev) ∧ (x.sub ≠ 4 → d.root = 0)
      ∧ (x.sub = 1 ∨ x.sub = 3 → d.count % d.ndev = 0) ∧ out * w < 2 ^ 31
      ∧ d.src % w = 0 ∧ d.dst % w = 0 ∧ d.list % 4 = 0
  | .qfence f => (k.readS f.a.toNat).setWidth 4 ≠ 0#4
  | .qfenceImm f => f.b.setWidth 4 ≠ 0#4
  | .send f =>
    placed f 32 ∧ at_ f + 32 + fld (descBytes s k (at_ f) 4) 2 2 ≤ k.spadLen ∧ completion f
  | .launch f => completion f
  | _ => False

/-- `coll`, `send` and `launch` close the interval and are refused to tasks (06 R127; 08 R158). -/
def closesInterval (i : Instr) : Prop := (∃ f x, i = .coll f x) ∨ (∃ f, i = .send f) ∨ ∃ f, i = .launch f

end Sys2Proof.Claims


/-- 18 R368: `qstat` completes with latency 1: D receives the number of entries of queue s[A] mod 4 that are issued and not
performed, at most 65,535, with bit 16 where the queue is stopped. -/
def Obligations.QueueStatus : Prop :=
  (∀ (s : State) (f : OpF) (n : Info), info (.qstat f) = some n → Ready s n → (s.opEnv n).first = true → s.undoRoom n →
    let q := ((s.opEnv n).k.readS f.a.toNat).toNat % 4
    let load := ((s.cc.eq.filter (fun p => p.1 == q)).flatMap Prod.snd).length
      + (s.cc.held.filter (fun c => match c.op with
          | .fence m => m.getLsbD q
          | _ => c.queue == q)).length
    s.cc.eq.Pairwise (fun a b => a.1 < b.1) →
    IssueWrites s (exec (.qstat f) s) 1
      (sw f.d (BitVec.ofNat 32 (min load 65535 + if (SMap.find? s.cc.eqStopped q).isSome then 65536 else 0))))

/-- 18 R354, R359, R361 to R366, R368 to R370: an engine command whose operands pass its checks completes its issue: one
entry with all that its descriptor, registers and index list ask for joins the commands that the interval holds, under the
next number; no register, no scratchpad byte and no memory changes. That is the whole effect R354 gives the instruction; at the close
of the interval the command stands at the head of its empty queue (08 R173), from where the engine carries it out. `coll`, `send` and `launch` are stated for a plain
team whose interval holds nothing to perform. 18 R414 with R354, R359: a `cpy` whose descriptor is misplaced traps, in
this order: cause 0x06 where s[A] is no multiple of 32, cause 0x0E with DETAIL 0x1 and no address (log 14) where the 160 B leave the
grant, cause 0x02 with DETAIL 0x40 where a field is outside its range. 08 R172, 18 R367: a `qfence` of no queue is over at once. -/
def Obligations.EngineCommandsIssue : Prop :=
  (∀ (s : State) (i : Instr) (n : Info) (en : Entry), WellFormed i = true → info i = some n →
      engineEntry s (s.opEnv n).k i = some en → engineChecks (s.opState n) (s.opEnv n).k i → Ready s n →
      (s.opEnv n).first = true → s.undoRoom n → NothingPending s n → s.cc.held.length < Config.engMax →
      (closesInterval i → Quiet s ∧ Untraced s ∧ NoneParked s ∧ s.cc.peerFailed = none ∧ s.cc.task = none) →
      ∃ t, exec i s = .next t
        ∧ t.cc.held = s.cc.held ++ [{ id := s.cc.nextCmd, queue := en.queue, op := en.op, site := (s.opEnv n).addr
                                      notify := en.notify, flow := s.cur.flow }]
        ∧ t.cc.nextCmd = s.cc.nextCmd + 1 ∧ (closesInterval i → t.cc.idem = false) ∧ t.mem = s.mem
        ∧ (t.core s.cur.core).spad = (s.core s.cur.core).spad ∧ SameRegisters s t
        ∧ (Quiet s → Untraced s → SMap.get [] s.cc.eq en.queue = [] → SMap.find? s.cc.eqStopped en.queue = none →
            (∀ m, en.op ≠ .fence m) → ∃ cmd, headOf (t.closeInterval s.cur.core s.cur.ctx) s.cur.core s.cur.ctx en.queue cmd
              ∧ cmd.id = s.cc.nextCmd ∧ cmd.op = en.op ∧ cmd.notify = en.notify ∧ cmd.done = 0))
  ∧ (∀ (s : State) (f : OpF) (n : Info), info (.cpy f) = some n → Ready s n → (s.opEnv n).first = true → NothingPending s n →
      let k := (s.opEnv n).k
      let a := (k.readS f.a.toNat).toNat
      let bs := descBytes s k a 160
      (a % 32 ≠ 0 → TrapsWith s (exec (.cpy f) s) (fun r => r.cause = 0x06 ∧ r.fault = BitVec.ofNat 64 a))
      ∧ (a % 32 = 0 → k.spadLen < a + 160 →
          TrapsWith s (exec (.cpy f) s) (fun r => r.cause = 0x0E ∧ r.detail = 0x1 ∧ r.fault = 0))
      ∧ (a % 32 = 0 → a + 160 ≤ k.spadLen →
          (2 < fld bs 16 1 ∨ 2 < fld bs 17 1 ∨ 4 < fld bs 18 1 ∨ fld bs 19 1 < 1 ∨ 10 < fld bs 19 1 ∨ fld bs 24 8 ≠ 0
            ∨ fld bs 152 8 ≠ 0 ∨ 2 ^ 17 ≤ fld bs 20 4) →
          TrapsWith s (exec (.cpy f) s) (fun r => r.cause = 0x02 ∧ r.detail = 0x40)))
  ∧ (∀ (s : State) (i : Instr) (n : Info), info i = some n → Ready s n → (s.opEnv n).first = true → s.undoRoom n →
    ((∃ f, i = .qfence f ∧ ((s.opEnv n).k.readS f.a.toNat).setWidth 4 = 0#4) ∨ ∃ f, i = .qfenceImm f ∧ f.b.setWidth 4 = 0#4) →
    IssueGives s (exec i s) s)

namespace Sys2Proof.Claims

/-! ### Control flow of SIMT code (05 R98 to R102; 14 R273 to R279, R283, R284, R286) -/

/-- Does a mask hold a lane, numbered over all groups? -/
def laneIn (m : SMap Word) (l : Nat) : Bool := (maskOf m (l / 32)).getLsbD (l % 32)

/-- Masks by ascending group, none of them empty. -/
def MaskForm (m : SMap Word) : Prop := m.Pairwise (fun p q => p.1 < q.1) ∧ ∀ p ∈ m, p.2 ≠ 0 ∧ p.1 < 32

/-- Did the guard hold for a lane, in this pass or in an earlier one of the stop group (14 R273)? -/
def judged (s : State) (n : Info) (l : Nat) : Bool :=
  (s.opEnv n).lanes.contains l || (match s.cf.group with
    | some g => laneIn g.taken l
    | none => false)

/-- The lanes of the issuing flow for which the guard held, and the others. -/
def takers (s : State) (n : Info) : List Nat := (List.range 1024).filter (fun l => laneIn s.cf.masks l && judged s n l)
def stayers (s : State) (n : Info) : List Nat := (List.range 1024).filter (fun l => laneIn s.cf.masks l && !judged s n l)

/-- The last pass of a flow: its masks are in form, and what earlier passes noted are lanes of it. -/
def LastPass (s : State) (n : Info) : Prop :=
  (s.opEnv n).last = true ∧ MaskForm s.cf.masks ∧ (∀ l, judged s n l = true → laneIn s.cf.masks l = true)
    ∧ ∀ g, s.cf.group = some g → MaskForm g.taken

/-- A step that changes nothing but its context. -/
def OnlyContext (s : State) (o : Out) (p : Ctx → Prop) : Prop := ∃ k, o = .next (s.setCtx s.cur.core s.cur.ctx k) ∧ p k

/-- No register changes. -/
def KeepsRegisters (k k' : Ctx) : Prop :=
  ∀ r l, k'.readV r l = k.readV r l ∧ k'.readS r = k.readS r ∧ k'.readP r l = k.readP r l ∧ k'.ps = k.ps

/-- A flow stands at an address, outside every stop group, and may issue. -/
def FlowAt (k : Ctx) (f : Nat) (pc : Word) : Prop :=
  (k.flow f).pc = pc ∧ (k.flow f).group = none ∧ (k.flow f).wait = .none

/-- The lanes of a flow are those of a list. -/
def FlowLanes (k : Ctx) (f : Nat) (ls : List Nat) : Prop := ∀ l, laneIn (k.flow f).masks l = ls.contains l

/-- A lane of a flow has come to an address: in the flow, in a fragment that the instruction made, or in a deferred path of
a seam entry that it pushed. -/
def LaneGoes (s : State) (k : Ctx) (l : Nat) (pc : Word) : Prop :=
  (laneIn (k.flow s.cur.flow).masks l = true ∧ (k.flow s.cur.flow).pc = pc)
  ∨ (∃ f, f ∉ SMap.keys s.cc.flows ∧ laneIn (k.flow f).masks l = true ∧ (k.flow f).pc = pc)
  ∨ ∃ e ∈ k.seams.drop s.cc.seams.length, ∃ m ld, e.deferred = .waiting pc m ld ∧ laneIn m l = true

/-- A flow's return stack, top first: the main flow's, or a fragment's overlay. -/
def retStack (k : Ctx) (f : Nat) : List RetEntry := if f = 255 then k.ras.reverse else (k.flow f).overlay

/-- Room for one more return address without a spill. -/
def RetRoom (k : Ctx) (f : Nat) : Prop := if f = 255 then k.ras.length < 16 else (k.flow f).overlay.length < 4

end Sys2Proof.Claims

/-- 14 R273 with 05 R98 to R100: a SIMT `bra`, once every pass is judged, completes: with no lane taken the flow goes on
behind it, with every lane taken at its target; otherwise the larger side stays in the flow, the taken one on a tie, the
other becomes a fragment, or a deferred path where no fragment entry is free, and one seam entry names the branch's SEAM. -/
def Obligations.SimtBranches : Prop :=
  ∀ (s : State) (f : OpF) (imm : Word) (n : Info), WellFormed (.bra f imm) = true → info (.bra f imm) = some n → SimtReady s n →
    LastPass s n → Untraced s →
    let o := exec (.bra f imm) s
    let after := (s.opEnv n).addr + 8
    let seam := (f.d ++ f.a ++ f.b).setWidth 32
    let stay := decide ((stayers s n).length ≤ (takers s n).length)
    let large := if stay then takers s n else stayers s n
    let small := if stay then stayers s n else takers s n
    let largeAt := if stay then imm else after
    let smallAt := if stay then after else imm
    (takers s n = [] → OnlyContext s o (fun k =>
      KeepsRegisters s.cc k ∧ FlowAt k s.cur.flow after ∧ (k.flow s.cur.flow).masks = s.cf.masks ∧ k.seams = s.cc.seams))
    ∧ (takers s n ≠ [] → stayers s n = [] → OnlyContext s o (fun k =>
      KeepsRegisters s.cc k ∧ FlowAt k s.cur.flow imm ∧ (k.flow s.cur.flow).masks = s.cf.masks ∧ k.seams = s.cc.seams))
    ∧ (takers s n ≠ [] → stayers s n ≠ [] → s.cc.seams.length < 16 →
      (∀ m, (s.core s.cur.core).freeFragment s.cur.ctx = some m → OnlyContext s o (fun k =>
        KeepsRegisters s.cc k ∧ FlowAt k s.cur.flow largeAt ∧ FlowLanes k s.cur.flow large ∧ FlowAt k m smallAt ∧ FlowLanes k m small
          ∧ k.seams = s.cc.seams ++ [{ addr := seam, owner := s.cur.flow, created := m, union := s.cf.masks
                                       calls := (s.cc.services s.cur.flow).length }]))
      ∧ ((s.core s.cur.core).freeFragment s.cur.ctx = none → OnlyContext s o (fun k =>
        KeepsRegisters s.cc k ∧ FlowAt k s.cur.flow largeAt ∧ FlowLanes k s.cur.flow large
          ∧ ∃ m, (∀ l, laneIn m l = small.contains l) ∧ k.seams = s.cc.seams ++
            [{ addr := seam, owner := s.cur.flow, created := 0xFE, union := s.cf.masks, deferred := .waiting smallAt m none
               calls := (s.cc.services s.cur.flow).length }])))

/-- 14 R275, R278: a SIMT `brx` completes: every lane for which the guard holds goes to its own target in v[A], every
other lane of the flow behind the `brx`; the flow keeps no fewer lanes than go to any one address, and every seam entry
that is pushed names s[B]. -/
def Obligations.SimtIndirectBranches : Prop :=
  ∀ (s : State) (f : OpF) (n : Info), info (.brx f) = some n → SimtReady s n → LastPass s n → Untraced s →
    let e := s.opEnv n
    let seam := e.k.readS f.b.toNat
    seam.toNat < 2 ^ 18 → seam.toNat % 4 = 0 → (∀ l ∈ e.lanes, (e.k.readV f.a.toNat l).toNat % 4 = 0) →
    let dest : Nat → Word := fun l => if judged s n l then e.k.readV f.a.toNat l else e.addr + 4
    let lanes := (List.range 1024).filter (laneIn s.cf.masks)
    s.cc.seams.length + ((lanes.map dest).eraseDups).length ≤ 17 →
    OnlyContext s (exec (.brx f) s) (fun k =>
      KeepsRegisters s.cc k ∧ (k.flow s.cur.flow).group = none ∧ (∀ l ∈ lanes, LaneGoes s k l (dest l))
        ∧ (lanes ≠ [] → ∀ a, (lanes.filter (fun l => dest l == a)).length ≤
            (lanes.filter (fun l => dest l == (k.flow s.cur.flow).pc)).length)
        ∧ ∀ en ∈ k.seams.drop s.cc.seams.length, en.addr = seam ∧ en.owner = s.cur.flow)

/-- 14 R277: SIMT `call` and `callx` complete: the return address, behind the instruction, tops the flow's return stack
and the flow goes on at the target; the lanes of a `callx` with differing targets are served from the lowest target up, and
their entry keeps the lanes that are still to go. `ret` pops: the flow goes on at the address popped, at the next target of
a service with its lanes, or behind the `callx` with the lanes that it had. -/
def Obligations.SimtCalls : Prop :=
  (∀ (s : State) (f : OpF) (imm : Word) (n : Info), WellFormed (.call f imm) = true → info (.call f imm) = some n → SimtReady s n →
    (s.opEnv n).last = true → RetRoom s.cc s.cur.flow →
    OnlyContext s (exec (.call f imm) s) (fun k => KeepsRegisters s.cc k ∧ FlowAt k s.cur.flow imm
      ∧ retStack k s.cur.flow = { addr := (s.opEnv n).addr + 8 } :: retStack s.cc s.cur.flow))
  ∧ (∀ (s : State) (f : OpF) (n : Info) (a : Word), info (.callx f) = some n → SimtReady s n → LastPass s n → Untraced s →
    RetRoom s.cc s.cur.flow → (∃ l, laneIn s.cf.masks l = true) →
    (∀ l ∈ (s.opEnv n).lanes, ((s.opEnv n).k.readV f.a.toNat l).toNat % 4 = 0) →
    let target := fun l => (s.opEnv n).k.readV f.a.toNat l
    (∃ l, laneIn s.cf.masks l = true ∧ target l = a) →
    (∀ l, laneIn s.cf.masks l = true → a.toNat ≤ (target l).toNat) →
    OnlyContext s (exec (.callx f) s) (fun k => KeepsRegisters s.cc k ∧ FlowAt k s.cur.flow a
      ∧ (∀ l, laneIn (k.flow s.cur.flow).masks l = (laneIn s.cf.masks l && target l == a))
      ∧ ∃ sv, retStack k s.cur.flow = { addr := (s.opEnv n).addr + 4, service := sv } :: retStack s.cc s.cur.flow
        ∧ ((∀ l, laneIn s.cf.masks l = true → target l = a) → sv = none)
        ∧ ∀ v, sv = some v → v.masks = s.cf.masks
            ∧ ∀ l, (laneIn s.cf.masks l = true ∧ target l ≠ a) ↔ ∃ p ∈ v.rest, p.1 = target l ∧ laneIn p.2 l = true))
  ∧ (∀ (s : State) (f : OpF) (n : Info) (e : RetEntry) (r : List RetEntry), info (.ret f) = some n → SimtReady s n →
    (s.opEnv n).last = true → Untraced s → retStack s.cc s.cur.flow = e :: r → e.addr.toNat % 4 = 0 →
    OnlyContext s (exec (.ret f) s) (fun k => KeepsRegisters s.cc k ∧ (k.flow s.cur.flow).group = none
      ∧ (e.service = none → retStack k s.cur.flow = r ∧ (k.flow s.cur.flow).pc = e.addr ∧ (k.flow s.cur.flow).masks = s.cf.masks)
      ∧ (∀ v, e.service = some v → v.rest = [] →
          retStack k s.cur.flow = r ∧ (k.flow s.cur.flow).pc = e.addr ∧ (k.flow s.cur.flow).masks = v.masks)
      ∧ ∀ v t m q, e.service = some v → v.rest = (t, m) :: q → (k.flow s.cur.flow).pc = t
          ∧ (k.flow s.cur.flow).landing = some (v.site, 0)
          ∧ (∀ l, laneIn (k.flow s.cur.flow).masks l = (laneIn m l && laneIn v.masks l))
          ∧ retStack k s.cur.flow = { e with service := some { v with rest := q } } :: r))

/-- 05 R101 with 14 R279, R286, 05 R109: a `seam` that the flow's innermost entry does not name does nothing; at one that it
names the flow waits, and the two parts of the only entry merge and go on behind it when the second arrives; `yield` sets
the yield flag; `exit` ends the lanes for which the guard held: a flow that keeps lanes goes on, and a plain team whose last
lanes end is no more on the core. -/
def Obligations.SeamsYieldAndExit : Prop :=
  (∀ (s : State) (f : OpF) (n : Info), info (.seam f) = some n → SimtReady s n → (s.opEnv n).last = true → Untraced s →
    s.cc.stackSpilled = 0 → s.cc.seams.length ≤ 16 →
    let site := (s.opEnv n).addr
    ((∀ e, s.cc.innermost s.cur.flow = some e → e.addr ≠ site) → OnlyContext s (exec (.seam f) s) (fun k =>
      KeepsRegisters s.cc k ∧ FlowAt k s.cur.flow (site + 4) ∧ (k.flow s.cur.flow).masks = s.cf.masks ∧ k.seams = s.cc.seams))
    ∧ ∀ e other, s.cc.seams = [e] → e.addr = site → e.deferred = .no → e.created ≠ 0xFE →
      (e.owner = s.cur.flow ∧ e.created = other ∨ e.created = s.cur.flow ∧ e.owner = other) → other ≠ s.cur.flow → s.cf.masks ≠ [] →
      ((s.cc.flow other).masks ≠ [] → (s.cc.flow other).wait ≠ .seam → OnlyContext s (exec (.seam f) s) (fun k =>
        KeepsRegisters s.cc k ∧ (k.flow s.cur.flow).wait = .seam ∧ (k.flow s.cur.flow).pc = site ∧ k.seams = [e]))
      ∧ ((s.cc.flow other).masks ≠ [] → (s.cc.flow other).wait = .seam → OnlyContext s (exec (.seam f) s) (fun k =>
        KeepsRegisters s.cc k ∧ k.seams = [] ∧ FlowAt k e.owner (site + 4) ∧ SMap.find? k.flows e.created = none
          ∧ ∀ l, laneIn (k.flow e.owner).masks l = (laneIn s.cf.masks l || laneIn (s.cc.flow other).masks l))))
  ∧ (∀ (s : State) (f : OpF) (n : Info), info (.yield f) = some n → Ready s n → (s.opEnv n).last = true → s.undoRoom n →
    ∃ t, exec (.yield f) s = .next t ∧ t.cc.yield = true ∧ t.cc.yieldOrder = (s.core s.cur.core).yields
      ∧ (t.core s.cur.core).yields = (s.core s.cur.core).yields + 1 ∧ t.mem = s.mem ∧ SameRegisters s t)
  ∧ (∀ (s : State) (f : OpF) (n : Info), info (.exit f) = some n → SimtReady s n → LastPass s n → Quiet s → Untraced s →
    NoneParked s → stayers s n ≠ [] →
    ∃ t, exec (.exit f) s = .next t ∧ t.mem = s.mem ∧ FlowAt t.cc s.cur.flow ((s.opEnv n).addr + 4)
      ∧ FlowLanes t.cc s.cur.flow (stayers s n))
  ∧ (∀ (s : State) (f : OpF) (n : Info), info (.exit f) = some n → SimtReady s n ∧ LastPass s n ∧ stayers s n = [] ∨ VliwReady s n →
    Quiet s → Untraced s → NoneParked s → s.cur.flow = 255 → (∀ p ∈ s.cc.flows, p.1 = 255) → s.cc.seams = [] → s.cc.stackSpilled = 0 →
    (∀ r ∈ s.cc.ras, r.service = none) → s.cc.rasServices = [] → s.cc.task = none → (∀ q ∈ s.cc.eq, q.2 = []) →
    (∀ o ∈ (s.core s.cur.core).mxQ, o.ctx ≠ s.cur.ctx) →
    ∃ t, exec (.exit f) s = .next t ∧ t.mem = s.mem ∧ t.cc.live = false)

/-- 14 R283, R284 with 05 R94 to R96: `collapse` of a one-group team whose claim can be granted at once completes: it becomes
a VLIW thread of C clusters behind the instruction, each lane register and predicate of lanes 0 to 31, or 0 to 15 of a
half-group, standing at its element; a claim that cannot be granted is queued and the flow waits; and `expand` gives the team
back with its mask, its lanes being the elements of the first clusters. -/
def Obligations.DecoderChanges : Prop :=
  (∀ (s : State) (i : Instr) (n : Info) (c : Nat), info i = some n →
    ((∃ f, i = .collapse f ∧ c = 2) ∨ ∃ f, i = .collapseN f ∧ c = 2 ^ f.b.toNat) → SimtReady s n → (s.opEnv n).last = true →
    NoneParked s → s.cur.flow = 255 → s.cc.flows.length = 1 → SMap.find? s.cc.flows 255 = some s.cf → s.cc.seams = [] →
    s.cc.stackSpilled = 0 → s.cc.handler = false → s.cc.groups ≤ 1 → (s.core s.cur.core).claims = [] →
    let co := s.core s.cur.core
    let limit := if s.cc.mode = .half then 16 else 32
    (∀ b, co.eligibleBlock c = some b → (∀ x, b ≤ x → x < b + c → co.bound x (some s.cur.ctx) = 0) →
      Ctx.blocksFor s.cc.nregs (16 * c) - s.cc.blocks ≤ co.blocksFree →
      ∃ t, exec i s = .next t ∧ t.mem = s.mem ∧ t.cc.mode = .vliw ∧ t.cc.clusters = c ∧ t.cc.base = b
        ∧ FlowAt t.cc 255 ((s.opEnv n).addr + 4) ∧ t.cc.collapsed = some (maskOf s.cf.masks 0, decide (s.cc.mode = .half))
        ∧ (∀ r, t.cc.readS r = s.cc.readS r)
        ∧ ∀ r l, l < limit → t.cc.readV r l = s.cc.readV r l ∧ t.cc.readP r l = s.cc.readP r l)
    ∧ (co.eligibleBlock c = none →
      ∃ t, exec i s = .next t ∧ t.mem = s.mem ∧ t.cf.wait = .claim c ∧ t.cf.pc = (s.opEnv n).addr
        ∧ ∃ q, (t.core s.cur.core).claims = [q] ∧ q.ctx = some s.cur.ctx ∧ q.clusters = c ∧ q.granted = false))
  ∧ (∀ (s : State) (f : OpF) (n : Info) (a next : Word) (b : Bundle) (half : Bool) (mask : Word), info (.expand f) = some n →
    VliwReady s n → s.cc.loops = [] → s.cc.stackSpilled = 0 →
    (s.opState n).fetchItem s.cur.core (s.opEnv n).k s.cf.pc = .ok (a, next, b) → next.toNat % 4 = 0 →
    (mask, half) = s.cc.collapsed.getD (0xFFFFFFFF, false) →
    let limit := if half then 16 else 32
    Ctx.blocksFor s.cc.nregs limit ≤ s.cc.blocks + (s.core s.cur.core).blocksFree →
    ∃ t, exec (.expand f) s = .next t ∧ t.mem = s.mem ∧ t.cc.mode = (if half then .half else .simt) ∧ t.cc.groups = 1
      ∧ FlowAt t.cc 255 next ∧ (∀ l, laneIn (t.cc.flow 255).masks l = (decide (l < 32) && mask.getLsbD l))
      ∧ (∀ r, t.cc.readS r = s.cc.landAll.readS r)
      ∧ ∀ r l, l < limit → t.cc.readV r l = s.cc.landAll.readV r l ∧ t.cc.readP r l = s.cc.landAll.readP r l)

namespace Sys2Proof.Claims

/-! ### VLIW code (09 R186, R191 to R195; 11 R222, R227; 14 R273 to R287) -/

/-- No branch is under way, no loop of the thread ends at this bundle, and nothing asks the thread to stop. -/
def PlainBundle (s : State) : Prop :=
  s.cc.delay = none ∧ (∀ en ∈ s.cc.loops, en.stop ≠ s.cf.pc) ∧ s.cc.stopPending = false ∧ s.cc.cooling = false

/-- The thread stands at an address and may issue. -/
def ThreadAt (t : State) (pc : Word) : Prop := t.cf.pc = pc ∧ t.cf.wait = .none

/-- The condition of a VLIW `bra` (14 R273). -/
def braHolds (k : Ctx) (f : OpF) : Bool :=
  if f.b = 1 then k.readS f.a.toNat != 0 else if f.b = 2 then k.readS f.a.toNat == 0 else true

/-- The first bundle after the two that follow an address: where a call returns to (14 R277). -/
def returnBundle (s : State) (n : Info) : Word :=
  let next := fun a => (s.opState n).bundleAfter s.cur.core (s.opEnv n).k a
  next (next (next s.cf.pc))

/-- The bundle that an instruction issues, and the bytes that it takes of the stream: a bundle's own words, or a parcel of
two bytes that names a valid pattern entry (09 R193; 11 R221, R222). -/
def bundleOf (k : Ctx) (i : Instr) : Option (Bundle × Nat) :=
  match i with
  | .vliwBundle b => some (b, 4 + 4 * b.words.length)
  | .patternReference r =>
    match SMap.find? k.pats r.toNat with
    | some e => if e.valid then some (⟨(e.words.headD 0).setWidth 16, e.words.drop 1 |>.take
        ((List.range 16).filter (fun j => ((e.words.headD 0).setWidth 16 : BitVec 16).getLsbD j)).length⟩, 2) else none
    | none => none
  | _ => none

/-- A VLIW thread may issue a bundle whose ops stand in their slots. -/
structure BundleReady (s : State) (b : Bundle) (ops : List (Nat × Info)) : Prop where
  issues : s.mayIssue s.cur.core s.cur.ctx s.cur.flow = true
  loads : s.cc.badLoad = none
  vliw : s.cc.vliw = true
  flow : s.cur.flow = 255
  noRefill : s.cc.refill = false
  landing : s.cf.landing = none
  checked : checkBundle s s.cc s.cf.pc b = .ok ops
  free : s.cc.bundleHeld (ops.map (fun p => opd p.2)) = false

/-- An op of a bundle, with what it writes. -/
structure SlotOp where
  slot : Nat
  instr : Instr
  info : Info
  writes : List Write

/-- The stage predicates after an iteration boundary (09 R195). -/
def nextStages (k : Ctx) (e : LoopEntry) : BitVec 8 := (k.ps <<< 1) ||| (if e.count ≠ 0 ∧ e.drain = false then 1 else 0)

/-- The eight words of pattern image number j at a scratchpad offset. -/
def patternWords (s : State) (k : Ctx) (off j : Nat) : List Word :=
  (List.range 8).map (fun i =>
    BitVec.ofNat 32 (leNat ((s.core s.cur.core).spad.readBytes (k.spadBase + off + 32 * j + 4 * i) 4)))

/-- An image with its VALID bit, bit 16 of the first word, set or cleared (09 R193). -/
def withValid (ok : Bool) (ws : List Word) : List Word :=
  (if ok then ws.headD 0 ||| 0x10000#32 else ws.headD 0 &&& ~~~0x10000#32) :: ws.drop 1

end Sys2Proof.Claims

/-- 14 R273 to R277 with 09 R192: a VLIW `bra` whose condition fails goes on at the next bundle; a taken `bra`, `brx`, `call`,
`callx`, `ret` or `lexit` leaves two delay bundles to issue before its target; `call` and `callx` push the address of the
bundle after them, `ret` pops its target, and `lexit` pops the innermost loop and goes on behind its END. -/
def Obligations.VliwBranches : Prop :=
  ∀ (s : State) (i : Instr) (n : Info), WellFormed i = true → info i = some n → VliwReady s n → PlainBundle s → s.undoRoom n →
    Untraced s →
    let k := (s.opEnv n).k
    let next := s.cf.pc + BitVec.ofNat 32 (4 + n.len)
    let o := exec i s
    let off : Word → Option (Word × Nat) → (Ctx → Prop) → Prop := fun target landing p =>
      ∃ t, o = .next t ∧ t.mem = s.mem ∧ SameRegisters s t ∧ ThreadAt t next
        ∧ t.cc.delay = some { left := 2, target := target, landing := landing } ∧ p t.cc
    (∀ f imm, i = .bra f imm →
      (braHolds k f = true → off imm none (fun _ => True))
      ∧ (braHolds k f = false → ∃ t, o = .next t ∧ t.mem = s.mem ∧ SameRegisters s t ∧ ThreadAt t next ∧ t.cc.delay = none))
    ∧ (∀ f, i = .brx f → (k.readS f.a.toNat).toNat % 4 = 0 → off (k.readS f.a.toNat) (some (s.cf.pc, 1)) (fun _ => True))
    ∧ (∀ f imm, i = .call f imm → s.cc.ras.length < 16 →
        off imm none (fun k' => k'.ras = s.cc.ras ++ [{ addr := returnBundle s n }]))
    ∧ (∀ f, i = .callx f → s.cc.ras.length < 16 → (k.readS f.a.toNat).toNat % 4 = 0 →
        off (k.readS f.a.toNat) (some (s.cf.pc, 0)) (fun k' => k'.ras = s.cc.ras ++ [{ addr := returnBundle s n }]))
    ∧ (∀ f e, i = .ret f → s.cc.ras.getLast? = some e → e.addr.toNat % 4 = 0 →
        off e.addr none (fun k' => k'.ras = s.cc.ras.dropLast))
    ∧ (∀ f e, i = .lexit f → s.cc.loops.getLast? = some e → s.cc.stackSpilled = 0 →
        ((s.opState n).bundleAfter s.cur.core k e.stop).toNat % 4 = 0 →
        ∃ t, o = .next t ∧ t.mem = s.mem ∧ ThreadAt t next ∧ t.cc.loops = s.cc.loops.dropLast ∧ t.cc.ps = e.saved
          ∧ t.cc.delay = some { left := 2, target := (s.opState n).bundleAfter s.cur.core k e.stop })

/-- 09 R194 with 14 R280, R287: `loop` with a positive count pushes its entry, saves the stage predicates and begins with
ps0 alone; with count 0 it goes on behind END with nothing pushed; `ptload` loads its pattern entries, each marked as its
image is well formed or not. -/
def Obligations.VliwLoops : Prop :=
  (∀ (s : State) (f : OpF) (imm : Word) (n : Info), WellFormed (.loop f imm) = true → info (.loop f imm) = some n → VliwReady s n →
    PlainBundle s → s.undoRoom n → Untraced s → s.cc.loops.length < 8 → s.cc.stackSpilled = 0 →
    let k := (s.opEnv n).k
    let after := fun a => (s.opState n).bundleAfter s.cur.core k a
    let stop := imm &&& 0x3FFFF#32
    let count := k.readS f.a.toNat
    s.cf.pc < after s.cf.pc → after s.cf.pc ≤ stop →
    (count ≠ 0 → ∃ t, exec (.loop f imm) s = .next t ∧ t.mem = s.mem ∧ SameRegisters s t
      ∧ ThreadAt t (s.cf.pc + BitVec.ofNat 32 (4 + n.len)) ∧ t.cc.ps = 1
      ∧ ∃ e, t.cc.loops = s.cc.loops ++ [e] ∧ e.start = after s.cf.pc ∧ e.stop = stop ∧ e.count = count - 1
        ∧ e.stages = (imm.extractLsb' 24 3).toNat + 1 ∧ e.drain = false ∧ e.saved = s.cc.ps)
    ∧ (count = 0 → ∃ t, exec (.loop f imm) s = .next t ∧ t.mem = s.mem ∧ SameRegisters s t ∧ ThreadAt t (after stop)
        ∧ t.cc.ps = s.cc.ps ∧ t.cc.loops = s.cc.loops))
  ∧ (∀ (s : State) (f : OpF) (n : Info), info (.ptload f) = some n → VliwReady s n → PlainBundle s → s.undoRoom n →
    let k := (s.opEnv n).k
    let off := (k.readS f.a.toNat).toNat
    let v := k.readS f.b.toNat
    let first := (v.extractLsb' 0 9).toNat
    let count := (v.extractLsb' 16 10).toNat
    v &&& 0xFC00FE00#32 = 0 → 1 ≤ count → first + count ≤ 512 → off % 32 = 0 → off + 32 * count ≤ k.spadLen →
    s.cc.undo.length + count ≤ Config.undoMax →
    ∃ t, exec (.ptload f) s = .next t ∧ t.mem = s.mem ∧ SameRegisters s t
      ∧ (∀ j, j < count → SMap.find? t.cc.pats (first + j) =
          some { valid := s.cc.patternOk (patternWords s k off j)
                 words := withValid (s.cc.patternOk (patternWords s k off j)) (patternWords s k off j) })
      ∧ ∀ j, j < first ∨ first + count ≤ j → SMap.find? t.cc.pats j = SMap.find? s.cc.pats j)

/-- 09 R186, R191 to R193 with 11 R222: a bundle, or a pattern reference to a valid entry, whose ops are scalar instructions
of one word completes: every op reads the registers as they stood before the bundle, every scalar register that one of them
alone writes holds its result in the next issue cycle, and the thread goes on behind it. -/
def Obligations.BundlesIssue : Prop :=
  ∀ (s : State) (i : Instr) (b : Bundle) (len : Nat) (xs : List SlotOp), bundleOf s.cc i = some (b, len) →
    BundleReady s b (xs.map (fun x => (x.slot, x.info))) → PlainBundle s → s.cc.flight = [] → s.cc.undo.length ≤ Config.undoMax →
    (∀ x ∈ xs, info x.instr = some x.info ∧ stageGuard s.cc (opd x.info) = true ∧ scalarWord s.cc x.instr = some x.writes) →
    ∃ t, exec i s = .next t ∧ t.mem = s.mem ∧ ThreadAt t (s.cf.pc + BitVec.ofNat 32 len)
      ∧ (∀ r l, t.cc.readV r l = s.cc.readV r l ∧ t.cc.readP r l = s.cc.readP r l)
      ∧ (∀ r v, (xs.flatMap SlotOp.writes).filter (fun w => w.dst == .s r) = [⟨.s r, v⟩] → t.cc.readS r = v)
      ∧ ∀ r, (∀ w ∈ xs.flatMap SlotOp.writes, w.dst ≠ .s r) → t.cc.readS r = s.cc.readS r

/-- 09 R192, R195: with a branch under way each bundle counts, here one without ops: after the second the thread stands at
the branch's target. Behind the bundle at END of the innermost loop the stage predicates shift and the thread goes back to
START while one of the loop's stages is active; otherwise the loop pops, its saved predicates return, and the thread goes
on. -/
def Obligations.BundleBoundaries : Prop :=
  ∀ (s : State), BundleReady s ⟨0, []⟩ [] → Untraced s → s.cc.stopPending = false → s.cc.cooling = false →
    s.cc.undo.length ≤ Config.undoMax →
    let o := exec (.vliwBundle ⟨0, []⟩) s
    (∀ d, s.cc.delay = some d →
      ∃ t, o = .next t ∧ t.mem = s.mem ∧ SameRegisters s t ∧ t.cc.loops = s.cc.loops
        ∧ (d.left ≤ 1 → t.cf.pc = d.target ∧ t.cf.landing = d.landing ∧ t.cc.delay = none)
        ∧ (1 < d.left → t.cf.pc = s.cf.pc + 4 ∧ t.cc.delay = some { d with left := d.left - 1 }))
    ∧ (∀ e r, s.cc.delay = none → s.cc.loops = r ++ [e] → e.stop = s.cf.pc → e.drain = false → s.cc.stackSpilled = 0 → e.stages ≤ 8 →
      ∃ t, o = .next t ∧ t.mem = s.mem
        ∧ (nextStages s.cc e &&& ((1#8 <<< e.stages) - 1) ≠ 0 → t.cf.pc = e.start ∧ t.cc.ps = nextStages s.cc e
            ∧ ∃ e', t.cc.loops = r ++ [e'] ∧ e'.count = (if e.count ≠ 0 then e.count - 1 else 0) ∧ e'.start = e.start ∧ e'.stop = e.stop)
        ∧ (nextStages s.cc e &&& ((1#8 <<< e.stages) - 1) = 0 → t.cf.pc = s.cf.pc + 4 ∧ t.cc.ps = e.saved ∧ t.cc.loops = r))

namespace Sys2Proof.Claims

/-! ### Tasks, grants, traps, user interrupts and markers (18 R371 to R378; 06 R131, R133; 10 R210) -/

/-- `vgrow` and `sgrow`: is it for registers, and the target (18 R373). -/
def growForm (k : Ctx) (i : Instr) : Option (Bool × Nat × BitVec 6) :=
  let v : OpF → Nat := fun f => (k.readS f.a.toNat).toNat
  match i with
  | .vgrow f => some (true, v f, f.d)
  | .vgrowImm f => some (true, f.b.toNat, f.d)
  | .sgrow f => some (false, (v f + 255) / 256 * 256, f.d)
  | .sgrowImm f => some (false, f.b.toNat * 4096, f.d)
  | _ => none

/-- `tabort` whole or with a split (18 R372). -/
def abortForm (i : Instr) : Option Bool :=
  match i with
  | .tabort _ => some false
  | .tabortExt _ x => some (x.sub == 1)
  | _ => none

/-- Cause and DETAIL of `trap` and `brk` (18 R375). -/
def trapForm (k : Ctx) (i : Instr) : Option (Nat × Nat) :=
  match i with
  | .trap f => some (0x10, (k.readS f.a.toNat).toNat)
  | .trapExt _ imm => some (0x10, imm.toNat)
  | .brk _ => some (0x01, 0x1)
  | _ => none

/-- The value of a marker (18 R378). -/
def markValue (k : Ctx) (i : Instr) : Option Word :=
  match i with
  | .trc f => some (k.readS f.a.toNat)
  | .trcImm f => some (f.b.setWidth 32)
  | .trcExt _ imm => some imm
  | _ => none

/-- D and the new mask of `uimask` (18 R377). -/
def maskValue (k : Ctx) (i : Instr) : Option (BitVec 6 × BitVec 16) :=
  match i with
  | .uimask f => some (f.d, (k.readS f.a.toNat).setWidth 16)
  | .uimaskImm f => some (f.d, if f.b = 0 then 0 else 0xFFFF)
  | _ => none

/-- The lanes of a record are the lanes of a list, counted in their group. -/
def LanesNamed (w : Word) (ls : List Nat) : Prop := ∀ b, b < 32 → (w.getLsbD b = true ↔ ∃ l ∈ ls, l % 32 = b)

/-- A task stands re-queued: with a box, one abort more, and the CAUSE of its next run (06 R131, R133). -/
def Requeued (t : State) (id : Nat) (x : Task) (box : List (Nat × Nat)) (cause : Nat) : Prop :=
  ∃ y, t.task? id = some y ∧ y.state = .pending ∧ y.box = box ∧ y.aborts = min (x.aborts + 1) 0xFFFF ∧ y.cause = cause
    ∧ y.stamp = x.stamp ∧ y.grid = x.grid

end Sys2Proof.Claims

/-- 18 R371, R372 with 06 R131, R133: in a task, `tend` completes: its flow has ended and waits for the commit; `tabort`
completes: the context is gone, nothing of the task's write set is left, and the task waits for its next run with CAUSE 0x09,
whole, or as two halves of its box with CAUSE 0x0A; outside a task they trap. 06 R124, R125: a memory access of a task that
touches a granule whose lock the task does not hold asks for the lock and stores nothing: a free lock is granted, for one
that another task holds its flow waits as a requester, and a younger holder's abort is due. -/
def Obligations.TaskInstructions : Prop :=
  (∀ (s : State) (f : OpF) (n : Info) (id : Nat), info (.tend f) = some n → Ready s n → (s.opEnv n).last = true → s.cc.task = some id →
    NoneParked s → Quiet s → Untraced s →
    ∃ t, exec (.tend f) s = .next t ∧ t.mem = s.mem ∧ t.cf.wait = .ended ∧ t.cf.masks = s.cf.masks ∧ t.cc.task = some id)
  ∧ (∀ (s : State) (i : Instr) (n : Info) (split : Bool) (id : Nat) (x : Task) (g : Grid), WellFormed i = true → info i = some n →
    abortForm i = some split → Ready s n → (s.opEnv n).first = true → s.cc.task = some id → s.task? id = some x →
    s.grid? x.grid = some g → id ≠ s.tasks.next →
    (split = false → ∃ t, exec i s = .next t ∧ t.mem = s.mem ∧ t.cc.live = false ∧ (∀ e ∈ t.tasks.spec, e.task ≠ id)
      ∧ Requeued t id x x.box 0x09)
    ∧ ∀ lo hi, split = true → splitBox g.pkt x.box = some (lo, hi) →
      ∃ t, exec i s = .next t ∧ t.mem = s.mem ∧ t.cc.live = false ∧ (∀ e ∈ t.tasks.spec, e.task ≠ id)
        ∧ Requeued t id x lo 0x0A ∧ Requeued t s.tasks.next x hi 0x0A)
  ∧ (∀ (s : State) (i : Instr) (n : Info), info i = some n → ((∃ f, i = .tend f) ∨ ∃ f, i = .tabort f) → Ready s n →
    (s.opEnv n).first = true → s.cc.task = none →
    TrapsWith s (exec i s) (fun r => r.cause = 0x02 ∧ r.detail = if n.major = 0x74 then 0x30 else 0x31))
  ∧ (∀ (s s1 : State) (i : Instr) (n : Info) (m : MemForm) (kind : AccKind) (id g : Nat) (gs : List Nat) (as : List Acc),
    WellFormed i = true → info i = some n → AccessForm i m kind → Ready s n → s.cc.task = some id →
    let e := s.opEnv n
    e.locateAll kind (s.opState n) = (s1, .ok as) → OnlyWalked s s1 n → s1.tasks = s.tasks →
    (∀ a ∈ as, ∃ pa va, a.spots = [(.mem pa va, m.bytes)]) → (kind ≠ .store → e.refusedSpots s1 as = []) →
    e.missingLocks s1 as = g :: gs →
    ∃ t, exec i s = .next t ∧ t.mem = s1.mem ∧ t.cc.tack = s.cc.tack ∧ t.cf.pc = (s.opState n).cf.pc
      ∧ (s.lockOf g = none → (s.tasks.locks.filter (fun l => homeSlice l.granule == homeSlice g)).length < 16384 →
          t.lockOf g = some { granule := g, holder := id } ∧ t.cf.wait = .none)
      ∧ ∀ l, s.lockOf g = some l → t.cf.wait = .lock g
          ∧ (∃ q, t.lockOf g = some q ∧ q.holder = l.holder ∧ (id, s.cur.core, s.cur.ctx, s.cur.flow) ∈ q.parked)
          ∧ ∀ x, s.task? l.holder = some x → s.olderTask id l.holder = true → x.committing = false → x.state ≠ .pending →
              ∃ y, t.task? l.holder = some y ∧ y.abortDue.isSome = true)

/-- 18 R373 with 09 R183 and 07 R140: `vgrow` and `sgrow` complete: a target that the grant already meets changes nothing and
D receives N or SPADSZ; a larger one within its limit, with the resources free, becomes the grant, D receives the new N or
SPADSZ, and a grown scratchpad keeps its bytes and reads zero behind them. -/
def Obligations.GrantsGrow : Prop :=
  ∀ (s : State) (i : Instr) (n : Info) (regs : Bool) (target : Nat) (d : BitVec 6), WellFormed i = true → info i = some n →
    growForm (s.opEnv n).k i = some (regs, target, d) → Ready s n → (s.opEnv n).first = true → s.undoRoom n →
    let co := s.core s.cur.core
    (target ≤ (if regs then s.cc.blocks else s.cc.spadLen) →
      IssueWrites s (exec i s) 1 (sw d (BitVec.ofNat 32 (if regs then s.cc.nregs else s.cc.spadLen))))
    ∧ (regs = true → s.cc.blocks < target → target ≤ s.growLimit s.cur.core s.cc true → target ≤ 256 →
      target - s.cc.blocks ≤ co.blocksFree →
      ∃ t, exec i s = .next t ∧ t.mem = s.mem ∧ t.cc.blocks = target
        ∧ t.cc.nregs = min 64 (256 * target / s.cc.laneCount / 8 * 8)
        ∧ (s.settled t 1).readS d.toNat = BitVec.ofNat 32 t.cc.nregs)
    ∧ (regs = false → s.cc.spadLen < target → target ≤ s.growLimit s.cur.core s.cc false → target < 2 ^ 32 → co.spad.wf = true →
      (co.runFree (some s.cur.ctx) s.cc.spadBase target = true
        ∨ (co.findRun (some s.cur.ctx) target).isSome ∧ s.grantBusy s.cur.core s.cur.ctx = false) →
      ∃ t, exec i s = .next t ∧ t.mem = s.mem ∧ t.cc.spadLen = target
        ∧ (s.settled t 1).readS d.toNat = BitVec.ofNat 32 target
        ∧ ∀ a, a < target → ((t.core s.cur.core).spad.readBytes (t.cc.spadBase + a) 1) =
            if a < s.cc.spadLen then co.spad.readBytes (s.cc.spadBase + a) 1 else [0])

/-- 18 R374, R375 with 10 R202 and 06 R127: `svc` of a plain team stops its context with cause 0x11 and the service number and
register in DETAIL, in a task with cause 0x0B and DETAIL 0x2; `trap` stops it with cause 0x10 and its value, `brk` with cause
0x01 and DETAIL 0x1, where a lane's guard holds, and they do nothing where none does. -/
def Obligations.ServiceCallsAndTraps : Prop :=
  (∀ (s : State) (f : OpF) (imm : Word) (n : Info), WellFormed (.svc f imm) = true → info (.svc f imm) = some n → Ready s n →
    (s.opEnv n).first = true →
    (s.cc.task = none → Quiet s → Untraced s → NoneParked s → s.cc.peerFailed = none →
      TrapsWith s (exec (.svc f imm) s) (fun r =>
        r.cause = 0x11 ∧ r.detail = imm.toNat % 2 ^ 16 + f.a.toNat * 2 ^ 16 ∧ (s.cc.vliw = false → LanesNamed r.lanes (s.opEnv n).lanes)))
    ∧ (s.cc.task.isSome → TrapsWith s (exec (.svc f imm) s) (fun r => r.cause = 0x0B ∧ r.detail = 0x2)))
  ∧ (∀ (s : State) (i : Instr) (n : Info) (cause detail : Nat), WellFormed i = true → info i = some n →
    trapForm (s.opEnv n).k i = some (cause, detail) → Ready s n →
    (s.cc.vliw = true ∨ (s.opEnv n).lanes ≠ [] →
      TrapsWith s (exec i s) (fun r => r.cause = cause ∧ r.detail = detail ∧ (s.cc.vliw = false → LanesNamed r.lanes (s.opEnv n).lanes)))
    ∧ (s.cc.vliw = false → (s.opEnv n).lanes = [] → s.undoRoom n → IssueGives s (exec i s) s))

/-- 18 R376 to R378 with 10 R210, R218: `uiret` in the handler completes: its flow stands at UIPC and every other flow waits
as it did before the delivery; `uimask` completes: D receives the old mask with latency 1 and the new one stands; `trc`
completes: of a traced context it emits one packet of kind 0x07 with its value, else nothing. -/
def Obligations.UserInterruptsAndMarkers : Prop :=
  (∀ (s : State) (f : OpF) (n : Info), info (.uiret f) = some n → Ready s n → (s.opEnv n).last = true → Untraced s →
    s.cc.inHandler = true → (∀ p ∈ s.cc.flows, p.1 ≠ s.cur.flow → p.2.masks = [] ∨ p.2.wait = .handler) →
    ∃ t, exec (.uiret f) s = .next t ∧ t.mem = s.mem ∧ t.cc.inHandler = false ∧ t.cf.pc = s.cc.uipc
      ∧ ∀ p ∈ s.cc.flows, p.1 ≠ s.cur.flow → p.2.wait = .handler → SMap.find? s.cc.flows p.1 = some p.2 →
          (t.cc.flow p.1).wait = SMap.get .none s.cc.heldWaits p.1)
  ∧ (∀ (s : State) (f : OpF) (n : Info), info (.uiret f) = some n → Ready s n → s.cc.inHandler = false →
    TrapsWith s (exec (.uiret f) s) (fun r => r.cause = 0x02 ∧ r.detail = 0x32))
  ∧ (∀ (s : State) (i : Instr) (n : Info) (d : BitVec 6) (v : BitVec 16), WellFormed i = true → info i = some n →
    maskValue (s.opEnv n).k i = some (d, v) → Ready s n → (s.opEnv n).first = true → s.undoRoom n →
    ∃ t, exec i s = .next t ∧ t.mem = s.mem ∧ t.cc.uimask = v
      ∧ (s.settled t 1).readS d.toNat = (s.opEnv n).k.uimask.setWidth 32)
  ∧ (∀ (s : State) (i : Instr) (n : Info) (v : Word), WellFormed i = true → info i = some n → markValue (s.opEnv n).k i = some v →
    Ready s n → (s.opEnv n).first = true → s.undoRoom n →
    (s.traced s.cur.core s.cur.ctx = false → IssueGives s (exec i s) s)
    ∧ (s.traced s.cur.core s.cur.ctx = true → ∃ t m, exec i s = .next t
        ∧ t.cc.emitted = s.cc.emitted ++ [⟨s.cur.flow, 0x07, leBytes 4 v.toNat, (s.opEnv n).addr, m⟩]))

namespace Sys2Proof.Claims

/-! ### Encodings, steps, reset and the invariant -/

/-- A core cycle's next issue: the state with the cursor on the flow that the cycle has chosen. -/
def issuing (s : State) (c x f : Nat) (rest : List (Nat × Nat × Nat)) : State :=
  { s with tick := s.tick + 1, issueQ := rest, cur := { core := c, ctx := x, flow := f, slot := 0 } }

end Sys2Proof.Claims

/-- 11 R220, R224, R228 with 13 R257 to R263: every well-formed instruction of the op-word map, with every operand at every
value that its encoding admits, is read back from its own bytes, whatever bytes follow. -/
def Obligations.OpWordsDecodeAndEncodeAgree : Prop :=
  ∀ (i : Instr) (n : Info) (rest : List Byte), WellFormed i = true → info i = some n → decodeInstr (encode i ++ rest) = some (i, rest)

/-- 11 R221, R222: every well-formed bundle, with any slots and words, and every pattern reference is read back from its own
bytes in the VLIW stream, whatever bytes follow. -/
def Obligations.BundlesDecodeAndEncodeAgree : Prop :=
  (∀ (b : Bundle) (rest : List Byte), WellFormed (.vliwBundle b) = true →
    decodeVliwInstr (encode (.vliwBundle b) ++ rest) = some (.vliwBundle b, rest))
  ∧ ∀ (r : BitVec 9) (rest : List Byte),
    decodeVliwInstr (encode (.patternReference r) ++ rest) = some (.patternReference r, rest)

/-- Words that the spec writes out, each read as the instruction that it gives: 14 R279 `bra ?p2`, 18 R379 `svc` and
`ld.g.b32`, 17 R353 `mma` and `mbatch`, 15 R313 `clz`, and 14 R282's `loop`, the words of `ld.g.b32` and `clz` standing behind
16 R319 and 13 R265; and words of no instruction: an unassigned
major and a selector and a SUB that no table lists are refused by name (13 R258, R260, R263). -/
def Obligations.SampleWordsDecode : Prop :=
  let two : Word → Word → List Byte := fun w x => wordBytes w ++ wordBytes x
  let f : Bool → BitVec 6 → BitVec 6 → BitVec 6 → BitVec 3 → Bool → OpF := fun s d a b g n => ⟨s, d, a, b, g, n⟩
  decodeInstr (two 0x98006012 0x00000140) = some (.bra (f true 0 6 0 2 false) 0x140, [])
  ∧ decodeInstr (two 0xF8008002 0x00000101) = some (.svc (f true 0 8 0 0 false) 0x101, [])
  ∧ decodeInstr (wordBytes 0xD010A000) = some (.ld (f true 4 10 0 0 false), [])
  ∧ decodeInstr (wordBytes 0x5D088300) = some (.mma (f false 2 8 12 0 false), [])
  ∧ decodeInstr (wordBytes 0x680C0000) = some (.mbatch (f false 3 0 0 0 false), [])
  ∧ decodeInstr (wordBytes 0x300C90C0) = some (.clz (f false 3 9 0 0 false), [])
  ∧ decodeInstr (two 0x1F005002 0x02000260) = some (.loop (f false 0 5 0 0 false) 0x02000260, [])
  ∧ (∀ w x : Word, 0x7E ≤ (fMajor w).toNat → parse w x = .error .unassignedMajor)
  ∧ (∀ w x : Word, fMajor w = 0x30 → 6 ≤ (fB w).toNat → parse w x = .error .selector)
  ∧ ∀ w x : Word, fMajor w = 0x53 → fForm w = 2 → 0xB ≤ (x.extractLsb' 28 4).toNat → parse w x = .error .sub

/-- 05 R104 to R106 with 09 R191, R192: the next step of a machine with power and no event waiting, whose cycle has chosen a
flow that may issue, runs what its decoder reads: in SIMT mode the instruction that the flow's stop group has come to, or
the one at its code address where its bytes are a group of their own; in VLIW mode the pattern reference or the bundle that
stands behind the pads, a bundle of one op as that op in its slot. The oldest event of the outside world goes first (the
model's order of events: log entry 4); a module without power takes no step, but a device reset gives it power (log entry
93). -/
def Obligations.StepsRunWhatIsDecoded : Prop :=
  (∀ (s : State) (i : Instr) (rest : List Instr), s.inputs = i :: rest →
    (s.mgmt.powered = true ∨ i = .deviceReset → step s = exec i { s with inputs := rest, tick := s.tick + 1 })
    ∧ (s.mgmt.powered = false → i ≠ .deviceReset → step s = .next { s with inputs := rest, tick := s.tick + 1 }))
  ∧ (∀ (s : State), s.inputs = [] → s.mgmt.powered = false → step s = .fault .noPower)
  ∧ ∀ (s : State) (c x f : Nat) (q : List (Nat × Nat × Nat)) (i : Instr) (n : Info), s.inputs = [] → s.mgmt.powered = true →
    s.issueQ = (c, x, f) :: q → s.mayIssue c x f = true → WellFormed i = true →
    let s0 := issuing s c x f q
    let k := s.ctx c x
    let fl := k.flow f
    (info i = some n → k.vliw = false →
      (∀ g o, fl.group = some g → g.ops[g.pos]? = some o → o.op = n → step s = exec i s0)
      ∧ (∀ r, fl.group = none → fl.landing = none → decodeSimt (s0.codeBytes c k.window fl.pc.toNat 8) = .ok (n, r) →
          encodingCause n k.simtPlace = none → n.f.s = true →
          step s = exec i (s0.updCf (fun fl => { fl with group := some (openGroup fl [⟨fl.pc, n⟩]), landing := none }))))
    ∧ (k.vliw = true → k.refill = false → fl.landing = none →
      let addr := s0.skipPads c k.window fl.pc padFuel
      let s1 := s0.updCf (fun fl => { fl with pc := addr })
      let read := decodeVliw (s0.codeBytes c k.window addr.toNat 132)
      (∀ r t, i = .patternReference r → read = .ok (.reference r, t) → step s = exec i s1)
      ∧ (∀ b t, i = .vliwBundle b → read = .ok (.bundle b, t) → (slotList b.slots).length ≠ 1 → step s = exec i s1)
      ∧ ∀ b t slot, info i = some n → read = .ok (.bundle b, t) → slotList b.slots = [slot] →
          bundleOps [slot] b.words = [(slot, .ok n)] → step s = exec i { s1 with cur := { s1.cur with slot := slot } })

/-- The values that the spec states for reset: POWER_CAP, LOG_COUNT, FUNC_READY and SECT_READY (01 R9, R14, R15), the partitions,
VF_BIND and WYUND_ID (02 R25, R27, R37), code windows and address spaces (03 R47, R60), QC_SLICE and the ports (04 R75, R86),
CORE_SCHED (05 R107), the age counter (06 R117), SRAM_SPLIT (07 R139, R413), the trace unit (10 R217), the barrier windows (16 R334);
partition 0 is enabled and holds its key, and no other partition is. The clock's 1,200 MHz is the model's choice (log 2). -/
def Obligations.ResetValues : Prop :=
  let s := State.reset
  s.mgmt.powerCap = 2000 ∧ s.mgmt.clockMHz = 1200 ∧ s.mgmt.funcReady = 0 ∧ s.mgmt.sectReady = 0 ∧ s.mgmt.logCount = 0
    ∧ s.qc.slice = 100 ∧ s.tasks.age = 1
    ∧ (∀ p, (SMap.get {} s.att.parts p).enable = decide (p = 0) ∧ (SMap.get {} s.att.parts p).keyValid = decide (p = 0))
    ∧ (∀ v, SMap.get {} s.att.vfs v = { qcount := 0, qbase := 0, owner := 0x1F, part := 0, resetBusy := false, enable := false })
    ∧ s.att.wyundSet = false ∧ (∀ a, (SMap.get {} s.aspaces a).valid = false)
    ∧ ∀ c, (s.core c).spadBanks = 8 ∧ (s.core c).sramBusy = false ∧ (s.core c).rr = false ∧ (s.core c).rrPtr = 0
        ∧ (s.core c).trc.syncLog2 = 4 ∧ (s.core c).trc.size = 12 ∧ (s.core c).trc.enable = false
        ∧ (∀ w, (SMap.get {} (s.core c).codeWin w).valid = false ∧ (SMap.get {} (s.core c).codeWin w).refs = 0
            ∧ (SMap.get {} (s.core c).amPort w).valid = false ∧ (SMap.get {} (s.core c).barWin w).valid = false)

/-- The invariant holds at reset: memory lists nothing (that unwritten memory reads as zero is the model's choice: log
entry 5). -/
def Obligations.ResetHoldsInv : Prop := State.reset.Inv ∧ ∀ a, State.reset.mem.read a = 0

/-- Every step keeps memory in its canonical form, addresses rising and no byte listed that reads as an unlisted one, so
that equal memories are equal data. -/
def Obligations.StepsKeepInv : Prop := ∀ s t : State, s.Inv → step s = .next t → t.Inv

namespace Sys2Proof.Claims

/-! ### Events: the log, the management and its readiness (01 R9 to R16; 02 R37, R40) -/

/-- One entry of a class has entered the event log at the next place of the ring of 4,096; the others stand; the overrun
bit is set where an old entry was overwritten (01 R14). -/
def Logged (s t : State) (cls : Nat) (refusal : Bool) : Prop :=
  (∃ e, SMap.find? t.mgmt.log (s.mgmt.logCount % 4096) = some e ∧ e.cls = cls ∧ e.time = s.mgmt.timeUs
    ∧ (refusal = true → e.code.getLsbD 31 = true))
  ∧ (∀ i, i ≠ s.mgmt.logCount % 4096 → SMap.find? t.mgmt.log i = SMap.find? s.mgmt.log i)
  ∧ t.mgmt.logCount = (s.mgmt.logCount + 1) % 2 ^ 32
  ∧ (4096 ≤ s.mgmt.log.length → t.mgmt.logOverrun = true)

/-- Nothing but the management's own registers and log differs. -/
def OnlyMgmt (s t : State) : Prop := t = { s with mgmt := t.mgmt }

/-- Nothing but the attachment's registers, and the log, differs. -/
def OnlyAttach (s t : State) : Prop := t = { s with mgmt := t.mgmt, att := t.att }

/-- The FUNC_READY bit that an event sets (01 R15): HBM stacks 0 to 11, Wyund ports 12 to 29, Ethernet 30 to 33, CXL 34 and
35, held untrained in hostless mode (02 R20), the host complex 36; a Wyund port trains with SET = 1 and a peer of another
number (02 R37). -/
def readyBit (s : State) (i : Instr) : Option Nat :=
  match i with
  | .hbmStackReady n => if n < 12 then some n else none
  | .wyundPortTrained p peer => if p < 18 ∧ s.att.wyundSet = true ∧ peer.toNat ≠ s.att.wyundId then some (12 + p) else none
  | .portTrained (.eth n) => if n < 4 then some (30 + n) else none
  | .portTrained (.cxl n) => if n < 2 ∧ s.mgmt.bootMode ≠ 0 then some (34 + n) else none
  | .hostComplexRelease v => if v = true ∧ s.mgmt.bootMode ≠ 1 then some 36 else none
  | .queueCtlReady => if s.qc.latched = [] then some 37 else none
  | _ => none

/-- The management firmware runs: the boot ROM accepted its image (02 R40). -/
def managed (s : State) : Prop := 0 ∉ s.mgmt.failed

/-- The SPDM messages whose answer holds no measurement: which it is, and what of its content the manual lays down (01 R13). -/
def spdmMessage (i : Instr) : Option (SpdmMsg × SpdmContent) :=
  match i with
  | .getVersion => some (.version, .own)
  | .getCapabilities => some (.capabilities, .own)
  | .negotiateAlgorithms => some (.algorithms, .falcon1024Shake256)
  | .getDigests => some (.digests, .own)
  | .getCertificate => some (.certificate, .own)
  | .challenge => some (.challenge, .own)
  | _ => none

/-- Where the images of a kind stand (01 R11): management, supervisor, host complex. -/
def kindIndex (k : ImageKind) : Nat :=
  match k with
  | .management => 0
  | .supervisor => 1
  | .hostComplex => 2

/-- A pending image has become the active one. -/
def activated (i : Image) : Image := if i.pending then { i with active := !i.active, pending := false } else i

def imageOf (s : State) (n : Nat) : Image := SMap.get {} s.mgmt.images n

def fusedOf (s : State) (n : Nat) : Nat := SMap.get 0 s.mgmt.fusedMin n

/-- The slot that is not active holds no whole image, and is not pending (01 R12). -/
def spoiled (i : Image) : Image :=
  if i.active then { i with okA := false, pending := false } else { i with okB := false, pending := false }

/-- The active slot's image verifies, and its security version is not below the fused minimum (01 R11; 02 R40). -/
def bootable (i : Image) (least : Nat) : Prop :=
  if i.active then i.okB = true ∧ least ≤ i.verB else i.okA = true ∧ least ≤ i.verA

/-- What a measurement tells (01 R13; the values' form is the model's choice: log entry 99): slot and version of an image, the
fused minimums, the remap table. -/
def measuredValue (s : State) (n : Nat) : List Nat :=
  if n ≤ 2 then (if (imageOf s n).active then [1, (imageOf s n).verB] else [0, (imageOf s n).verA])
  else if n = 3 then [fusedOf s 0, fusedOf s 1, fusedOf s 2]
  else s.mgmt.remap.flatMap (fun p => [p.1, p.2]) ++ s.mgmt.offline

/-- A context is live on a core. -/
def liveOn (s : State) (c x : Nat) : Prop := ∃ co k, (c, co) ∈ s.cores ∧ (x, k) ∈ co.ctxs ∧ k.live = true

end Sys2Proof.Claims

/-- 01 R9, R10, R12 to R15; 02 R37, R40: the events of the management complete: the power cap is clamped, the clock moves by
100 MHz between 600 and 1,200, the thermal states are entered, at once where no context runs, and left, firmware goes to the
inactive slot and never below the fused minimum, a failed or interrupted write leaves that slot unusable, resets activate
pending images and verify the management's, SPDM is answered with the algorithm and the measurements, readiness bits set with
a class 0x01 event, a failed verification stops its chain with one of class 0x08, and the log's own registers work. What a device reset keeps is log entry 96's choice (DESIGN CHOICE), what the 105 degree state
saves log entry 70's, and that the event of a broken write is logged and reaches the flash copy log entry 71's (DEDUCED). -/
def Obligations.ManagementEvents : Prop :=
  (∀ (s : State) (v : Word), exec (.powerCapWrite v) s =
    .next { s with mgmt := { s.mgmt with powerCap := max 800 (min 2000 (v.setWidth 16).toNat) } })
  ∧ (∀ s : State, exec .powerOverCap s = .next { s with mgmt := { s.mgmt with clockMHz := max 600 (s.mgmt.clockMHz - 100) } })
  ∧ (∀ s : State, exec .powerBelowCap s = .next { s with mgmt := { s.mgmt with clockMHz := min 1200 (s.mgmt.clockMHz + 100) } })
  ∧ (∀ s : State, ∃ t, exec .thermal95 s = .next t ∧ OnlyMgmt s t ∧ Logged s t 0x07 false
    ∧ t.mgmt.clockMHz = max 600 (s.mgmt.clockMHz - 100))
  ∧ (∀ s : State, (s.mgmt.halted = true → exec .thermal105 s = .next s)
    ∧ (s.mgmt.halted = false → (∀ c x, ¬ liveOn s c x) → ∃ t, exec .thermal105 s = .next t ∧ t.mgmt.halted = true
        ∧ t.mgmt.hostRunning = false ∧ OnlyMgmt s t ∧ Logged s t 0x07 false)
    ∧ (s.mgmt.halted = false → s.mgmt.halting = false → (∃ c x, liveOn s c x) → (∀ c x, liveOn s c x → s.coolReady c x = false) →
      ∃ t, exec .thermal105 s = .next t ∧ t.mgmt.halting = true ∧ t.mgmt.halted = false ∧ t.mem = s.mem
        ∧ ∀ c x, liveOn s c x → (t.ctx c x).cooling = true))
  ∧ (∀ s : State, (s.mgmt.writing = none → exec .thermalTrip110 s = .next { s with mgmt := { s.mgmt with powered := false } })
    ∧ ∀ k, s.mgmt.writing = some k → ∃ t, exec .thermalTrip110 s = .next t ∧ OnlyMgmt s t ∧ Logged s t 0x08 false
        ∧ t.mgmt.powered = false ∧ t.mgmt.images = s.mgmt.images)
  ∧ (∀ s : State, (s.mgmt.halted = false → exec .thermalResume s = .next s)
    ∧ (s.mgmt.halted = true → ∃ t, exec .thermalResume s = .next t ∧ t.mgmt.halted = false
        ∧ t.mgmt.hostRunning = s.mgmt.funcReady.getLsbD 36 ∧ t.mgmt.saved = [])
    ∧ (s.mgmt.halted = true → ∀ c x, s.mgmt.saved = [(c, x, none)] → (s.core c).trc.enable = false →
      ∃ t, exec .thermalResume s = .next t ∧ (t.ctx c x).cooling = false
        ∧ ∀ line ln, SMap.find? (t.core c).l1 line = some ln → ln.valid &&& ~~~ln.owned = 0))
  ∧ (∀ (s : State) (k : ImageKind) (ver : Nat) (w : ImageWrite), ∃ t, exec (.firmwareUpdate k ver w) s = .next t ∧ OnlyMgmt s t
    ∧ t.mgmt.fusedMin = s.mgmt.fusedMin ∧ (∀ n, n ≠ kindIndex k → imageOf t n = imageOf s n)
    ∧ (w ≠ .underWay → Logged s t 0x08 false ∧ t.mgmt.writing = none)
    ∧ (w = .underWay → t.mgmt.log = s.mgmt.log ∧ t.mgmt.writing = some k)
    ∧ (w = .verified → fusedOf s (kindIndex k) ≤ ver → imageOf t (kindIndex k) =
        if (imageOf s (kindIndex k)).active then { imageOf s (kindIndex k) with verA := ver, okA := true, pending := true }
        else { imageOf s (kindIndex k) with verB := ver, okB := true, pending := true })
    ∧ (w ≠ .verified ∨ ver < fusedOf s (kindIndex k) → imageOf t (kindIndex k) = spoiled (imageOf s (kindIndex k))))
  ∧ (∀ (s : State) (k : ImageKind) (ver : Nat), ∃ t, exec (.raiseFusedMinimum k ver) s = .next t ∧ OnlyMgmt s t
    ∧ t.mgmt.images = s.mgmt.images
    ∧ ∀ n, fusedOf t n = if n = kindIndex k then max ver (fusedOf s n) else fusedOf s n)
  ∧ (∀ s : State, ∃ t, exec .managementReset s = .next t ∧ OnlyMgmt s t
    ∧ (∀ n, imageOf t n = if n = 0 then activated (imageOf s 0) else imageOf s n)
    ∧ (bootable (imageOf t 0) (fusedOf s 0) → t.mgmt.failed = [] ∧ t.mgmt.measured = [0, 3, 4]
        ∧ ∀ n, n = 0 ∨ n = 3 ∨ n = 4 → SMap.get [] t.mgmt.measuredAs n = measuredValue t n)
    ∧ (¬ bootable (imageOf t 0) (fusedOf s 0) → t.mgmt.failed = [0] ∧ t.mgmt.measured = [] ∧ Logged s t 0x08 false))
  ∧ (∀ s : State, ∃ t, exec .deviceReset s = .next t ∧ t.cycle = 0 ∧ t.cores = [] ∧ t.sects = [] ∧ t.grids = [] ∧ t.aspaces = []
    ∧ t.att = State.reset.att ∧ t.qc = State.reset.qc ∧ t.tasks = State.reset.tasks
    ∧ t.mgmt.powered = true ∧ t.mgmt.powerCap = 2000 ∧ t.mgmt.clockMHz = 1200 ∧ t.mgmt.funcReady = 0 ∧ t.mgmt.sectReady = 0
    ∧ (∀ n, imageOf t n = activated (imageOf s n)) ∧ t.mgmt.fusedMin = s.mgmt.fusedMin ∧ t.mgmt.remap = s.mgmt.remap
    ∧ t.mgmt.logFlash = s.mgmt.logFlash ∧ t.mgmt.bootMode = (if s.mgmt.bootModeFlash ≤ 2 then s.mgmt.bootModeFlash else 0)
    ∧ (bootable (imageOf t 0) (fusedOf s 0) → t.mgmt.failed = [] ∧ t.mgmt.measured = [0, 3, 4]
        ∧ ∀ n, n = 0 ∨ n = 3 ∨ n = 4 → SMap.get [] t.mgmt.measuredAs n = measuredValue t n)
    ∧ (¬ bootable (imageOf t 0) (fusedOf s 0) → t.mgmt.failed = [0] ∧ t.mgmt.measured = []))
  ∧ (∀ s : State, s.mgmt.writing = none →
    exec .powerLoss s = .next { s with mgmt := { s.mgmt with powered := false } })
  ∧ (∀ (s : State) (k : ImageKind), s.mgmt.writing = some k → ∃ t, exec .powerLoss s = .next t ∧ OnlyMgmt s t ∧ Logged s t 0x08 false
    ∧ t.mgmt.powered = false ∧ t.mgmt.logFlash = t.mgmt.log ∧ t.mgmt.images = s.mgmt.images ∧ t.mgmt.writing = none)
  ∧ (∀ (s : State) (i : Instr) (m : SpdmMsg) (c : SpdmContent), spdmMessage i = some (m, c) →
    ∃ w, exec i s = .next { s with att := { s.att with replies := s.att.replies ++ [.spdm m c w] } })
  ∧ (∀ s : State, ∃ w, exec .getMeasurements s = .next { s with att := { s.att with
      replies := s.att.replies ++ [.spdm .measurements (.measured (s.mgmt.measured.map (fun n => (n, SMap.get [] s.mgmt.measuredAs n)))) w] } })
  ∧ (∀ s : State, exec .logFlashCopy s = .next { s with mgmt := { s.mgmt with logFlash := s.mgmt.log } })
  ∧ (∀ (s : State) (v : Word), exec (.logOverrunClear v) s =
    .next { s with mgmt := { s.mgmt with logOverrun := s.mgmt.logOverrun && !v.getLsbD 0 } })
  ∧ (∀ (s : State) (i : Instr) (b : Nat), readyBit s i = some b → managed s →
    (b = 36 → 2 ∉ s.mgmt.failed ∧ bootable (imageOf s 2) (fusedOf s 2)) → ∃ t, exec i s = .next t ∧ OnlyAttach s t ∧ Logged s t 0x01 false
    ∧ t.mgmt.funcReady = s.mgmt.funcReady ||| (1#64 <<< b) ∧ t.mgmt.sectReady = s.mgmt.sectReady)
  ∧ (∀ (s : State) (v : Bool), 2 ∈ s.mgmt.failed → exec (.hostComplexRelease v) s = .next s)
  ∧ (∀ (s : State) (v : Bool), managed s → s.mgmt.bootMode ≠ 1 → 2 ∉ s.mgmt.failed →
    (v = false ∨ ¬ bootable (imageOf s 2) (fusedOf s 2)) →
    ∃ t, exec (.hostComplexRelease v) s = .next t ∧ OnlyMgmt s t ∧ Logged s t 0x08 false ∧ t.mgmt.failed = s.mgmt.failed ++ [2]
      ∧ t.mgmt.funcReady = s.mgmt.funcReady ∧ t.mgmt.hostRunning = s.mgmt.hostRunning)
  ∧ (∀ (s : State) (n : Nat), n < 32 → managed s → 1 ∉ s.mgmt.failed →
    (1 ∈ s.mgmt.measured ∨ bootable (imageOf s 1) (fusedOf s 1) →
      ∃ t, exec (.sectionSelfTestPass n) s = .next t ∧ OnlyMgmt s t ∧ Logged s t 0x01 false
        ∧ t.mgmt.sectReady = s.mgmt.sectReady ||| (1#32 <<< n) ∧ t.mgmt.funcReady = s.mgmt.funcReady
        ∧ t.mgmt.measured = (if 1 ∈ s.mgmt.measured then s.mgmt.measured else s.mgmt.measured ++ [1])
        ∧ (1 ∉ s.mgmt.measured → SMap.get [] t.mgmt.measuredAs 1 = measuredValue s 1))
    ∧ (1 ∉ s.mgmt.measured → ¬ bootable (imageOf s 1) (fusedOf s 1) →
      ∃ t, exec (.sectionSelfTestPass n) s = .next t ∧ OnlyMgmt s t ∧ Logged s t 0x08 false
        ∧ t.mgmt.sectReady = s.mgmt.sectReady ∧ t.mgmt.failed = s.mgmt.failed ++ [1]))
  ∧ (∀ (s : State) (p : Nat) (peer : BitVec 14), managed s → p < 18 → s.att.wyundSet = true → peer.toNat = s.att.wyundId →
    ∃ t, exec (.wyundPortTrained p peer) s = .next t ∧ OnlyMgmt s t ∧ Logged s t 0x02 true ∧ t.mgmt.funcReady = s.mgmt.funcReady)
  ∧ (∀ (s : State) (v : Dword),
    (s.att.wyundSet = false → exec (.wyundIdWrite v) s =
      .next { s with att := { s.att with wyundSet := true, wyundId := (v.setWidth 14).toNat } })
    ∧ (s.att.wyundSet = true → ∃ t, exec (.wyundIdWrite v) s = .next t ∧ OnlyMgmt s t ∧ Logged s t 0x02 true))

namespace Sys2Proof.Claims

/-! ### Events of the attachment (01 R18; 02 R25 to R44) -/

def partOf (s : State) (p : Nat) : PartCfg := SMap.get {} s.att.parts p
def vfOf (s : State) (v : Nat) : VfBind := SMap.get {} s.att.vfs v
def slotOf (s : State) (n : Nat) : BatchSlot := SMap.get {} s.att.batch n

/-- The partition that a frame belongs to (02 R22); one without a key owns none (02 R24). -/
def ownerOf (s : State) (frame : Nat) : Option Nat :=
  let b := s.mem.read (s.att.frameOwnerBase + frame)
  if b.getLsbD 7 && (partOf s (b.toNat % 32)).keyValid then some (b.toNat % 32) else none

/-- A frame may be accessed for a partition: it owns it, and its stack is ready (02 R23; 01 R16). -/
def frameOpen (s : State) (part frame : Nat) : Prop :=
  frame < Config.frames ∧ ownerOf s frame = some part ∧ s.mgmt.funcReady.getLsbD (frame % 12) = true

/-- The frames and the 128 B lines of a run of bytes. -/
def inRun (pa n unit k : Nat) : Prop := pa / unit ≤ k ∧ k ≤ (pa + n - 1) / unit

/-- A run of bytes meets no byte of the FRAME_OWNER table (02 R22). -/
def offTable (s : State) (pa n : Nat) : Prop :=
  pa + n ≤ s.att.frameOwnerBase ∨ s.att.frameOwnerBase + 12 * 2 ^ 20 ≤ pa

def requestLength (r : MemReq) : Nat :=
  match r with
  | .read n => n
  | .write bs => bs.length
  | .atomic _ n _ _ => n

/-- An atomic that a home slice performs (16 R320): one of 0 to 9 on four or eight aligned bytes, or the f32 sum on four, with
operands of that many bytes. -/
def atomicFits (pa sub n b cmp : Nat) : Prop :=
  (n = 4 ∧ sub ≤ 10 ∨ n = 8 ∧ sub ≤ 9) ∧ pa % n = 0 ∧ b < 2 ^ (8 * n) ∧ cmp < 2 ^ (8 * n)

/-- The new value of such an atomic (16 R320). -/
def atomicValue (n sub old b cmp : Nat) : Nat :=
  if sub = 10 then f32.rnd 0 (exactSum 0 [f32.val old, f32.val b])
  else (atomic (8 * n) sub (BitVec.ofNat _ old) (BitVec.ofNat _ b) (BitVec.ofNat _ cmp)).toNat

/-- How an outside party's request to memory is answered (02 R23, R29, R32, R38): performed where every frame of it is open
to the partition; refused and logged where its first frame is not the partition's. It meets no byte of the FRAME_OWNER table, which only the
system partition reaches (02 R22). Atomics are a peer's alone (02 R39). -/
def OutsideAnswer (s : State) (o : Out) (part pa : Nat) (r : MemReq) (refused : LinkReply) : Prop :=
  pa + requestLength r ≤ Config.regSpace → 0 < requestLength r →
    (offTable s pa (requestLength r) → (∀ f, inRun pa (requestLength r) 65536 f → frameOpen s part f) →
      match r with
      | .read n => (∀ l, inRun pa n 128 l → l ∉ s.poison) →
          o = .next { s with att := { s.att with replies := s.att.replies ++ [.data (s.mem.readBytes pa n)] } }
      | .write bs => ∃ t, o = .next t ∧ t.mem = s.mem.writeBytes pa bs
          ∧ t.att = { s.att with replies := s.att.replies ++ [.done] } ∧ t.mgmt = s.mgmt
      | .atomic sub n b cmp =>
        let old := s.mem.readBytes pa n
        (refused = .poison → atomicFits pa sub n b cmp → pa / 128 ∉ s.poison →
          ∃ t, o = .next t ∧ t.mem = s.mem.writeBytes pa (leBytes n (atomicValue n sub (leNat old) b cmp))
            ∧ t.att = { s.att with replies := s.att.replies ++ [.data (leBytes n (leNat old))] } ∧ t.mgmt = s.mgmt)
        ∧ (refused ≠ .poison → ∃ t, o = .next t ∧ OnlyAttach s t ∧ Logged s t 0x02 true
            ∧ t.att = { s.att with replies := s.att.replies ++ [refused] }))
    ∧ (offTable s pa 1 ∧ (ownerOf s (pa / 65536) ≠ some part ∨ Config.frames ≤ pa / 65536) ∨ ¬ offTable s pa 1 ∧ part ≠ 0 →
        ∃ t, o = .next t ∧ OnlyAttach s t ∧ Logged s t 0x02 true
        ∧ t.att = { s.att with replies := s.att.replies ++ [refused] })

/-- The refusal of a read or write: an access NAK, a completer abort; for a peer poisoned data, or a write that is dropped. -/
def peerRefused (r : MemReq) : LinkReply :=
  match r with
  | .write _ => .done
  | _ => .poison

def replied (s : State) (r : LinkReply) : State := { s with att := { s.att with replies := s.att.replies ++ [r] } }

/-- VF_BIND's fields of a written value (02 R27). -/
def boundVf (old : VfBind) (v : Dword) : VfBind :=
  { old with qcount := (v.extractLsb' 38 13).toNat, qbase := (v.extractLsb' 26 12).toNat, owner := (v.extractLsb' 16 5).toNat
             part := (v.extractLsb' 8 5).toNat }

/-- Why ENABLE := 1 is refused (02 R27). -/
def bindRefused (s : State) (f : Nat) (b : VfBind) : Prop :=
  (partOf s b.part).enable = false ∨ 16 < b.owner ∨ 4096 < b.qbase + b.qcount
    ∨ b.qcount ≠ 0 ∧ ∃ p ∈ s.att.vfs, p.1 ≠ f ∧ p.2.enable = true ∧ p.2.qcount ≠ 0 ∧ p.2.qbase < b.qbase + b.qcount ∧ b.qbase < p.2.qbase + p.2.qcount

/-- A CXL port is trained, as it may be in attached and mixed mode (02 R20, R40). -/
def cxlTrained (s : State) (p : Nat) : Prop := s.mgmt.bootMode ≠ 0 ∧ s.mgmt.funcReady.getLsbD (34 + p) = true

/-- A trained Wyund port that has not failed reaches a peer (02 R37, R39). -/
def peerThere (s : State) (dev : Nat) : Prop :=
  ∃ q ∈ s.att.portPeer, q.2 = dev ∧ s.mgmt.funcReady.getLsbD (12 + q.1) = true ∧ s.att.portFailed.getLsbD q.1 = false

/-- The stores of a context that wait for a peer's acknowledgement (02 R39; 08 R163). -/
def peerStores (s : State) (c x : Nat) : List SentStore :=
  s.sent.filter (fun e => (s.ctx c x).sent.contains e.tag && (match e.dst with
    | .peer _ _ => true
    | _ => false))

/-- Its outstanding loads of peers. -/
def peerLoads (k : Ctx) : List Load := k.loads.filter (fun l => l.peer.isSome && l.trap.isNone)

/-- A failed store of a peer waits to be reported: at the next drain, release or arrival (02 R39), or at the next issue where a
release already covers it (log entry 123). -/
def failureWaits (k : Ctx) : Prop := k.peerFailed ≠ none ∨ ∃ l ∈ k.loads, l.tag = 0 ∧ l.trap ≠ none

/-- The load that a NAK of an address answers: the one of that address, else, where no engine command has asked for its page,
the oldest (log entry 87). -/
def nakked (k : Ctx) (pa : Dword) (l : Load) : Prop :=
  let here := fun (l : Load) => match l.peer with
    | some p => p.2.fault == pa
    | none => false
  (peerLoads k).find? here = some l
    ∨ (peerLoads k).find? here = none ∧ k.nakQueue pa = none ∧ (peerLoads k).head? = some l

/-- A unit's transient verdicts within the last 24 hours (01 R18). -/
def recentVerdicts (s : State) (key : Nat) : List Nat :=
  (SMap.get [] s.mgmt.transients key).filter (fun t => s.mgmt.timeUs < t + 86400000000)

end Sys2Proof.Claims

/-- 01 R17, R18; 02 R25 to R44: the events of partitions, virtual functions, batch slots, links and outside requests complete:
keys, resets and bindings do what their registers say, requests are performed for open frames and refused otherwise, the
darn's verdicts count spare rows and banks, and failures of ports reach the loads that wait for them. Which request a NAK ends is
log 87's reading (DEDUCED), and how a request that spans frames is answered log 107's choice. -/
def Obligations.AttachmentEvents : Prop :=
  (∀ (s : State) (p : Nat), ∃ t, exec (.partKeyGenerate p) s = .next t ∧ OnlyAttach s t ∧ t.mgmt = s.mgmt
    ∧ (partOf t p).keyValid = true ∧ (∀ q, q ≠ p → partOf t q = partOf s q)
    ∧ (partOf t p).keyGen = (partOf s p).keyGen + (if (partOf s p).keyValid then 0 else 1))
  ∧ (∀ (s : State) (p : Nat), s.Inv → p < 32 →
    ((∀ f, f < Config.frames → ownerOf s f ≠ some p) → ∃ t, exec (.partKeyErase p) s = .next t ∧ OnlyAttach s t ∧ (partOf t p).keyValid = false)
    ∧ ((∃ f, f < Config.frames ∧ ownerOf s f = some p) → exec (.partKeyErase p) s = .next s))
  ∧ (∀ (s : State) (p : Nat), ((partOf s p).resetBusy = true → exec (.partitionReset p) s = .next s)
    ∧ ((partOf s p).resetBusy = false → ∃ t, exec (.partitionReset p) s = .next t ∧ (partOf t p).resetBusy = true
        ∧ p ∈ t.att.partResets
        ∧ ∀ v b, SMap.find? s.att.vfs v = some b → b.enable = true → b.part = p → (vfOf t v).resetBusy = true))
  ∧ (∀ (s : State) (p : Nat), s.Inv → p < 32 → p ∈ s.att.partResets → (∀ v ∈ s.att.vfs, v.2.part = p → v.2.resetBusy = false) →
    ∃ t, exec (.partitionResetComplete p) s = .next t ∧ (partOf t p).resetBusy = false ∧ (partOf t p).keyValid = true
      ∧ (partOf t p).keyGen = (partOf s p).keyGen + 1 ∧ p ∉ t.att.partResets
      ∧ (∀ e, (SMap.get {} t.att.grants e).lpart = p → (SMap.get {} t.att.grants e).valid = false)
      ∧ (∀ f, f < Config.frames → ownerOf s f = some p → ownerOf t f = none)
      ∧ ((∀ f, f < Config.frames → ownerOf s f = some p → offTable s (65536 * f) 65536) →
          ∀ f, f < Config.frames → ownerOf s f = some p → s.mgmt.funcReady.getLsbD (f % 12) = true →
            ∀ a, a / 65536 = f → t.mem.read a = 0))
  ∧ (∀ (s : State) (f : Nat) (v : Dword), (vfOf s f).enable = false → ∃ t, exec (.vfEnable f v) s = .next t ∧ OnlyAttach s t
    ∧ (∀ g, g ≠ f → vfOf t g = vfOf s g)
    ∧ (¬ bindRefused s f (boundVf (vfOf s f) v) → vfOf t f = { boundVf (vfOf s f) v with enable := true } ∧ t.mgmt = s.mgmt)
    ∧ (bindRefused s f (boundVf (vfOf s f) v) → (vfOf t f).enable = false ∧ Logged s t 0x02 true))
  ∧ (∀ (s : State) (f : Nat), (vfOf s f).enable = false → exec (.vfDisable f) s = .next s)
  ∧ (∀ (s : State) (f : Nat), (vfOf s f).enable = true →
    ∃ t, exec (.vfDisable f) s = .next t ∧ (vfOf t f).resetBusy = true ∧ f ∈ t.att.vfUnbind)
  ∧ (∀ (s : State) (f : Nat), (vfOf s f).resetBusy = false → ∃ t, exec (.functionLevelReset f) s = .next t
    ∧ (vfOf t f).resetBusy = true ∧ f ∈ t.att.vfClosing ∧ .hostNotified f ∈ t.att.replies
    ∧ ∀ n q, SMap.find? t.att.qps n = some q → q.vf = f → q.error = true)
  ∧ (∀ (s : State) (f : Nat), (vfOf s f).resetBusy = true → ∃ t, exec (.vfResetComplete f) s = .next t
    ∧ ((∀ p ∈ s.svcEntries f, p.2.state ≠ 2) → Logged s t 0x0A false)
    ∧ (vfOf t f).resetBusy = false ∧ f ∉ t.att.vfClosing
    ∧ (f ∈ s.att.vfUnbind → (vfOf t f).enable = false ∧ (vfOf t f).owner = 0x1F))
  ∧ (∀ (s : State) (n : Nat) (d : LogicalDev), SMap.find? s.att.lds n = some d →
    ∃ t, exec (.ldLinkDown n) s = .next t ∧ SMap.find? t.att.lds n = some { d with up := false }
      ∧ ∀ v b, SMap.find? s.att.vfs v = some b → b.enable = true → b.owner = n → (vfOf t v).resetBusy = true)
  ∧ (∀ (s : State) (n p h : Nat), n < 16 → p < 2 →
    (cxlTrained s p → exec (.ldBinding n p h) s = .next { s with att := { s.att with lds := SMap.insert s.att.lds n ⟨p, h, true, []⟩ } })
    ∧ (¬ cxlTrained s p → exec (.ldBinding n p h) s = .next s))
  ∧ (∀ (s : State) (n : Nat) (v : Dword),
    ((slotOf s n).state ≠ 0 → exec (.batchSlotActivate n v) s = .next s)
    ∧ ((slotOf s n).state = 0 → ∃ t, exec (.batchSlotActivate n v) s = .next t ∧ OnlyAttach s t
        ∧ slotOf t n = { slotOf s n with
            state := 1, zeroPages := (v.extractLsb' 40 24).toNat, owner := (v.extractLsb' 31 9).toNat
            core := (v.extractLsb' 23 8).toNat, arrivals := (v.extractLsb' 16 7).toNat, index := (v.extractLsb' 0 16).toNat
            made := 0 }))
  ∧ (∀ (s : State) (n : Nat), ((slotOf s n).state ≠ 3 → exec (.batchSlotFree n) s = .next s)
    ∧ ((slotOf s n).state = 3 → ∃ t, exec (.batchSlotFree n) s = .next t ∧ OnlyAttach s t ∧ slotOf t n = { slotOf s n with state := 0 }))
  ∧ (∀ (s : State) (u : DarnUnit) (p1 p2 p3 : Bool), (∀ p ∈ s.cores, p.2.retiring = false) →
    (p1 && p2 && p3) = true → (recentVerdicts s (unitKey u)).length < 2 →
    ∃ t, exec (.darnVerdict u p1 p2 p3) s = .next t ∧ OnlyMgmt s t ∧ Logged s t 0x04 false
      ∧ t.mgmt.rowsUsed = s.mgmt.rowsUsed ∧ t.mgmt.banksUsed = s.mgmt.banksUsed
      ∧ ((∀ n, n < 256 → s.physOf n ≠ unitCore u) → unitCore u ∈ t.mgmt.spares))
  ∧ (∀ (s : State) (u : DarnUnit) (p1 p2 p3 : Bool), (∀ p ∈ s.cores, p.2.retiring = false) →
    (p1 && p2 && p3) = false ∨ 2 ≤ (recentVerdicts s (unitKey u)).length →
    (∀ c n, u = .matrixRow c n → SMap.get 0 s.mgmt.rowsUsed c < 4 → ∃ t, exec (.darnVerdict u p1 p2 p3) s = .next t ∧ OnlyMgmt s t
        ∧ Logged s t 0x05 false ∧ SMap.get 0 t.mgmt.rowsUsed c = SMap.get 0 s.mgmt.rowsUsed c + 1)
    ∧ (∀ c n, u = .sramBank c n → SMap.get 0 s.mgmt.banksUsed c = 0 → ∃ t, exec (.darnVerdict u p1 p2 p3) s = .next t ∧ OnlyMgmt s t
        ∧ Logged s t 0x05 false ∧ SMap.get 0 t.mgmt.banksUsed c = 1)
    ∧ (∀ c, u = .core c → (∀ n, n < 256 → s.physOf n ≠ c) → ∃ t, exec (.darnVerdict u p1 p2 p3) s = .next t ∧ OnlyMgmt s t
        ∧ Logged s t 0x05 false ∧ c ∉ t.mgmt.spares))
  ∧ (∀ (s : State) (ld w off : Nat) (r : MemReq) (d : LogicalDev) (h : HdmWindow), SMap.find? s.att.lds ld = some d →
    SMap.find? d.hdm w = some h →
    (d.up = true → cxlTrained s d.port → off + requestLength r ≤ h.size → OutsideAnswer s (exec (.cxlMemAccess ld w off r) s) h.part (h.base + off) r .completerAbort)
    ∧ (d.up = false ∨ ¬ cxlTrained s d.port ∨ h.size < off + requestLength r → exec (.cxlMemAccess ld w off r) s = .next (replied s .completerAbort)))
  ∧ (∀ (s : State) (dev : BitVec 14) (rp pa : Nat) (r : MemReq), peerThere s dev.toNat →
    (∀ g, List.find? (fun (g : Nat × PeerGrant) => g.2.valid && g.2.dev == dev.toNat && g.2.rpart == rp) s.att.grants = some g →
      OutsideAnswer s (exec (.inboundPeerRequest dev rp pa r) s) g.2.lpart pa r (peerRefused r))
    ∧ ((∀ g ∈ s.att.grants, g.2.valid = true → g.2.dev = dev.toNat → g.2.rpart ≠ rp) →
      ∃ t, exec (.inboundPeerRequest dev rp pa r) s = .next t ∧ OnlyAttach s t ∧ Logged s t 0x02 true
        ∧ t.att = { s.att with replies := s.att.replies ++ [.grantNak] }))
  ∧ (∀ (s : State) (n pa : Nat) (r : MemReq),
    (∀ q, SMap.find? s.att.qps n = some q → q.error = false → q.kind = 0 →
      OutsideAnswer s (exec (.rdmaInbound n pa r) s) (vfOf s q.vf).part pa r .accessNak)
    ∧ ((∀ q, SMap.find? s.att.qps n = some q → q.error = true ∨ q.kind = 2) → exec (.rdmaInbound n pa r) s = .next (replied s .accessNak)))
  ∧ (∀ (s : State) (n : Nat) (tail : Word),
    (∀ q, SMap.find? s.att.qps n = some q → q.error = false → q.kind = 1 →
      ∃ t, exec (.queueFeedTail n tail) s = .next t ∧ exec (.doorbell (.queueFeed n) q.queue tail) s = .next t)
    ∧ ((∀ q, SMap.find? s.att.qps n = some q → q.error = true ∨ q.kind ≠ 1) → exec (.queueFeedTail n tail) s = .next (replied s .accessNak)))
  ∧ (∀ (s : State) (p : Nat), ∃ t, exec (.flitCrcRetry p) s = .next t ∧ t = { s with att := { s.att with flitRetries := t.att.flitRetries } }
    ∧ SMap.get 0 t.att.flitRetries p = SMap.get 0 s.att.flitRetries p + 1)
  ∧ (∀ (s : State) (p dev : Nat), SMap.find? s.att.portPeer p = some dev →
    let failed := s.att.portFailed ||| (1#18 <<< p)
    ((∃ q ∈ s.att.portPeer, q.2 = dev ∧ failed.getLsbD q.1 = false) →
      exec (.wyundPortFail p) s = .next { s with att := { s.att with portFailed := failed } })
    ∧ ((∀ q ∈ s.att.portPeer, q.2 = dev → failed.getLsbD q.1 = true) → ∃ t, exec (.wyundPortFail p) s = .next t ∧ t.mem = s.mem
        ∧ t.att = { s.att with portFailed := failed }
        ∧ t.sent = s.sent.filter (fun e => match e.dst with
            | .peer d _ => d != dev
            | _ => true)
        ∧ (∀ c x e pa, e ∈ s.sent → e.dst = .peer dev pa → e.tag ∈ (s.ctx c x).sent → failureWaits (t.ctx c x))
        ∧ ∀ c x, (s.ctx c x).released = none → (t.ctx c x).loads = (s.ctx c x).loads.map (fun l => match l.peer with
            | some (d, f) => if d = dev then { l with trap := some f } else l
            | none => l)))
  ∧ (∀ (s : State) (c x : Nat) (pa : Dword), (s.ctx c x).live = true →
    (∀ e, (peerStores s c x).find? (fun e => e.va == pa) = some e →
      ∃ t, exec (.grantNak c x pa) s = .next t ∧ t.mem = s.mem ∧ t.sent = s.sent.filter (fun q => q.tag != e.tag)
        ∧ failureWaits (t.ctx c x))
    ∧ (∀ q e r, (peerStores s c x).find? (fun e => e.va == pa) = none →
      (∀ l ∈ peerLoads (s.ctx c x), ∀ d f, l.peer = some (d, f) → f.fault ≠ pa) → (s.ctx c x).nakQueue pa = some q →
      SMap.get [] (s.ctx c x).eq q = e :: r →
      exec (.grantNak c x pa) s = .next (s.setCtx c x { s.ctx c x with
        eq := SMap.insert (s.ctx c x).eq q ({ e with refused := some pa } :: r) }))
    ∧ (∀ l, (peerStores s c x).find? (fun e => e.va == pa) = none → nakked (s.ctx c x) pa l →
      exec (.grantNak c x pa) s = .next (s.setCtx c x { s.ctx c x with
        loads := (s.ctx c x).loads.map (fun q => if q.tag = l.tag then { q with trap := q.peer.map Prod.snd } else q) }))
    ∧ (peerLoads (s.ctx c x) = [] → peerStores s c x = [] → (s.ctx c x).nakQueue pa = none → SMap.get [] (s.ctx c x).eq 2 = [] →
      exec (.grantNak c x pa) s = .next (s.setCtx c x { s.ctx c x with peerFailed := some ((s.ctx c x).peerFailed.getD pa) })))

namespace Sys2Proof.Claims

/-! ### Events of queues, grids and messages (04 R73 to R90; 05 R89 to R91, R107, R108) -/

/-- A doorbell comes from its queue's SOURCE (02 R34; 04 R73). -/
def comesFrom (e : QueueEntry) (src : DoorbellSource) : Prop :=
  match src with
  | .cxl v => e.source = 0 ∧ e.vf = v
  | .queueFeed qp => e.source = 1 ∧ e.feedQp = qp
  | .hostComplex => e.source = 2
  | .deviceLaunch v => e.source = 3 ∧ e.vf = v

/-- The tests of a doorbell with tail T (04 R73; 02 R42, step 1). -/
def bellAccepted (e : QueueEntry) (b : VfBind) (src : DoorbellSource) (tail : Word) : Prop :=
  comesFrom e src ∧ e.enabled = true ∧ b.resetBusy = false ∧ (tail - BitVec.ofNat 32 e.tail).toNat < 2 ^ 31
    ∧ (tail - BitVec.ofNat 32 e.progress).toNat ≤ 2 ^ e.log2

/-- A source that can write a doorbell: the host complex only while it runs (02 R20). -/
def rings (s : State) (src : DoorbellSource) : Prop := src = .hostComplex → s.mgmt.hostRunning = true

/-- Some entry of the queue table that a search for pending queues reads is not answered with good data (04 R75; 02 R23). -/
def tableGap (s : State) : Prop :=
  ∃ v ∈ s.att.vfs, v.2.enable = true ∧ ∃ q, v.2.qbase ≤ q ∧ q < v.2.qbase + v.2.qcount ∧ s.tableEntry v.2.part q = none

/-- QUEUE_CTL of FUNC_READY (01 R15). -/
def ctlReady (s : State) : Prop := s.mgmt.funcReady.getLsbD 37 = true

/-- A grid is over: it stands with its record written, or PROGRESS has passed its packet (04 R76, R83). -/
def gridEnded (t : State) (id : Nat) : Prop := ∀ g, SMap.find? t.grids id = some g → g.done = true

/-- What a team of a launch packet needs on its core is free: a work context, the scratchpad run, its code window, a slice or
cluster (05 R89). -/
def roomAt (s : State) (g : Grid) (c x run w b : Nat) : Prop :=
  s.roomFor g.pkt g.part c = some (x, run, w) ∧ (s.core c).chooseSlice (g.pkt.mode == 1) none = some b

/-- No flow on a core waits for a grant to grow. -/
def noneGrows (s : State) (c : Nat) : Prop := ∀ p ∈ (s.core c).ctxs, ∀ q ∈ p.2.flows, q.2.wait ≠ .grow

/-- A record stands in its section's trap queue, or waits for a slot of it (03 R51). -/
def Queued (t : State) (c : Nat) (r : TrapRecord) : Prop :=
  r ∈ (t.sect (c / 8)).trapQ ∨ OwedTrap.record r ∈ (t.sect (c / 8)).owed

/-- The doorbell region of a source holds a VF's queues (04 R72). -/
def regionHolds (src : DoorbellSource) (v : Nat) : Prop := ∀ w, src = .cxl w → w = v

/-- A context as 04 R80 and R81 start it: at the packet's entry, all lanes on, the argument address in s0 and s1 and every
other register zero, with its grants. -/
def startedAs (k : Ctx) (g : Grid) (id run w b : Nat) (task : Option Nat) : Prop :=
  k.live = true ∧ k.mode = (if g.pkt.mode = 1 then .half else .simt) ∧ k.groups = g.pkt.groups ∧ k.part = g.part ∧ k.vf = g.vf
    ∧ k.asid = g.pkt.asid ∧ k.window = w ∧ k.grid = id ∧ k.base = b ∧ k.bound = true ∧ k.blocks = g.pkt.regs ∧ k.spadBase = run
    ∧ k.spadLen = g.pkt.spad ∧ k.task = task
    ∧ k.nregs = min 64 (256 * g.pkt.regs / k.laneCount / 8 * 8)
    ∧ (k.flow 255).pc = BitVec.ofNat 32 g.pkt.entry
    ∧ (k.flow 255).masks = (if g.pkt.mode = 1 then [(0, 0xFFFF)] else (List.range g.pkt.groups).map (fun n => (n, 0xFFFFFFFF)))
    ∧ k.readS 0 = BitVec.ofNat 32 g.pkt.argAddr ∧ k.readS 1 = BitVec.ofNat 32 (g.pkt.argAddr / 2 ^ 32)
    ∧ (∀ r, 2 ≤ r → k.readS r = 0) ∧ ∀ r l, k.readV r l = 0

/-- A grid that may start another team or task: a kernel launch, not over, its packet's start allowed (04 R78). -/
def opens (s : State) (g : Grid) : Prop :=
  g.pkt.kind = 1 ∧ g.done = false ∧ g.verdict = none ∧ s.mayStart g = true ∧ g.pkt.mode ≤ 1

end Sys2Proof.Claims

/-- 04 R73 to R83, R88; 05 R89 to R91: the events of queues, grids and messages complete: doorbells are taken, dropped and
counted or latched; the slice and residence move; packets dispatch, fault and end; teams, tasks and handlers start with
what their packet or message gives them. That a handler takes the lowest free handler context is log 21's choice. -/
def Obligations.QueueAndGridEvents : Prop :=
  (∀ (s : State) (q : Nat) (tail : Word), s.mgmt.hostRunning = false → exec (.doorbell .hostComplex q tail) s = .next s)
  ∧ (∀ (s : State) (src : DoorbellSource) (q : Nat) (tail : Word), rings s src →
    (¬ ctlReady s → exec (.doorbell src q tail) s = .next { s with qc := { s.qc with latched := s.qc.latched ++ [(src, q, tail)] } })
    ∧ (ctlReady s → s.queueVf q = none → exec (.doorbell src q tail) s = .next s)
    ∧ (∀ v b, ctlReady s → s.queueVf q = some (v, b) → ¬ regionHolds src v → exec (.doorbell src q tail) s = .next s)
    ∧ (∀ v b e, ctlReady s → s.queueVf q = some (v, b) → regionHolds src v → s.cached q = some e →
      (bellAccepted e b src tail → exec (.doorbell src q tail) s =
        .next { s with qc := { s.qc with cache := SMap.insert s.qc.cache q { e with tail := tail.toNat } } })
      ∧ (¬ bellAccepted e b src tail → exec (.doorbell src q tail) s =
        .next { s with qc := { s.qc with cache := SMap.insert s.qc.cache q { e with dropped := min (e.dropped + 1) 0xFFFFFFFF } } }))
    ∧ (∀ v b e, ctlReady s → s.queueVf q = some (v, b) → regionHolds src v → s.cached q = none → s.tableEntry b.part q = some e →
      let a := s.entryAddr b.part q
      s.physCheck b.part a true = .ok → offTable s a 64 → bellAccepted e b src tail →
        ∃ t, exec (.doorbell src q tail) s = .next t ∧ t.qc = s.qc ∧ t.mem.readBytes (a + 16) 4 = leBytes 4 tail.toNat
          ∧ (t.mem.read (a + 10)).getLsbD 1 = true ∧ ∀ x, x < a ∨ a + 64 ≤ x → t.mem.read x = s.mem.read x))
  ∧ (∀ (s : State) (v : Word), exec (.qcSliceWrite v) s =
      .next { s with qc := { s.qc with slice := if v.setWidth 16 = 0#16 then 1 else (v.setWidth 16).toNat } })
  ∧ (∀ s : State, (s.nextPartition = none → ∃ t, exec .qcSliceExpiry s = .next t
        ∧ t = { s with mgmt := t.mgmt, qc := { s.qc with left := s.qc.slice } } ∧ (¬ tableGap s → t.mgmt = s.mgmt))
    ∧ ∀ p, s.nextPartition = some p → ∃ t, exec .qcSliceExpiry s = .next t ∧ t.qc.resident = p ∧ t.qc.left = s.qc.slice
        ∧ t.qc.switched = some s.cycle)
  ∧ (∀ (s : State) (q : Nat), ((s.cached q = none ∨ s.pendingQueues s.qc.resident = []) → exec (.queueReplace q) s = .next s)
    ∧ ∀ e n r, s.cached q = some e → s.pendingQueues s.qc.resident = n :: r →
      ∃ t, exec (.queueReplace q) s = .next t ∧ SMap.find? t.qc.cache q = none)
  ∧ (∀ (s : State) (q : Nat), s.dispatchable q = false → exec (.packetDispatch q) s = .next s)
  ∧ (∀ (s : State) (q v : Nat) (b : VfBind) (e : QueueEntry), s.dispatchable q = true → s.queueVf q = some (v, b) →
    s.cached q = some e → s.rangeCheck b.part (e.ringBase + e.head % 2 ^ e.log2 * 256) 256 false = none →
    let p : Packet := ⟨s.mem.readBytes (e.ringBase + e.head % 2 ^ e.log2 * 256) 256⟩
    p.kind = 1 →
    let r := ({ s with qc := { s.qc with rr := q + 1 } } : State).readTables p b.part
    (r.1.packetFault p b.part r.2 = none → ∃ t g, exec (.packetDispatch q) s = .next t ∧ SMap.find? t.grids s.nextGrid = some g
      ∧ g.pkt = p ∧ g.queue = q ∧ g.number = e.head ∧ g.vf = v ∧ g.part = b.part ∧ g.waiting = true ∧ g.verdict = none
      ∧ SMap.find? t.qc.cache q = some { e with head := (e.head + 1) % 2 ^ 32 })
    ∧ ∀ code, r.1.packetFault p b.part r.2 = some code → ∃ t, exec (.packetDispatch q) s = .next t ∧ gridEnded t s.nextGrid
      ∧ t.nextGrid = s.nextGrid + 1)
  ∧ (∀ (s : State) (id : Nat) (g : Grid), SMap.find? s.grids id = some g →
    (g.pkt.kind = 2 → g.waiting = true → g.done = false → s.priorEnded g = true → ∃ t, exec (.marker id) s = .next t ∧ gridEnded t id)
    ∧ (s.priorEnded g = false → exec (.marker id) s = .next s))
  ∧ (∀ (s : State) (id : Nat) (g : Grid), SMap.find? s.grids id = some g →
    (s.gridOver id = false → exec (.gridEnd id) s = .next s)
    ∧ (s.gridOver id = true → ∃ t, exec (.gridEnd id) s = .next t ∧ gridEnded t id
      ∧ ∀ s1 pa, g.pkt.complAddr % 128 = 0 → g.pkt.cbarValid = false → s.walkFor g.pkt.asid g.pkt.complAddr true = (s1, .ok ⟨pa, none⟩) →
          s1.physCheck g.part pa true = .ok → offTable s1 pa 128 → t.mem = s1.mem.writeBytes pa (g.record false)))
  ∧ (∀ (s : State) (id k x run w b : Nat) (g : Grid), SMap.find? s.grids id = some g → opens s g → g.pkt.restartable = false →
    g.restarts = [] → g.nextTeams = [k] → g.slotsFree [k] = true →
    let c := g.map.getD (k % g.pkt.mapCount) 0
    roomAt s g c x run w b → ∃ t, exec (.teamStart id) s = .next t ∧ startedAs (t.ctx c x) g id run w b none ∧ (t.ctx c x).team = k
      ∧ t.mem = s.mem ∧ SMap.find? t.grids id = some { g with started := g.started + 1, waiting := false }
      ∧ (g.bars = [] → ∀ a, run ≤ a → a < run + g.pkt.spad → (t.core c).spad.read a = 0))
  ∧ (∀ (s : State) (id : Nat) (g : Grid), SMap.find? s.grids id = some g → opens s g → g.pkt.restartable = false → g.restarts = [] →
    s.placeAll id g g.nextTeams = none → exec (.teamStart id) s = .next s)
  ∧ (∀ (s : State) (id x run w b : Nat) (g : Grid), SMap.find? s.grids id = some g → opens s g → g.pkt.restartable = true →
    g.started < g.pkt.mapCount → s.oldestWaits (g.map.getD g.started 0) id = false →
    let c := g.map.getD g.started 0
    noneGrows s c → roomAt s g c x run w b → ∃ t y, exec (.taskStart id) s = .next t
      ∧ startedAs (t.ctx c x) g id run w b (some s.tasks.next) ∧ SMap.find? t.tasks.list s.tasks.next = some y
      ∧ y.stamp = s.tasks.age ∧ y.box = ((initialBoxes g.pkt).getD []).getD g.started [] ∧ y.mapIdx = g.started
      ∧ y.state = .running c x ∧ t.tasks.age = s.tasks.age + 1
      ∧ SMap.find? t.grids id = some { g with started := g.started + 1, waiting := false })
  ∧ (∀ (s : State) (c : Nat), s.pendingOn c = [] → exec (.pendingTaskStart c) s = .next s)
  ∧ (∀ (s : State) (c num x run w b : Nat) (y : Task) (g : Grid) (r : List Nat) (later : List (Nat × Task × Grid)),
    s.pendingOn c = (num, y, g) :: later → s.task? num = some y → g.pkt.mode ≤ 1 →
    s.taskCores g y = c :: r → noneGrows s c → roomAt s g c x run w b → ∃ t z, exec (.pendingTaskStart c) s = .next t
      ∧ startedAs (t.ctx c x) g y.grid run w b (some num) ∧ SMap.find? t.tasks.list num = some z
      ∧ z.stamp = y.stamp ∧ z.box = y.box ∧ z.state = .running c x)
  ∧ (∀ (s : State) (c x b : Nat) (m : Message) (r : List Message), (s.core c).messages = m :: r → m.sender = none → s.mgmt.halting = false →
    (16 ≤ x ∧ x < 20) → SMap.find? (s.core c).ctxs x = none → (∀ y, 16 ≤ y → y < x → SMap.find? (s.core c).ctxs y ≠ none) →
    (s.core c).chooseSlice false none = some b →
    let p := SMap.get {} (s.core c).amPort m.entry
    (s.core c).blocksUsed + p.hregs ≤ Config.blocks →
    ∃ t, exec (.handlerStart c) s = .next t ∧ (t.core c).messages = r ∧ t.mem = s.mem
      ∧ (t.ctx c x).live = true ∧ (t.ctx c x).handler = true ∧ (t.ctx c x).groups = 1 ∧ (t.ctx c x).mode = .simt
      ∧ (t.ctx c x).asid = p.asid ∧ (t.ctx c x).part = p.part ∧ ((t.ctx c x).flow 255).pc = m.handler
      ∧ ((t.ctx c x).flow 255).masks = [(0, 0xFFFFFFFF)]
      ∧ (t.ctx c x).readS 0 = BitVec.ofNat 32 m.dest ∧ (t.ctx c x).readS 1 = BitVec.ofNat 32 m.len
      ∧ (∀ i, i < 4 → (t.ctx c x).readS (2 + i) = m.arg.getD i 0) ∧ ∀ i l, (t.ctx c x).readV i l = 0)
  ∧ (∀ (s : State) (c : Nat), (s.core c).messages = [] → exec (.handlerStart c) s = .next s)
  ∧ (∀ (s : State) (n : Nat) (q : QueuePair) (bs : List Byte), SMap.find? s.att.qps n = some q →
    (q.error = true → exec (.activeMessage n bs) s = .next (replied s .accessNak))
    ∧ (q.kind = 2 → q.error = false →
    32 ≤ bs.length → 32 + fieldAt bs 2 2 ≤ bs.length → bs.length ≤ 4096 →
    let part := (vfOf s q.vf).part
    let c := fieldAt bs 12 2
    let p := SMap.get {} (s.core c).amPort (fieldAt bs 1 1)
    (s.messageStatus part bs ≠ 0 → ∃ t, exec (.activeMessage n bs) s = .next t ∧ OnlyAttach s t ∧ Logged s t 0x02 true
      ∧ t.att = { s.att with replies := s.att.replies ++ [.accessNak] })
    ∧ (s.messageStatus part bs = 0 → (s.core c).handlersFree = 0 → exec (.activeMessage n bs) s = .next (replied s .rnrNak))
    ∧ (s.messageStatus part bs = 0 → (s.core c).handlersFree ≠ 0 → ∃ t m, exec (.activeMessage n bs) s = .next t
      ∧ t.mem = s.mem ∧ t.att = { s.att with replies := s.att.replies ++ [.done] }
      ∧ (t.core c).messages = (s.core c).messages ++ [m] ∧ m.handler = BitVec.ofNat 32 (fieldAt bs 4 4)
      ∧ m.dest = fieldAt bs 8 4 ∧ m.len = fieldAt bs 2 2 ∧ m.entry = fieldAt bs 1 1 ∧ m.vf = q.vf
      ∧ m.arg = (List.range 4).map (fun i => BitVec.ofNat 32 (fieldAt bs (16 + 4 * i) 4))
      ∧ (t.core c).spad = (s.core c).spad.writeBytes (p.zoneBase * 256 + fieldAt bs 8 4) ((bs.drop 32).take (fieldAt bs 2 2)))))

/-- 05 R95, R107, R108; 06 R122, R128, R129, R131; 08 R159: the events of a core's schedule and of tasks complete: the issue
policy, boosts and claims; a commit makes the write set memory and ends the task, an abort re-queues it whole, a budget event
as two halves or, at smallest grain, writes cause 0x0C; the cycle allowance and the age of an interval take effect. -/
def Obligations.ScheduleAndTaskEvents : Prop :=
  (∀ (s : State) (c : Nat) (v : Dword), ∃ t, exec (.coreSchedWrite c v) s = .next t ∧ t = { s with cores := t.cores }
    ∧ (∀ d, d ≠ c → t.core d = s.core d)
    ∧ t.core c = { s.core c with rr := v.getLsbD 0, rrPtr := if v.getLsbD 0 = true ∧ (s.core c).rr = false then 0 else (s.core c).rrPtr })
  ∧ (∀ (s : State) (c x f : Nat), let fl := (s.ctx c x).flow f
    ((s.ctx c x).live = true → 256 ≤ fl.ready → fl.boost = none → ∃ t, exec (.flowBoost c x f) s = .next t ∧ t.mem = s.mem
      ∧ (t.ctx c x).flow f = { fl with boost := some s.cycle } ∧ (t.core c).boosts = (s.core c).boosts + 1)
    ∧ (fl.ready < 256 ∨ fl.boost ≠ none → exec (.flowBoost c x f) s = .next s))
  ∧ (∀ (s : State) (c b : Nat) (q : Claim), (s.core c).claims = [q] → q.granted = false → q.ctx = none →
    ((q.block = some b ∧ (s.core c).blockFree q.clusters b = true)
      ∨ (∀ d, q.block = some d → (s.core c).blockFree q.clusters d = false) ∧ (s.core c).eligibleBlock q.clusters = some b) →
    (∀ p ∈ (s.core c).ctxs, ∀ n ∈ p.2.clusterList, n < b ∨ b + q.clusters ≤ n) →
    (∀ p ∈ (s.core c).ctxs, ∀ r ∈ (s.core c).ctxs, p.1 = r.1 → p = r) →
    ∃ t, exec (.claimGrant c) s = .next t ∧ t.mem = s.mem ∧ (t.core c).claims = [{ q with block := some b, granted := true }])
  ∧ (∀ (s : State) (c : Nat), (s.core c).claims = [] → exec (.claimGrant c) s = .next s)
  ∧ (∀ (s : State) (c x id : Nat) (y : Task) (g : Grid), s.commitReady c x = true → (s.ctx c x).task = some id →
    s.task? id = some y → SMap.find? s.grids (s.ctx c x).grid = some g → (s.ctx c x).tack = [] → (s.ctx c x).loads = [] →
    (s.core c).trc.enable = false →
    (∀ e ∈ s.tasks.spec, e.task = id → offTable s (e.pa * 4) 4 ∧ s.physCheck (s.ctx c x).part (e.pa * 4) true = .ok) →
    ∃ t, exec (.taskCommit c x) s = .next t ∧ (t.ctx c x).live = false ∧ t.task? id = none ∧ (∀ e ∈ t.tasks.spec, e.task ≠ id)
      ∧ (∀ l ∈ t.tasks.locks, l.holder ≠ id)
      ∧ (∃ h, SMap.find? t.grids (s.ctx c x).grid = some h ∧ h.committed = g.committed + 1)
      ∧ t.mem = (s.tasks.spec.filter (fun e => e.task == id)).foldl (fun m e => m.writeBytes (e.pa * 4) (leBytes 4 e.val.toNat)) s.mem)
  ∧ (∀ (s : State) (c x id cause : Nat) (y : Task), s.abortFor c x = some (id, y) → y.abortDue = some cause →
    (∀ a b, y.state ≠ .saved a b) → (s.ctx c x).task = some id → s.task? id = some y →
    ∃ t, exec (.taskAbort c x) s = .next t ∧ t.mem = s.mem ∧ (t.ctx c x).live = false ∧ (∀ e ∈ t.tasks.spec, e.task ≠ id)
      ∧ Requeued t id y y.box cause)
  ∧ (∀ (s : State) (c x : Nat), s.abortFor c x = none → exec (.taskAbort c x) s = .next s)
  ∧ (∀ (s : State) (c x id code f : Nat) (y : Task) (g : Grid), (s.ctx c x).live = true → (s.ctx c x).stopped = none →
    s.trapOwed c x = false → (s.ctx c x).task = some id → (s.ctx c x).budgetEvent = some (code, f) → s.task? id = some y → s.grid? y.grid = some g →
    (∀ lo hi, id ≠ s.tasks.next → splitBox g.pkt y.box = some (lo, hi) → ∃ t, exec (.budgetEvent c x) s = .next t ∧ t.mem = s.mem
      ∧ (t.ctx c x).live = false ∧ (∀ e ∈ t.tasks.spec, e.task ≠ id) ∧ Requeued t id y lo code ∧ Requeued t s.tasks.next y hi code)
    ∧ (splitBox g.pkt y.box = none → ∃ t r, exec (.budgetEvent c x) s = .next t ∧ r.cause = 0x0C ∧ r.detail = code ∧ r.core = c
      ∧ r.context = x ∧ r.age = y.stamp ∧ Queued t c r))
  ∧ (∀ (s : State) (c x : Nat) (g : Grid), (s.ctx c x).live = true → (s.ctx c x).task ≠ none → (s.ctx c x).budgetEvent = none →
    SMap.find? s.grids (s.ctx c x).grid = some g →
    (0 < g.pkt.cycleBudget → g.pkt.cycleBudget ≤ (s.ctx c x).taskCycles → exec (.cycleBudgetExpiry c x) s =
      .next (s.setCtx c x { s.ctx c x with budgetEvent := some (0x07, (s.ctx c x).leadFlow) }))
    ∧ ((s.ctx c x).taskCycles < g.pkt.cycleBudget → exec (.cycleBudgetExpiry c x) s = .next s))
  ∧ (∀ (s : State) (c x : Nat), (s.ctx c x).live = true →
    ((s.ctx c x).age < 65536 → exec (.intervalAgeClose c x) s = .next s)
    ∧ (65536 ≤ (s.ctx c x).age → ∃ t, exec (.intervalAgeClose c x) s = .next t ∧ (t.ctx c x).age = 0 ∧ (t.ctx c x).tack = []
        ∧ (t.ctx c x).held = [] ∧ (t.ctx c x).undo = []))

namespace Sys2Proof.Claims

/-! ### Events of engines, windows and user interrupts (09 R188; 10 R210; 16 R334; 18 R355 to R370) -/

/-- The team has lanes left, so that the end of a command does not end it (14 R286). -/
def staysOn (s : State) (c x : Nat) : Prop := ∃ p ∈ (s.ctx c x).flows, p.2.masks ≠ []

/-- The head of a queue has left it. -/
def popped (s t : State) (c x q : Nat) : Prop := SMap.get [] (t.ctx c x).eq q = (SMap.get [] (s.ctx c x).eq q).drop 1

/-- The scratchpad bytes of a context's grant at an offset. -/
def grantBytes (s : State) (c x off n : Nat) : List Byte := (s.core c).spad.readBytes ((s.ctx c x).spadBase + off) n

end Sys2Proof.Claims

/-- 03 R51; 09 R188; 10 R210; 16 R334; 18 R355, R357, R363, R366, R369, R370: the events of engines, loads, windows and user interrupts
complete: fences and copies leave their queues, counting where they notify, messages, launches and collectives answer their
status, a fault stops its queue with a record, a load's value is written, and arrivals and interrupts reach their context. That the
oldest load returns first is log 22's choice. -/
def Obligations.EngineAndInterruptEvents : Prop :=
  (∀ (s : State) (c x q : Nat) (cmd : EngCmd) (m : BitVec 4), headOf s c x q cmd → cmd.op = .fence m → staysOn s c x →
    ((∀ j, j < 4 → m.getLsbD j = true → ∃ h, headOf s c x j h ∧ h.id = cmd.id) →
      ∃ t, exec (.enginePartLanded c x q) s = .next t ∧ t.mem = s.mem
        ∧ (∀ j, j < 4 → m.getLsbD j = true → popped s t c x j)
        ∧ ∀ j, j < 4 → m.getLsbD j = false → SMap.get [] (t.ctx c x).eq j = SMap.get [] (s.ctx c x).eq j)
    ∧ ((∃ j, j < 4 ∧ m.getLsbD j = true ∧ ∀ h, headOf s c x j h → h.id ≠ cmd.id) → exec (.enginePartLanded c x q) s = .next s))
  ∧ (∀ (s : State) (c x q : Nat) (cmd : EngCmd) (d : CopyDesc), headOf s c x q cmd → cmd.op = .copy d false → staysOn s c x →
    (s.ctx c x).task = none → cmd.done = 0 → d.sspace = 0 → d.dspace = 0 → d.count false = 1 → d.elem ≤ 3 →
    d.src < 2 ^ 32 → d.dst < 2 ^ 32 → d.dst % 2 ^ d.elem = 0 →
    let n := 2 ^ d.elem
    let base := (s.ctx c x).spadBase
    let moved := (s.core c).spad.writeBytes (base + d.dst) (grantBytes s c x d.src n)
    ∃ t, exec (.enginePartLanded c x q) s = .next t ∧ t.mem = s.mem ∧ popped s t c x q
      ∧ (cmd.notify = none → (t.core c).spad = moved)
      ∧ ∀ off, cmd.notify = some off →
          t.barrierAt c (base + off) = ((Barrier.ofBytes (moved.readBytes (base + off) 32)).count 0 n).1)
  ∧ (∀ (s s1 : State) (c x q j pa : Nat) (cmd : EngCmd) (d : GatherDesc), headOf s c x q cmd → cmd.op = .gather .gat d →
    staysOn s c x → (s.ctx c x).task = none → (s.ctx c x).engPages = [] → cmd.done = 0 → cmd.old = [] → cmd.notify = none →
    d.idx = [j] → d.rowBytes = 4 → d.local_ + 4 ≤ 2 ^ 32 →
    s.translate c (s.ctx c x).asid (spaceAddr 2 ((d.table + j * d.tstride : Nat) : Int)) false = (s1, .ok ⟨pa, none⟩) →
    pa < Config.regSpace → s1.physCheck (s.ctx c x).part pa false = .ok →
    ∃ t, exec (.enginePartLanded c x q) s = .next t ∧ t.mem = s1.mem ∧ popped s t c x q
      ∧ (t.core c).spad = (s.core c).spad.writeBytes ((s.ctx c x).spadBase + d.local_) (s1.mem.readBytes pa 4))
  ∧ (∀ (s : State) (c x : Nat) (cmd : EngCmd) (off compl : Nat), headOf s c x 3 cmd → cmd.op = .send off compl → cmd.queue = 3 →
    staysOn s c x → cmd.done = 0 → cmd.notify = none →
    let st := s.messageStatus (s.ctx c x).part cmd.msg
    (st ≠ 0 → ∃ t, exec (.enginePartLanded c x 3) s = .next t ∧ popped s t c x 3 ∧ Logged s t 0x02 true
      ∧ (t.core c).spad = (s.core c).spad.writeBytes ((s.ctx c x).spadBase + compl) (leBytes 4 st ++ leBytes 4 1))
    ∧ (st = 0 → (s.core (fieldAt cmd.msg 12 2)).handlersFree = 0 → exec (.enginePartLanded c x 3) s = .next s)
    ∧ (st = 0 → (s.core (fieldAt cmd.msg 12 2)).handlersFree ≠ 0 → ∃ t m, exec (.enginePartLanded c x 3) s = .next t
      ∧ (t.core (fieldAt cmd.msg 12 2)).messages = (s.core (fieldAt cmd.msg 12 2)).messages ++ [m] ∧ m.sender = some (c, x)))
  ∧ (∀ (s : State) (c x i addr compl : Nat) (cmd : EngCmd), headOf s c x 3 cmd → cmd.op = .launch i addr compl → cmd.queue = 3 →
    staysOn s c x → cmd.msg ≠ [] → cmd.notify = none →
    let b := vfOf s (s.ctx c x).vf
    let q := b.qbase + i
    let done : State → Nat → Prop := fun t st =>
      (t.core c).spad = (s.core c).spad.writeBytes ((s.ctx c x).spadBase + compl) (leBytes 4 st ++ leBytes 4 1)
    (b.qcount ≤ i → ∃ t, exec (.launchAppend c x) s = .next t ∧ popped s t c x 3 ∧ Logged s t 0x02 true ∧ done t 6)
    ∧ ∀ e, i < b.qcount → s.cached q = some e →
      (e.enabled = false ∨ e.source ≠ 3 → ∃ t, exec (.launchAppend c x) s = .next t ∧ popped s t c x 3 ∧ Logged s t 0x02 true ∧ done t 6)
      ∧ (e.enabled = true → e.source = 3 → b.resetBusy = true → ∃ t, exec (.launchAppend c x) s = .next t ∧ popped s t c x 3
        ∧ Logged s t 0x02 true ∧ done t 6
        ∧ SMap.find? t.qc.cache q = some { e with dropped := min (e.dropped + 1) 0xFFFFFFFF })
      ∧ (e.enabled = true → e.source = 3 → b.resetBusy = false →
        2 ^ e.log2 < (BitVec.ofNat 32 (e.tail + 1) - BitVec.ofNat 32 e.progress).toNat → exec (.launchAppend c x) s = .next s)
      ∧ (e.enabled = true → e.source = 3 → b.resetBusy = false → (BitVec.ofNat 32 (e.tail + 1) - BitVec.ofNat 32 e.progress).toNat ≤ 2 ^ e.log2 →
        let slot := e.ringBase + e.tail % 2 ^ e.log2 * 256
        s.physCheck b.part slot true = .ok → offTable s slot cmd.msg.length →
        ∃ t, exec (.launchAppend c x) s = .next t ∧ popped s t c x 3 ∧ done t 0 ∧ t.mem = s.mem.writeBytes slot cmd.msg
          ∧ SMap.find? t.qc.cache q = some { e with tail := (e.tail + 1) % 2 ^ 32 }))
  ∧ (∀ (s : State) (c x : Nat), (s.membersOf c x = [] → exec (.collectiveEnd c x) s = .next s)
    ∧ ∀ m, s.membersOf c x = [m] → m.core = c → m.ctx = x → m.d.ndev = 1 → m.d.rank = 0 → s.rankHolds m = true →
      s.localRanks m = [0] → s.nextFault c x 2 = none → m.cmd.done = 0 → staysOn s c x →
      ∃ t, exec (.collectiveEnd c x) s = .next t ∧ popped s t c x 2
        ∧ (t.core c).spad.readBytes ((s.ctx c x).spadBase + m.d.status) 4 = leBytes 4 0)
  ∧ (∀ (s : State) (c x q : Nat), (s.nextFault c x q = none → exec (.engineFault c x q) s = .next s)
    ∧ ∀ f cmd, s.nextFault c x q = some f → headOf s c x q cmd → ∃ t r, exec (.engineFault c x q) s = .next t
      ∧ t.mem = (s.faultOf c x q).1.mem
      ∧ SMap.find? (t.ctx c x).eqStopped q = some r ∧ (t.ctx c x).stopped = (s.ctx c x).stopped ∧ Queued t c r
      ∧ r.cause = f.cause ∧ r.detail = f.detail ∧ r.codeAddr = cmd.site ∧ r.slots = 0x2000 ∧ r.pass = 0xFE
      ∧ r.lanes = BitVec.ofNat 32 q ∧ r.core = c ∧ r.context = x)
  ∧ (∀ (s : State) (c x : Nat), ((∀ l ∈ (s.ctx c x).loads, l.trap ≠ none) → exec (.loadValueReturned c x) s = .next s)
    ∧ ∀ l, (s.ctx c x).loads.find? (fun l => l.trap.isNone) = some l → ∃ t, exec (.loadValueReturned c x) s = .next t
      ∧ t = s.setCtx c x (t.ctx c x)
      ∧ (t.ctx c x).loads = (s.ctx c x).loads.filter (fun q => q.tag != l.tag)
      ∧ (t.ctx c x).v = ((s.ctx c x).writes l.writes).v ∧ (t.ctx c x).sr = ((s.ctx c x).writes l.writes).sr
      ∧ (t.ctx c x).flows = (s.ctx c x).flows
      ∧ ∀ p ∈ (t.ctx c x).pend, p.till = none → p.tag ≠ l.tag)
  ∧ (∀ (s : State) (c w part : Nat) (v : Dword), let cfg := SMap.get {} (s.core c).barWin w
    let index := (v.extractLsb' 0 16).toNat
    (cfg.part ≠ part → ∃ t, exec (.windowArrival c w part v) s = .next t ∧ OnlyMgmt s t ∧ Logged s t 0x02 true)
    ∧ (cfg.part = part → cfg.valid = false → exec (.windowArrival c w part v) s = .next s)
    ∧ (cfg.part = part → cfg.valid = true → (v.extractLsb' 43 21 ≠ 0 ∨ s.objectLive c cfg.part index = false) →
      ∃ t, exec (.windowArrival c w part v) s = .next t ∧ Logged s t 0x02 true ∧ (t.core c).spad = (s.core c).spad
        ∧ (SMap.get {} (t.core c).barWin w).dropped = min (cfg.dropped + 1) 0xFFFF)
    ∧ (cfg.part = part → cfg.valid = true → v.extractLsb' 42 22 = 0 → s.objectLive c cfg.part index = true →
      ∃ t, exec (.windowArrival c w part v) s = .next t ∧ t.mgmt = s.mgmt
        ∧ t.barrierAt c (index * 32) = ((s.barrierAt c (index * 32)).count (v.extractLsb' 16 16).toNat 0).1))
  ∧ (∀ (s : State) (c x part : Nat) (v : Word),
    ((s.ctx c x).live = false ∨ (s.ctx c x).part ≠ part →
      ∃ t, exec (.uiRaise c x part v) s = .next t ∧ OnlyMgmt s t ∧ Logged s t 0x02 true)
    ∧ ((s.ctx c x).live = true → (s.ctx c x).part = part → 15 < v.toNat → exec (.uiRaise c x part v) s = .next s)
    ∧ ((s.ctx c x).live = true → (s.ctx c x).part = part → v.toNat ≤ 15 → ∃ t, exec (.uiRaise c x part v) s = .next t
      ∧ t = s.setCtx c x { s.ctx c x with uipend := (s.ctx c x).uipend ||| (1#16 <<< v.toNat), raised := (t.ctx c x).raised,
                                          raisedAt := s.cycle }
      ∧ (t.ctx c x).raised.getLsbD v.toNat = true))
  ∧ (∀ (s : State) (c x : Nat), s.uiDue c x = false → exec (.uiDelivery c x) s = .next s)
  ∧ (∀ (s : State) (c x n : Nat), s.uiDue c x = true → n < 16 → (s.ctx c x).uipend.getLsbD n = true → (s.ctx c x).uimask.getLsbD n = false →
    (∀ i, i < n → (s.ctx c x).uipend.getLsbD i = false ∨ (s.ctx c x).uimask.getLsbD i = true) → (s.core c).trc.enable = false →
    let k := s.ctx c x
    let lead := k.leadFlow
    (k.uivec ≠ 0 → ∃ t, exec (.uiDelivery c x) s = .next t ∧ t.mem = s.mem ∧ (t.ctx c x).inHandler = true
      ∧ (t.ctx c x).uisrc = BitVec.ofNat 32 n ∧ (t.ctx c x).uipc = (k.flow lead).here ∧ (t.ctx c x).uipend = k.uipend &&& ~~~(1#16 <<< n)
      ∧ ((t.ctx c x).flow lead).pc = k.uivec
      ∧ ∀ p ∈ k.flows, p.1 ≠ lead → ((t.ctx c x).flow p.1).wait = .handler)
    ∧ (k.uivec = 0 → s.ringFull c = false → ∃ t r, exec (.uiDelivery c x) s = .next t ∧ (t.ctx c x).stopped = some r
      ∧ (t.ctx c x).uipend = k.uipend &&& ~~~(1#16 <<< n)
      ∧ r ∈ (t.sect (c / 8)).trapQ ∧ r.cause = 0x13 ∧ r.detail = n ∧ r.core = c ∧ r.context = x)
    ∧ (k.uivec = 0 → s.ringFull c = true → ∃ t w, exec (.uiDelivery c x) s = .next t ∧ t.ctx c x = k
      ∧ OwedTrap.stop c x lead w ∈ (t.sect (c / 8)).owed ∧ w.cause = 0x13 ∧ w.detail = n))

namespace Sys2Proof.Claims

/-! ### Events of sections and registers (03 R47 to R68; 06 R132, R135; 07 R139; 10 R207 to R217; 16 R334) -/

/-- CMD_ERR of the core's section sets and nothing else changes (03 R54). -/
def CommandError (s : State) (c : Nat) (o : Out) : Prop :=
  o = .next { s with sects := SMap.insert s.sects (c / 8) { s.sect (c / 8) with cmdErr := true } }

/-- Nothing of a context is stopped: neither it, nor an engine queue of it, nor a parked pass, and no context that a cause 0x14
saved from its place waits for a command (10 R215). -/
def nothingStopped (s : State) (c x : Nat) : Prop :=
  (s.ctx c x).stopped = none ∧ (s.ctx c x).eqStopped = [] ∧ (∀ p ∈ (s.core c).parked, p.ctx ≠ x)
    ∧ ((s.ctx c x).live = false → ∀ p ∈ s.parkedCtxs, p.2.home = c → p.2.homeCtx = x → p.2.lost = none)

/-- A stop of a context is written, or waits with the context as it stands at its trap point where its ring is full (03 R51). -/
def StopsWith (s t : State) (c x cause detail : Nat) : Prop :=
  (s.ringFull c = false → ∃ r, (t.ctx c x).stopped = some r ∧ r ∈ (t.sect (c / 8)).trapQ ∧ r.cause = cause ∧ r.detail = detail
    ∧ r.core = c ∧ r.context = x)
  ∧ (s.ringFull c = true → t.ctx c x = s.ctx c x
    ∧ ∃ f w, OwedTrap.stop c x f w ∈ (t.sect (c / 8)).owed ∧ w.cause = cause ∧ w.detail = detail)

/-- A context stopped by itself, its engine queues running, at no machine check (10 R216). -/
def stoppedAt (s : State) (c x : Nat) (r : TrapRecord) : Prop :=
  (s.ctx c x).live = true ∧ (s.ctx c x).stopped = some r ∧ (s.ctx c x).eqStopped = [] ∧ r.cause ≠ 0x15

/-- The commands of CTX_CMD that need something stopped (03 R54). -/
def needsStop (c x : Nat) (i : Instr) : Prop :=
  i = .replay c x ∨ i = .skip c x ∨ i = .park c x ∨ i = .destroy c x ∨ i = .faultGrid c x ∨ i = .requeue c x ∨ i = .flush c x
    ∨ ∃ f, i = .step c x f

/-- The bytes of an invalidation's size code (03 R68). -/
def invalBytes (n : Nat) : Nat :=
  match n with
  | 0 => 2 ^ 12
  | 1 => 2 ^ 16
  | 2 => 2 ^ 21
  | 3 => 2 ^ 30
  | 4 => 2 ^ 36
  | _ => 2 ^ 64

/-- An access to memory or a peer that was translated under an invalidated entry has been sent and is not done (03 R68). -/
def storedUnder (e : SentStore) (i : Inval) : Prop :=
  (∀ c x a, e.dst ≠ .spad c x a) ∧ i.covers e.asid e.va.toNat e.bytes.length = true

/-- A leaf lies outside an invalidated range, or in another address space. -/
def outsideRange (e : TlbEntry) (asid va size : Nat) : Prop :=
  e.asid = asid → e.va + e.size ≤ va / invalBytes size * invalBytes size
    ∨ va / invalBytes size * invalBytes size + invalBytes size ≤ e.va

/-- A pointer of a walk cache lies outside an invalidated range, or in another address space (03 R65, R68). -/
def walkOutside (e : WalkEntry) (asid va size : Nat) : Prop :=
  e.asid = asid → (e.va + 1) * 2 ^ levelShift e.level ≤ va / invalBytes size * invalBytes size
    ∨ va / invalBytes size * invalBytes size + invalBytes size ≤ e.va * 2 ^ levelShift e.level

/-- Where the next command and the next event of a section stand in its rings of 64 B entries (03 R46). -/
def commandSlot (s : State) (sec : Nat) : Nat := Config.fwCommandRing sec + 64 * ((s.sect sec).fwTaken % Config.fwRingSize sec)
def eventSlot (s : State) (sec : Nat) : Nat :=
  Config.fwEventRing sec + 64 * ((s.sect sec).fwEvents.length % Config.fwRingSize sec)

/-- Neither entry lies in the ownership table. -/
def ringsOff (s : State) (sec : Nat) : Prop := offTable s (commandSlot s sec) 64 ∧ offTable s (eventSlot s sec) 64

/-- An address outside the two entries. -/
def offRings (s : State) (sec x : Nat) : Prop :=
  (x < commandSlot s sec ∨ commandSlot s sec + 64 ≤ x) ∧ (x < eventSlot s sec ∨ eventSlot s sec + 64 ≤ x)

/-- A window's bytes of the instruction store (03 R47). -/
def inWindow (w : CodeWin) (a : Nat) : Prop := w.valid = true ∧ w.base * 4096 ≤ a ∧ a < (w.base + w.len) * 4096

end Sys2Proof.Claims

/-- 03 R51, R54, R65, R68; 06 R132, R135; 10 R207, R208, R211: the events of a section and the commands of CTX_CMD complete:
walks set ACCESSED and DIRTY, invalidations drop translations, the trap queue gives slots, and a stopped context is replayed,
skipped, parked, restored, destroyed, re-queued, flushed or stepped; a command with nothing to act on sets CMD_ERR. The width of the
trap queue's pointers is log 115's choice, what a refused restore and one of a damaged area do log 65's reading, and that a walk for a
write that its leaf refuses changes no entry log 127's (DEDUCED). -/
def Obligations.SectionAndCommandEvents : Prop :=
  (∀ (s : State) (sec asid va ea e l : Nat) (w : Bool), va < 2 ^ 57 → (s.core (8 * sec)).l1tlb = [] → (s.sect sec).tlb = [] → (s.sect sec).walkCache = [] →
    (SMap.get {} s.aspaces asid).valid = true →
    s.walk (SMap.get {} s.aspaces asid).part va 4 (SMap.get {} s.aspaces asid).root = .ok (ea, e, l) → e.testBit 4 = false →
    offTable s ea 8 →
    (w = true → e.testBit 2 = false → ∃ t, exec (.pageWalk sec asid va w) s = .next t ∧ t.mem = s.mem
      ∧ (t.sect sec).tlb = [])
    ∧ (w = false ∨ e.testBit 2 = true → ∃ t en, exec (.pageWalk sec asid va w) s = .next t
      ∧ t.mem = s.mem.writeBytes ea (leBytes 8 (e ||| if w then 0x60 else 0x20))
      ∧ (t.sect sec).tlb = [en] ∧ en.asid = asid ∧ en.va ≤ va ∧ va < en.va + en.size ∧ en.write = e.testBit 2))
  ∧ (∀ (s : State) (sec asid va size : Nat), (size ≤ 4 ∨ size = 7) → (∀ p ∈ s.cores, ∀ q ∈ p.2.ctxs, q.2.tack = []) →
    ∃ t, exec (.tlbInval sec asid va size) s = .next t ∧ t.mem = s.mem ∧ (t.sect sec).invalDone = false
      ∧ (t.sect sec).inval = some ⟨asid, va, size⟩ ∧ (∀ c, ∀ e ∈ (t.core c).l1tlb, outsideRange e asid va size)
      ∧ (∀ n, ∀ e ∈ (t.sect n).tlb, outsideRange e asid va size)
      ∧ ∀ n, ∀ e ∈ (t.sect n).walkCache, walkOutside e asid va size)
  ∧ (∀ (s : State) (sec : Nat), ((s.sect sec).inval = none → exec (.invalDone sec) s = .next s)
    ∧ ∀ i, (s.sect sec).inval = some i → ((∃ e ∈ s.sent, storedUnder e i) → exec (.invalDone sec) s = .next s)
        ∧ ((∀ e ∈ s.sent, ¬ storedUnder e i) → ∃ t, exec (.invalDone sec) s = .next t ∧ t.mem = s.mem
          ∧ (t.sect sec).inval = none ∧ (t.sect sec).invalDone = true))
  ∧ (∀ (s : State) (sec : Nat) (v : Word), let q := s.sect sec
    let kept := q.trapQ.drop (v - q.trapHead).toNat
    (∀ rs : List TrapRecord, q.owed = rs.map OwedTrap.record → (∀ r ∈ rs, r.core / 8 = sec) →
      kept.length + rs.length ≤ Config.trapMax → ∃ t, exec (.trapqHeadWrite sec v) s = .next t ∧ t.mem = s.mem
        ∧ (t.sect sec).trapHead = v ∧ (t.sect sec).trapQ = kept ++ rs ∧ (t.sect sec).owed = []
        ∧ (t.sect sec).trapTail = q.trapTail + BitVec.ofNat 32 rs.length)
    ∧ ∀ c x f w, q.owed = [OwedTrap.stop c x f w] → c / 8 = sec → (s.ctx c x).live = true → kept.length < Config.trapMax →
        ∃ t r, exec (.trapqHeadWrite sec v) s = .next t ∧ (t.sect sec).trapHead = v ∧ (t.sect sec).trapQ = kept ++ [r]
          ∧ (t.sect sec).owed = [] ∧ (t.ctx c x).stopped = some r ∧ r.cause = w.cause ∧ r.detail = w.detail ∧ r.core = c ∧ r.context = x)
  ∧ (∀ (s : State) (c x : Nat) (i : Instr), needsStop c x i → nothingStopped s c x → CommandError s c (exec i s))
  ∧ (∀ (s : State) (c x : Nat) (r : TrapRecord), stoppedAt s c x r → r.flags.getLsbD 1 = true →
    exec (.replay c x) s = .next (s.setCtx c x { s.ctx c x with stopped := none }))
  ∧ (∀ (s : State) (c x : Nat) (r : TrapRecord), stoppedAt s c x r → (s.ctx c x).handler = false →
    (r.flags.getLsbD 1 = false → ∃ t, exec (.replay c x) s = .next t ∧ (t.ctx c x).live = false ∧ gridEnded t (s.ctx c x).grid)
    ∧ ∃ t, exec (.faultGrid c x) s = .next t ∧ (t.ctx c x).live = false ∧ gridEnded t (s.ctx c x).grid)
  ∧ (∀ (s : State) (c x : Nat) (r : TrapRecord), stoppedAt s c x r →
    ((r.cause = 0x13 ∨ r.cause = 0x17 ∨ r.cause = 0x01 ∧ r.detail = 2) →
      exec (.skip c x) s = .next (s.setCtx c x { s.ctx c x with stopped := none }))
    ∧ (¬ (r.cause = 0x13 ∨ r.cause = 0x17 ∨ r.cause = 0x01 ∧ r.detail = 2) → (s.ctx c x).mode ≠ .vliw →
      ((s.ctx c x).flow r.flow).group = none → ∃ t, exec (.skip c x) s = .next t ∧ t.mem = s.mem ∧ (t.ctx c x).stopped = none
        ∧ ((t.ctx c x).flow r.flow).pc = r.codeAddr
            + (if (fieldAt (s.codeBytes c (s.ctx c x).window r.codeAddr.toNat 4) 0 1) % 4 = 2 then 8 else 4)
        ∧ (t.ctx c x).v = (s.ctx c x).v ∧ (t.ctx c x).sr = (s.ctx c x).sr))
  ∧ (∀ (s : State) (c x : Nat) (r : TrapRecord), stoppedAt s c x r →
    let u := if (s.ctx c x).intervalEmpty then s else s.closeInterval c x
    (u.parkWaits c x = true → exec (.park c x) s = .next (u.setCtx c x { u.ctx c x with parkAsked := true }))
    ∧ ((s.ctx c x).intervalEmpty = true → s.parkWaits c x = false → r.cause ≠ 0x11 → (∀ p ∈ (s.core c).tilesUse, p.1 ≠ x) → (s.core c).trc.enable = false →
      (s.ctx c x).task = none →
      let pa := SMap.get 0 (s.core c).ctxSave x
      let k := s.ctx c x
      let image := k.saveBytes ((s.core c).parked.filter (fun p => p.ctx == x)) (s.ageOf k)
        ((s.core c).spad.readBytes k.spadBase k.spadLen)
      s.rangeCheck k.part pa image.length true = none →
      ∃ t k, exec (.park c x) s = .next t ∧ (t.ctx c x).live = false ∧ SMap.find? t.parkedCtxs pa = some k
        ∧ k.v = (s.ctx c x).v ∧ k.sr = (s.ctx c x).sr ∧ k.flows = (s.ctx c x).flows ∧ k.stopped = none ∧ k.home = c))
  ∧ (∀ (s : State) (c x : Nat), let pa := SMap.get 0 (s.core c).ctxSave x
    (s.restoreFrom c x pa = none → CommandError (s.logArea pa) c (exec (.restore c x) s))
    ∧ ∀ u k, s.restoreFrom c x pa = some u → SMap.find? s.parkedCtxs pa = some k → exec (.restore c x) s = .next u
        ∧ SMap.find? u.parkedCtxs pa = none ∧ (u.ctx c x).live = k.live
        ∧ (s.rangeCheck k.part pa (saveShape (s.mem.readBytes pa 256)).stop false = none → (u.ctx c x).cause = 2)
        ∧ (s.rangeCheck k.part pa (saveShape (s.mem.readBytes pa 256)).stop false ≠ none → k.live = true → k.stopped = none →
            s.trapOwed c x = false →
            (s.ringFull c = false → ∃ r, (u.ctx c x).stopped = some r ∧ r ∈ (u.sect (c / 8)).trapQ ∧ r.cause = 0x15 ∧ r.detail = 2)
            ∧ (s.ringFull c = true → (u.ctx c x).stopped = none
              ∧ ∃ f w, OwedTrap.stop c x f w ∈ (u.sect (c / 8)).owed ∧ w.cause = 0x15 ∧ w.detail = 2)))
  ∧ (∀ (s : State) (c x : Nat) (r : TrapRecord), stoppedAt s c x r → ∃ t, exec (.destroy c x) s = .next t ∧ t.mem = s.mem
    ∧ (t.ctx c x).live = false ∧ ∀ id, (s.ctx c x).task = some id → t.task? id = none ∧ ∀ e ∈ t.tasks.spec, e.task ≠ id)
  ∧ (∀ (s : State) (c x id : Nat) (y : Task) (r : TrapRecord), stoppedAt s c x r → (s.ctx c x).task = some id →
    s.task? id = some y → s.oldestUnfinished id = false → ∃ t, exec (.requeue c x) s = .next t ∧ t.mem = s.mem
      ∧ (t.ctx c x).live = false ∧ (∀ e ∈ t.tasks.spec, e.task ≠ id) ∧ Requeued t id y y.box 0x03)
  ∧ (∀ (s : State) (c x : Nat) (r : TrapRecord) (g : Grid), stoppedAt s c x r → (s.ctx c x).idem = true → (s.ctx c x).task = none →
    (s.ctx c x).handler = false → SMap.find? s.grids (s.ctx c x).grid = some g → ∃ t, exec (.flush c x) s = .next t
      ∧ t.mem = s.mem ∧ (t.ctx c x).live = false
      ∧ SMap.find? t.grids (s.ctx c x).grid = some { g with restarts := g.restarts ++ [(s.ctx c x).team] })
  ∧ (∀ (s : State) (c x f : Nat) (r : TrapRecord), stoppedAt s c x r → (SMap.find? (s.ctx c x).flows f).isSome →
    exec (.step c x f) s = .next (s.setCtx c x { s.ctx c x with stopped := none, stepping := some f, stepped := false }))
  ∧ (∀ (s : State) (c x f : Nat), (s.stepDue c x f = false → exec (.singleStepComplete c x f) s = .next s)
    ∧ (s.stepDue c x f = true → ∃ t, exec (.singleStepComplete c x f) s = .next t ∧ StopsWith s t c x 0x01 2))
  ∧ (∀ (s : State) (c x : Nat),
    (((s.ctx c x).live = false ∨ (s.ctx c x).stopped ≠ none ∨ (s.ctx c x).stopPending = true ∨ (s.ctx c x).eqStopped ≠ []) →
      CommandError s c (exec (.stop c x) s))
    ∧ ((s.ctx c x).live = true → (s.ctx c x).stopped = none → (s.ctx c x).stopPending = false → (s.ctx c x).eqStopped = [] →
      ∃ t, exec (.stop c x) s = .next t ∧ t.mem = s.mem ∧ (t.ctx c x).stopPending = true ∧ (t.ctx c x).flows = (s.ctx c x).flows
        ∧ (t.ctx c x).v = (s.ctx c x).v ∧ (t.ctx c x).sr = (s.ctx c x).sr))
  ∧ (∀ (s : State) (c x : Nat), (s.stopDue c x = false → exec (.stopReached c x) s = .next s)
    ∧ (s.stopDue c x = true → ∃ t, exec (.stopReached c x) s = .next t
        ∧ (s.ringFull c = false → (t.ctx c x).stopPending = false) ∧ StopsWith s t c x 0x17 0))
  ∧ (∀ (s : State) (c : Nat) (v : Dword), (v.extractLsb' 0 4 = 0 ∨ 0xB ≤ (v.extractLsb' 0 4).toNat) →
    CommandError s c (exec (.ctxCmdInvalid c v) s))

/-- 03 R46 to R48, R50, R56; 07 R139, R147, R148; 10 R213, R214, R217; 16 R334: the events of a core's registers, of errors and
of the service ring complete: windows, stores, splits and buffers take what their registers allow, errors roll back, poison
or log, and the firmware interface answers each command with its tag. The places of ISTORE_ERR and CMD_ERR are log 28's choice, a VF's
service ring stands where log 41 has it, and what a firmware command does is log 92's reading. -/
def Obligations.RegisterAndErrorEvents : Prop :=
  (∀ (s : State) (c n : Nat) (v : Dword), n < 16 → let old := SMap.get {} (s.core c).codeWin n
    let new : CodeWin := { refs := old.refs, part := (v.extractLsb' 19 5).toNat, len := (v.extractLsb' 12 7).toNat
                           base := (v.extractLsb' 6 6).toNat, valid := v.getLsbD 0 }
    let put : CodeWin → Out := fun w => .next (s.setCore c { s.core c with codeWin := SMap.insert (s.core c).codeWin n w })
    (old.valid = true → new.valid = true ∨ old.refs ≠ 0 → exec (.codeWinWrite c n v) s = .next s)
    ∧ (old.valid = true → new.valid = false → old.refs = 0 → exec (.codeWinWrite c n v) s = put { old with valid := false })
    ∧ (old.valid = false → new.valid = false → exec (.codeWinWrite c n v) s = put new)
    ∧ (old.valid = false → new.valid = true →
      ((1 ≤ new.len ∧ new.base + new.len ≤ 64 ∧ ∀ p ∈ (s.core c).codeWin, p.1 ≠ n → p.2.valid = true →
          p.2.base + p.2.len ≤ new.base ∨ new.base + new.len ≤ p.2.base) → exec (.codeWinWrite c n v) s = put new)
      ∧ ((new.len = 0 ∨ 64 < new.base + new.len ∨ ∃ p ∈ (s.core c).codeWin, p.1 ≠ n ∧ p.2.valid = true
          ∧ new.base < p.2.base + p.2.len ∧ p.2.base < new.base + new.len) → exec (.codeWinWrite c n v) s = .next s)))
  ∧ (∀ (s : State) (c a : Nat) (b : Byte), a < 0x40000 →
    ((∀ p ∈ (s.core c).codeWin, ¬ inWindow p.2 a) → ∃ t, exec (.istoreWrite c a [b]) s = .next t ∧ t.sects = s.sects ∧ t.mem = s.mem
      ∧ (t.core c).istore = (s.core c).istore.write a b)
    ∧ ((∃ p ∈ (s.core c).codeWin, inWindow p.2 a) → ∃ t, exec (.istoreWrite c a [b]) s = .next t
      ∧ (t.core c).istore = (s.core c).istore ∧ (t.sect (c / 8)).istoreErr = true))
  ∧ (∀ (s : State) (c : Nat) (v : Dword),
    ((s.core c).ctxs ≠ [] ∨ (∃ p ∈ s.parkedCtxs, p.2.home = c) ∨ (∃ p ∈ (s.core c).amPort, p.2.valid = true) →
      CommandError s c (exec (.sramSplitWrite c v) s))
    ∧ ((s.core c).ctxs = [] → (∀ p ∈ s.parkedCtxs, p.2.home ≠ c) → (∀ p ∈ (s.core c).amPort, p.2.valid = false) →
      exec (.sramSplitWrite c v) s = .next (s.setCore c { s.core c with
        sramBusy := true, newBanks := min 15 (v.extractLsb' 0 5).toNat })))
  ∧ (∀ (s : State) (c : Nat), ((s.core c).sramBusy = false → exec (.sramSplitDone c) s = .next s)
    ∧ ((s.core c).sramBusy = true → ∃ t, exec (.sramSplitDone c) s = .next t ∧ t.mem = s.mem ∧ (t.core c).sramBusy = false
        ∧ (t.core c).spadBanks = (s.core c).newBanks ∧ (t.core c).l1 = []
        ∧ ∀ a, (t.core c).spad.read a =
            if min (s.core c).spadBanks (s.core c).newBanks * 65536 ≤ a ∧ a < max (s.core c).spadBanks (s.core c).newBanks * 65536
            then 0 else (s.core c).spad.read a))
  ∧ (∀ (s : State) (c w : Nat) (v : Dword), w < 4 → ∃ t, exec (.barWinCfgWrite c w v) s = .next t ∧ t = { s with cores := t.cores }
    ∧ SMap.get {} (t.core c).barWin w = { dropped := if v.getLsbD 0 then 0 else (SMap.get {} (s.core c).barWin w).dropped
                                          part := (v.extractLsb' 8 5).toNat, valid := v.getLsbD 0 })
  ∧ (∀ (s : State) (c : Nat) (v : Word), ∃ t, exec (.trcSizeWrite c v) s = .next t ∧ t = { s with cores := t.cores }
    ∧ (t.core c).trc = { (s.core c).trc with size := max 12 (min 30 (v.extractLsb' 0 5).toNat) })
  ∧ (∀ (s : State) (v : Dword),
    (∀ n, n < 256 → ∃ t, exec (.registerWrite (.peerGrant n) v) s = .next t ∧ OnlyAttach s t ∧ SMap.get {} t.att.grants n =
      { dev := (v.extractLsb' 50 14).toNat, rpart := (v.extractLsb' 45 5).toNat, lpart := (v.extractLsb' 40 5).toNat, valid := v.getLsbD 0 })
    ∧ (∀ p, p < 32 → ∃ t, exec (.registerWrite (.partQtable p) v) s = .next t ∧ OnlyAttach s t
      ∧ SMap.get 0 t.att.partQtable p = (v.setWidth 52).toNat)
    ∧ (∃ t, exec (.registerWrite .frameOwnerBase v) s = .next t ∧ t.att.frameOwnerBase = (v.setWidth 52).toNat
      ∧ ((∀ p ∈ s.mem.cells, p.1 < (v.setWidth 52).toNat ∨ (v.setWidth 52).toNat + 12 * 2 ^ 20 ≤ p.1) → OnlyAttach s t))
    ∧ (∀ c x, c < 256 → x < 20 → ∃ t, exec (.registerWrite (.ctxSave c x) v) s = .next t ∧ t.mem = s.mem
      ∧ SMap.get 0 (t.core c).ctxSave x = (v.extractLsb' 8 44).toNat * 256)
    ∧ (∀ c, exec (.registerWrite (.trcRptr c) v) s =
      .next (s.setCore c { s.core c with trc := { (s.core c).trc with rptr := v.setWidth 32 } }))
    ∧ (∀ n, ∃ t, exec (.registerWrite (.sectStatus n) v) s = .next t ∧ t.mem = s.mem
      ∧ (v.getLsbD 0 = true → (t.sect n).istoreErr = false) ∧ (v.getLsbD 1 = true → (t.sect n).cmdErr = false))
    ∧ ∀ n, exec (.registerWrite (.reserved n) v) s = .next s)
  ∧ (∀ (s : State) (c x pa : Nat) (l : ErrLocation), (l = .line pa →
      ∃ t, exec (.uncorrectableError c x l) s = .next t ∧ t = { s with poison := t.poison } ∧ pa / 128 ∈ t.poison)
    ∧ ((l = .log ∨ l = .checkpoint) → (s.ctx c x).live = true → (s.ctx c x).stopped = none → s.trapOwed c x = false →
      ∃ t, exec (.uncorrectableError c x l) s = .next t ∧ StopsWith s t c x 0x15 0x2)
    ∧ ((l = .coreState ∨ l = .matrix) → ∀ q, (s.ctx c x).live = true → SMap.find? (s.core c).rolled x = none →
      SMap.find? (s.core c).ckpt x = some q → (∀ o ∈ (s.core c).mxQ, o.ctx = x → o.closed = true ∨ o.storesSpad = false) → ∃ t, exec (.uncorrectableError c x l) s = .next t
        ∧ (SMap.find? (t.core c).rolled x).isSome ∧ (t.ctx c x).v = q.ctx.v ∧ (t.ctx c x).sr = q.ctx.sr ∧ (t.ctx c x).pr = q.ctx.pr
        ∧ (t.ctx c x).tack = q.ctx.tack ∧ (t.ctx c x).held = q.ctx.held))
  ∧ (∀ (s : State) (c x : Nat) (a b : Rerun), (SMap.find? (s.core c).rolled x = none → exec (.rerunVerdict c x ⟨a, b⟩) s = .next s)
    ∧ ∀ q, SMap.find? (s.core c).rolled x = some q →
      let sound : Rerun → Prop := fun y => y.error = false ∧ y.addresses = true ∧ y.loads = q.ctx.loadLog.length
      let agree : Prop := a.count = b.count ∧ rerunSignature a = rerunSignature b ∧ sound a ∧ sound b
      (agree → ∃ t, exec (.rerunVerdict c x ⟨a, b⟩) s = .next t
          ∧ SMap.find? (t.core c).rolled x = none ∧ ∃ i e, SMap.find? t.mgmt.log i = some e ∧ e.cls = 0x03)
        ∧ (¬ agree → ∃ t, exec (.rerunVerdict c x ⟨a, b⟩) s = .next t ∧ s.physOf c ∈ t.mgmt.darn))
  ∧ (∀ (s : State) (src : BitVec 16) (code : Word), ∃ t e, exec (.correctedError src code) s = .next t ∧ OnlyMgmt s t
    ∧ Logged s t 0x02 false ∧ SMap.find? t.mgmt.log (s.mgmt.logCount % 4096) = some e ∧ e.source = src.toNat
    ∧ e.code.getLsbD 31 = false ∧ e.code.setWidth 31 = code.setWidth 31)
  ∧ (∀ (s : State) (vf slot : Nat) (st : Word) (bs : List Byte), (s.mgmt.hostRunning = false ∨ (s.svcRing vf).size ≤ slot
      ∨ s.rangeCheck 0 ((s.svcRing vf).at slot) 128 false = none ∧ (s.svcEntry vf slot).state ≠ 1) →
    exec (.serviceEntryDone vf slot st bs) s = .next s)
  ∧ (∀ (s : State) (vf slot : Nat) (st : Word) (bs : List Byte), let a := (s.svcRing vf).at slot
    s.mgmt.hostRunning = true → slot < (s.svcRing vf).size → s.rangeCheck 0 a 128 false = none → (s.svcEntry vf slot).state = 1 → s.calls = [] → offTable s a 128 →
    (∀ x, a ≤ x → x < a + 128 → s.physCheck 0 x true = .ok) → ∃ t, exec (.serviceEntryDone vf slot st bs) s = .next t
      ∧ (t.svcEntry vf slot).state = 2 ∧ (t.svcEntry vf slot).status = st ∧ (t.svcEntry vf slot).args = padTo 64 (bs.take 64)
      ∧ (t.svcEntry vf slot).tag = (s.svcEntry vf slot).tag ∧ ∀ x, x < a ∨ a + 128 ≤ x → t.mem.read x = s.mem.read x)
  ∧ (∀ (s : State) (sec a : Nat) (tag : Word) (v : Dword), a < 4096 → v.getLsbD 0 = false → ringsOff s sec →
    ∃ t, exec (.firmwareInterfaceCommand sec tag (.createSpace a v)) s = .next t
      ∧ (∀ x, offRings s sec x → t.mem.read x = s.mem.read x)
      ∧ (SMap.get {} t.aspaces a).valid = false ∧ (t.sect sec).fwEvents = (s.sect sec).fwEvents ++ [.answer tag true])
  ∧ (∀ (s : State) (sec a va l : Nat) (tag : Word) (v : Dword), (SMap.get {} s.aspaces a).valid = false → ringsOff s sec →
    ∃ t, exec (.firmwareInterfaceCommand sec tag (.mapPage a va l v)) s = .next t
      ∧ (∀ x, offRings s sec x → t.mem.read x = s.mem.read x)
      ∧ (t.sect sec).fwEvents = (s.sect sec).fwEvents ++ [.answer tag false])
  ∧ (∀ (s : State) (sec a va l ea e : Nat) (tag : Word), let sp := SMap.get {} s.aspaces a
    let s1 := s.fwTake sec tag 4
    sp.valid = true → s1.entryAt sp.part va l 4 sp.root = .ok (ea, e, l) → s1.physCheck sp.part ea true = .ok → offTable s ea 8 →
    ringsOff s sec →
    ∃ t, exec (.firmwareInterfaceCommand sec tag (.unmapPage a va l)) s = .next t
      ∧ (∀ x, offRings s sec x → t.mem.read x = if ea ≤ x ∧ x < ea + 8 then 0 else s.mem.read x)
      ∧ (t.sect sec).fwEvents = (s.sect sec).fwEvents ++ [.answer tag true])
end

