-- ==== Sys2Proof/Laws/Run.lean ====
section
/-! SUPPORT. Laws/Run.lean: every op of the map issues its encoding, and the meaning by encoding is `exec`. -/

namespace Sys2Proof.Machine

/-- An instruction that has an op word issues it. -/
theorem exec_of_info {i : Instr} {n : Info} (h : info i = some n) (s : State) : exec i s = issue n s := by
  cases i <;> (first | (simp only [info, Option.some.injEq] at h; subst h; rfl) | (simp [info] at h))

/-- The meaning that a step runs for an encoding is `exec` of its instruction. -/
theorem execInfo_of_info {i : Instr} {n : Info} (h : info i = some n) (s : State) : execInfo n s = exec i s := by
  cases i <;> (first | (simp only [info, Option.some.injEq] at h; subst h; rfl) | (simp [info] at h))

end Sys2Proof.Machine
end

