-- ==== Sys2Proof/Laws/Maps.lean ====
section
/-! SUPPORT. Maps.lean: reading after writing in a sparse map and in byte memory, and the canonical form that every
memory operation keeps. -/

namespace Sys2Proof.Machine

namespace SMap

variable {α : Type}

@[simp] theorem find?_nil (k : Nat) : find? ([] : SMap α) k = none := rfl

theorem find?_insert (m : SMap α) (k j : Nat) (v : α) :
    find? (insert m k v) j = if k = j then some v else find? m j := by
  induction m with
  | nil => simp [insert, find?]
  | cons p r ih =>
    obtain ⟨i, a⟩ := p
    simp only [insert]
    split
    · simp [find?]
    · split
      · rename_i h1 h2
        subst h2
        by_cases hj : k = j <;> simp [find?, hj]
      · by_cases hi : i = j
        · subst hi
          rename_i h1 h2
          simp [find?, h2]
        · simp [find?, hi, ih]

theorem find?_erase (m : SMap α) (k j : Nat) : find? (erase m k) j = if k = j then none else find? m j := by
  induction m with
  | nil => simp [erase]
  | cons p r ih =>
    obtain ⟨i, a⟩ := p
    by_cases hi : i = k
    · subst hi
      by_cases hj : i = j
      · subst hj
        simpa [erase] using ih
      · simp [erase, find?, ih, hj]
    · simp only [erase, hi, if_false, find?, ih]
      by_cases hj : i = j
      · subst hj
        simp [Ne.symm hi]
      · simp [hj]

@[simp] theorem get_insert_same (d : α) (m : SMap α) (k : Nat) (v : α) : get d (insert m k v) k = v := by
  simp [get, find?_insert]

theorem get_insert_other (d : α) (m : SMap α) {k j : Nat} (v : α) (h : k ≠ j) :
    get d (insert m k v) j = get d m j := by
  simp [get, find?_insert, h]

theorem get_set [DecidableEq α] (d : α) (m : SMap α) (k j : Nat) (v : α) :
    get d (set d m k v) j = if k = j then v else get d m j := by
  unfold set
  by_cases hv : v = d
  · by_cases hk : k = j <;> simp [get, hv, find?_erase, hk]
  · by_cases hk : k = j <;> simp [get, hv, find?_insert, hk]

theorem insert_insert (m : SMap α) (k : Nat) (a b : α) : insert (insert m k a) k b = insert m k b := by
  induction m with
  | nil => simp [insert]
  | cons p r ih =>
    obtain ⟨i, c⟩ := p
    simp only [insert]
    split
    · simp [insert]
    · split
      · simp [insert]
      · rename_i h1 h2
        simp [insert, h1, h2, ih]

/-- Every entry of a map in canonical form has a key above a bound that its head's key exceeds. -/
theorem wf_cons [DecidableEq α] {d : α} {p : Nat × α} {r : SMap α} :
    wf d (p :: r) = true ↔ p.2 ≠ d ∧ wf d r = true ∧ ∀ q ∈ r.head?, p.1 < q.1 := by
  obtain ⟨j, a⟩ := p
  cases r with
  | nil => simp [wf]
  | cons q t => obtain ⟨k, b⟩ := q; simp [wf]; tauto

theorem wf_insert [DecidableEq α] {d : α} (m : SMap α) (k : Nat) (v : α) (h : wf d m = true) (hv : v ≠ d) :
    wf d (insert m k v) = true := by
  induction m with
  | nil => simp [insert, wf, hv]
  | cons p r ih =>
    obtain ⟨j, a⟩ := p
    have h' := wf_cons.1 h
    simp only [insert]
    split
    · exact wf_cons.2 ⟨hv, h, by simpa using ‹k < j›⟩
    · split
      · subst ‹k = j›
        exact wf_cons.2 ⟨hv, h'.2.1, h'.2.2⟩
      · refine wf_cons.2 ⟨h'.1, ih h'.2.1, ?_⟩
        cases r with
        | nil => intro q hq; simp [insert] at hq; subst hq; simp; omega
        | cons q t =>
          obtain ⟨i, b⟩ := q
          have := h'.2.2 (i, b) (by simp)
          intro q hq
          simp only [insert] at hq
          split at hq
          · simp at hq; subst hq; simp; omega
          · split at hq
            · simp at hq; subst hq; simp; omega
            · simp at hq; subst hq; simpa using this

/-- A key that every listed key exceeds is not erased from. -/
theorem wf_erase [DecidableEq α] {d : α} (m : SMap α) (k : Nat) (h : wf d m = true) :
    wf d (erase m k) = true ∧ ∀ q ∈ (erase m k).head?, ∀ p ∈ m.head?, p.1 ≤ q.1 := by
  induction m with
  | nil => simp [erase, wf]
  | cons p r ih =>
    obtain ⟨j, a⟩ := p
    have h' := wf_cons.1 h
    have hr := ih h'.2.1
    by_cases hj : j = k
    · refine ⟨by simpa [erase, hj] using hr.1, ?_⟩
      intro q hq p hp
      simp [erase, hj] at hq hp
      subst hp
      cases r with
      | nil => simp [erase] at hq
      | cons t u =>
        have h1 := hr.2 q (by simpa using hq) t (by simp)
        have h2 := h'.2.2 t (by simp)
        simp at h2 ⊢; omega
    · refine ⟨?_, by simp [erase, hj]⟩
      simp only [erase, hj, if_false]
      refine wf_cons.2 ⟨h'.1, hr.1, ?_⟩
      intro q hq
      cases r with
      | nil => simp [erase] at hq
      | cons t u =>
        have h1 := hr.2 q hq t (by simp)
        have h2 := h'.2.2 t (by simp)
        simp at h2 ⊢; omega

theorem wf_set [DecidableEq α] {d : α} (m : SMap α) (k : Nat) (v : α) (h : wf d m = true) : wf d (set d m k v) = true := by
  unfold set
  split
  · exact (wf_erase m k h).1
  · exact wf_insert m k v h ‹_›

/-- Leaving entries out keeps the canonical form. -/
theorem wf_filter [DecidableEq α] {d : α} (m : SMap α) (f : Nat × α → Bool) (h : wf d m = true) :
    wf d (m.filter f) = true ∧ ∀ q ∈ (m.filter f).head?, ∀ p ∈ m.head?, p.1 ≤ q.1 := by
  induction m with
  | nil => simp [wf]
  | cons p r ih =>
    have h' := wf_cons.1 h
    have hr := ih h'.2.1
    have tail : ∀ q ∈ (r.filter f).head?, p.1 < q.1 := by
      intro q hq
      cases r with
      | nil => simp at hq
      | cons t u =>
        have h1 := hr.2 q hq t (by simp)
        have h2 := h'.2.2 t (by simp)
        omega
    by_cases hf : f p = true
    · rw [List.filter_cons_of_pos hf]
      exact ⟨wf_cons.2 ⟨h'.1, hr.1, tail⟩, by simp⟩
    · rw [List.filter_cons_of_neg hf]
      refine ⟨hr.1, ?_⟩
      intro q hq s hs
      simp at hs
      subst hs
      exact Nat.le_of_lt (tail q hq)

end SMap

namespace Memory

theorem read_write (m : Memory) (a b : Nat) (v : Byte) : (m.write a v).read b = if a = b then v else m.read b := by
  simp [read, write, SMap.get_set]

@[simp] theorem read_empty (a : Nat) : empty.read a = 0 := rfl

@[simp] theorem length_readBytes (m : Memory) (a n : Nat) : (m.readBytes a n).length = n := by
  induction n generalizing a with
  | zero => rfl
  | succ n ih => simp [readBytes, ih]

theorem read_writeBytes_outside (m : Memory) (a : Nat) (bs : List Byte) (b : Nat) (h : b < a ∨ a + bs.length ≤ b) :
    (m.writeBytes a bs).read b = m.read b := by
  induction bs generalizing m a with
  | nil => rfl
  | cons x r ih =>
    simp only [writeBytes]
    rw [ih _ _ (by simp at h; omega), read_write, if_neg]
    simp at h
    omega

theorem read_writeBytes_inside (m : Memory) (a : Nat) (bs : List Byte) (i : Nat) (h : i < bs.length) :
    (m.writeBytes a bs).read (a + i) = bs[i] := by
  induction bs generalizing m a i with
  | nil => simp at h
  | cons x r ih =>
    simp only [writeBytes]
    cases i with
    | zero => rw [read_writeBytes_outside _ _ _ _ (by omega), read_write]; simp
    | succ i =>
      have := ih (m.write a x) (a + 1) i (by simpa using h)
      rw [show a + (i + 1) = a + 1 + i by omega, this]
      rfl

theorem readBytes_congr (m m' : Memory) (a n : Nat) (h : ∀ i, i < n → m.read (a + i) = m'.read (a + i)) :
    m.readBytes a n = m'.readBytes a n := by
  induction n generalizing a with
  | zero => rfl
  | succ n ih =>
    simp only [readBytes]
    rw [show m.read a = m'.read a from h 0 (by omega), ih (a + 1)]
    intro i hi
    have := h (i + 1) (by omega)
    rwa [show a + 1 + i = a + (i + 1) by omega]

theorem readBytes_writeBytes (m : Memory) (a : Nat) (bs : List Byte) : (m.writeBytes a bs).readBytes a bs.length = bs := by
  induction bs generalizing m a with
  | nil => rfl
  | cons x r ih =>
    simp only [writeBytes, List.length_cons, readBytes]
    rw [ih, read_writeBytes_outside _ _ _ _ (by omega), read_write]
    simp

theorem wf_write (m : Memory) (a : Nat) (v : Byte) (h : m.wf = true) : (m.write a v).wf = true :=
  SMap.wf_set m.cells a v h

theorem wf_writeBytes (m : Memory) (a : Nat) (bs : List Byte) (h : m.wf = true) : (m.writeBytes a bs).wf = true := by
  induction bs generalizing m a with
  | nil => exact h
  | cons x r ih => exact ih _ _ (wf_write m a x h)

theorem wf_zero (m : Memory) (a n : Nat) (h : m.wf = true) : (m.zero a n).wf = true :=
  (SMap.wf_filter m.cells _ h).1

theorem wf_empty : empty.wf = true := rfl

/-- Moving every key down by the same amount keeps the canonical form where no key lies below it. -/
theorem wf_shift (m : SMap Byte) (a : Nat) (h : SMap.wf 0 m = true) (low : ∀ p ∈ m, a ≤ p.1) :
    SMap.wf 0 (m.map (fun c => (c.1 - a, c.2))) = true := by
  induction m with
  | nil => rfl
  | cons p r ih =>
    have h' := SMap.wf_cons.1 h
    refine SMap.wf_cons.2 ⟨h'.1, ih h'.2.1 (fun q hq => low q (by simp [hq])), ?_⟩
    intro q hq
    cases r with
    | nil => simp at hq
    | cons t u =>
      have h2 := h'.2.2 t (by simp)
      have := low p (by simp)
      simp at hq
      subst hq
      simp
      omega

theorem wf_slice (m : Memory) (a n : Nat) (h : m.wf = true) : (m.slice a n).wf = true := by
  refine wf_shift _ a (SMap.wf_filter m.cells _ h).1 ?_
  intro p hp
  simp at hp
  exact hp.2.1

end Memory

end Sys2Proof.Machine
end

