-- ==== Sys2Proof/Laws/State.lean ====
section
/-! SUPPORT. Laws/State.lean: what each update of the state leaves and what it writes, one lemma for each field, and
reading a core, a context, a flow or a register after it was written. -/

namespace Sys2Proof.Machine

/-! ### `State.setCore` -/

@[simp] theorem State.setCore_cycle (s : State) (c : Nat) (k : Core) : (s.setCore c k).cycle = s.cycle := rfl
@[simp] theorem State.setCore_tick (s : State) (c : Nat) (k : Core) : (s.setCore c k).tick = s.tick := rfl
@[simp] theorem State.setCore_inputs (s : State) (c : Nat) (k : Core) : (s.setCore c k).inputs = s.inputs := rfl
@[simp] theorem State.setCore_issueQ (s : State) (c : Nat) (k : Core) : (s.setCore c k).issueQ = s.issueQ := rfl
@[simp] theorem State.setCore_cur (s : State) (c : Nat) (k : Core) : (s.setCore c k).cur = s.cur := rfl
@[simp] theorem State.setCore_mem (s : State) (c : Nat) (k : Core) : (s.setCore c k).mem = s.mem := rfl
@[simp] theorem State.setCore_poison (s : State) (c : Nat) (k : Core) : (s.setCore c k).poison = s.poison := rfl
@[simp] theorem State.setCore_sent (s : State) (c : Nat) (k : Core) : (s.setCore c k).sent = s.sent := rfl
@[simp] theorem State.setCore_nextSent (s : State) (c : Nat) (k : Core) : (s.setCore c k).nextSent = s.nextSent := rfl
@[simp] theorem State.setCore_mgmt (s : State) (c : Nat) (k : Core) : (s.setCore c k).mgmt = s.mgmt := rfl
@[simp] theorem State.setCore_att (s : State) (c : Nat) (k : Core) : (s.setCore c k).att = s.att := rfl
@[simp] theorem State.setCore_qc (s : State) (c : Nat) (k : Core) : (s.setCore c k).qc = s.qc := rfl
@[simp] theorem State.setCore_grids (s : State) (c : Nat) (k : Core) : (s.setCore c k).grids = s.grids := rfl
@[simp] theorem State.setCore_nextGrid (s : State) (c : Nat) (k : Core) : (s.setCore c k).nextGrid = s.nextGrid := rfl
@[simp] theorem State.setCore_tasks (s : State) (c : Nat) (k : Core) : (s.setCore c k).tasks = s.tasks := rfl
@[simp] theorem State.setCore_sects (s : State) (c : Nat) (k : Core) : (s.setCore c k).sects = s.sects := rfl
@[simp] theorem State.setCore_svcRings (s : State) (c : Nat) (k : Core) : (s.setCore c k).svcRings = s.svcRings := rfl
@[simp] theorem State.setCore_calls (s : State) (c : Nat) (k : Core) : (s.setCore c k).calls = s.calls := rfl
@[simp] theorem State.setCore_nextCall (s : State) (c : Nat) (k : Core) : (s.setCore c k).nextCall = s.nextCall := rfl
@[simp] theorem State.setCore_aspaces (s : State) (c : Nat) (k : Core) : (s.setCore c k).aspaces = s.aspaces := rfl
@[simp] theorem State.setCore_codeObjs (s : State) (c : Nat) (k : Core) : (s.setCore c k).codeObjs = s.codeObjs := rfl
@[simp] theorem State.setCore_parkedCtxs (s : State) (c : Nat) (k : Core) : (s.setCore c k).parkedCtxs = s.parkedCtxs := rfl

/-! ### `State.updCore` -/

@[simp] theorem State.updCore_cycle (s : State) (c : Nat) (f : Core → Core) : (s.updCore c f).cycle = s.cycle := rfl
@[simp] theorem State.updCore_tick (s : State) (c : Nat) (f : Core → Core) : (s.updCore c f).tick = s.tick := rfl
@[simp] theorem State.updCore_inputs (s : State) (c : Nat) (f : Core → Core) : (s.updCore c f).inputs = s.inputs := rfl
@[simp] theorem State.updCore_issueQ (s : State) (c : Nat) (f : Core → Core) : (s.updCore c f).issueQ = s.issueQ := rfl
@[simp] theorem State.updCore_cur (s : State) (c : Nat) (f : Core → Core) : (s.updCore c f).cur = s.cur := rfl
@[simp] theorem State.updCore_mem (s : State) (c : Nat) (f : Core → Core) : (s.updCore c f).mem = s.mem := rfl
@[simp] theorem State.updCore_poison (s : State) (c : Nat) (f : Core → Core) : (s.updCore c f).poison = s.poison := rfl
@[simp] theorem State.updCore_sent (s : State) (c : Nat) (f : Core → Core) : (s.updCore c f).sent = s.sent := rfl
@[simp] theorem State.updCore_nextSent (s : State) (c : Nat) (f : Core → Core) : (s.updCore c f).nextSent = s.nextSent := rfl
@[simp] theorem State.updCore_mgmt (s : State) (c : Nat) (f : Core → Core) : (s.updCore c f).mgmt = s.mgmt := rfl
@[simp] theorem State.updCore_att (s : State) (c : Nat) (f : Core → Core) : (s.updCore c f).att = s.att := rfl
@[simp] theorem State.updCore_qc (s : State) (c : Nat) (f : Core → Core) : (s.updCore c f).qc = s.qc := rfl
@[simp] theorem State.updCore_grids (s : State) (c : Nat) (f : Core → Core) : (s.updCore c f).grids = s.grids := rfl
@[simp] theorem State.updCore_nextGrid (s : State) (c : Nat) (f : Core → Core) : (s.updCore c f).nextGrid = s.nextGrid := rfl
@[simp] theorem State.updCore_tasks (s : State) (c : Nat) (f : Core → Core) : (s.updCore c f).tasks = s.tasks := rfl
@[simp] theorem State.updCore_sects (s : State) (c : Nat) (f : Core → Core) : (s.updCore c f).sects = s.sects := rfl
@[simp] theorem State.updCore_svcRings (s : State) (c : Nat) (f : Core → Core) : (s.updCore c f).svcRings = s.svcRings := rfl
@[simp] theorem State.updCore_calls (s : State) (c : Nat) (f : Core → Core) : (s.updCore c f).calls = s.calls := rfl
@[simp] theorem State.updCore_nextCall (s : State) (c : Nat) (f : Core → Core) : (s.updCore c f).nextCall = s.nextCall := rfl
@[simp] theorem State.updCore_aspaces (s : State) (c : Nat) (f : Core → Core) : (s.updCore c f).aspaces = s.aspaces := rfl
@[simp] theorem State.updCore_codeObjs (s : State) (c : Nat) (f : Core → Core) : (s.updCore c f).codeObjs = s.codeObjs := rfl
@[simp] theorem State.updCore_parkedCtxs (s : State) (c : Nat) (f : Core → Core) : (s.updCore c f).parkedCtxs = s.parkedCtxs := rfl

/-! ### `State.setCtx` -/

@[simp] theorem State.setCtx_cycle (s : State) (c x : Nat) (k : Ctx) : (s.setCtx c x k).cycle = s.cycle := rfl
@[simp] theorem State.setCtx_tick (s : State) (c x : Nat) (k : Ctx) : (s.setCtx c x k).tick = s.tick := rfl
@[simp] theorem State.setCtx_inputs (s : State) (c x : Nat) (k : Ctx) : (s.setCtx c x k).inputs = s.inputs := rfl
@[simp] theorem State.setCtx_issueQ (s : State) (c x : Nat) (k : Ctx) : (s.setCtx c x k).issueQ = s.issueQ := rfl
@[simp] theorem State.setCtx_cur (s : State) (c x : Nat) (k : Ctx) : (s.setCtx c x k).cur = s.cur := rfl
@[simp] theorem State.setCtx_mem (s : State) (c x : Nat) (k : Ctx) : (s.setCtx c x k).mem = s.mem := rfl
@[simp] theorem State.setCtx_poison (s : State) (c x : Nat) (k : Ctx) : (s.setCtx c x k).poison = s.poison := rfl
@[simp] theorem State.setCtx_sent (s : State) (c x : Nat) (k : Ctx) : (s.setCtx c x k).sent = s.sent := rfl
@[simp] theorem State.setCtx_nextSent (s : State) (c x : Nat) (k : Ctx) : (s.setCtx c x k).nextSent = s.nextSent := rfl
@[simp] theorem State.setCtx_mgmt (s : State) (c x : Nat) (k : Ctx) : (s.setCtx c x k).mgmt = s.mgmt := rfl
@[simp] theorem State.setCtx_att (s : State) (c x : Nat) (k : Ctx) : (s.setCtx c x k).att = s.att := rfl
@[simp] theorem State.setCtx_qc (s : State) (c x : Nat) (k : Ctx) : (s.setCtx c x k).qc = s.qc := rfl
@[simp] theorem State.setCtx_grids (s : State) (c x : Nat) (k : Ctx) : (s.setCtx c x k).grids = s.grids := rfl
@[simp] theorem State.setCtx_nextGrid (s : State) (c x : Nat) (k : Ctx) : (s.setCtx c x k).nextGrid = s.nextGrid := rfl
@[simp] theorem State.setCtx_tasks (s : State) (c x : Nat) (k : Ctx) : (s.setCtx c x k).tasks = s.tasks := rfl
@[simp] theorem State.setCtx_sects (s : State) (c x : Nat) (k : Ctx) : (s.setCtx c x k).sects = s.sects := rfl
@[simp] theorem State.setCtx_svcRings (s : State) (c x : Nat) (k : Ctx) : (s.setCtx c x k).svcRings = s.svcRings := rfl
@[simp] theorem State.setCtx_calls (s : State) (c x : Nat) (k : Ctx) : (s.setCtx c x k).calls = s.calls := rfl
@[simp] theorem State.setCtx_nextCall (s : State) (c x : Nat) (k : Ctx) : (s.setCtx c x k).nextCall = s.nextCall := rfl
@[simp] theorem State.setCtx_aspaces (s : State) (c x : Nat) (k : Ctx) : (s.setCtx c x k).aspaces = s.aspaces := rfl
@[simp] theorem State.setCtx_codeObjs (s : State) (c x : Nat) (k : Ctx) : (s.setCtx c x k).codeObjs = s.codeObjs := rfl
@[simp] theorem State.setCtx_parkedCtxs (s : State) (c x : Nat) (k : Ctx) : (s.setCtx c x k).parkedCtxs = s.parkedCtxs := rfl

/-! ### `State.updCtx` -/

@[simp] theorem State.updCtx_cycle (s : State) (c x : Nat) (f : Ctx → Ctx) : (s.updCtx c x f).cycle = s.cycle := rfl
@[simp] theorem State.updCtx_tick (s : State) (c x : Nat) (f : Ctx → Ctx) : (s.updCtx c x f).tick = s.tick := rfl
@[simp] theorem State.updCtx_inputs (s : State) (c x : Nat) (f : Ctx → Ctx) : (s.updCtx c x f).inputs = s.inputs := rfl
@[simp] theorem State.updCtx_issueQ (s : State) (c x : Nat) (f : Ctx → Ctx) : (s.updCtx c x f).issueQ = s.issueQ := rfl
@[simp] theorem State.updCtx_cur (s : State) (c x : Nat) (f : Ctx → Ctx) : (s.updCtx c x f).cur = s.cur := rfl
@[simp] theorem State.updCtx_mem (s : State) (c x : Nat) (f : Ctx → Ctx) : (s.updCtx c x f).mem = s.mem := rfl
@[simp] theorem State.updCtx_poison (s : State) (c x : Nat) (f : Ctx → Ctx) : (s.updCtx c x f).poison = s.poison := rfl
@[simp] theorem State.updCtx_sent (s : State) (c x : Nat) (f : Ctx → Ctx) : (s.updCtx c x f).sent = s.sent := rfl
@[simp] theorem State.updCtx_nextSent (s : State) (c x : Nat) (f : Ctx → Ctx) : (s.updCtx c x f).nextSent = s.nextSent := rfl
@[simp] theorem State.updCtx_mgmt (s : State) (c x : Nat) (f : Ctx → Ctx) : (s.updCtx c x f).mgmt = s.mgmt := rfl
@[simp] theorem State.updCtx_att (s : State) (c x : Nat) (f : Ctx → Ctx) : (s.updCtx c x f).att = s.att := rfl
@[simp] theorem State.updCtx_qc (s : State) (c x : Nat) (f : Ctx → Ctx) : (s.updCtx c x f).qc = s.qc := rfl
@[simp] theorem State.updCtx_grids (s : State) (c x : Nat) (f : Ctx → Ctx) : (s.updCtx c x f).grids = s.grids := rfl
@[simp] theorem State.updCtx_nextGrid (s : State) (c x : Nat) (f : Ctx → Ctx) : (s.updCtx c x f).nextGrid = s.nextGrid := rfl
@[simp] theorem State.updCtx_tasks (s : State) (c x : Nat) (f : Ctx → Ctx) : (s.updCtx c x f).tasks = s.tasks := rfl
@[simp] theorem State.updCtx_sects (s : State) (c x : Nat) (f : Ctx → Ctx) : (s.updCtx c x f).sects = s.sects := rfl
@[simp] theorem State.updCtx_svcRings (s : State) (c x : Nat) (f : Ctx → Ctx) : (s.updCtx c x f).svcRings = s.svcRings := rfl
@[simp] theorem State.updCtx_calls (s : State) (c x : Nat) (f : Ctx → Ctx) : (s.updCtx c x f).calls = s.calls := rfl
@[simp] theorem State.updCtx_nextCall (s : State) (c x : Nat) (f : Ctx → Ctx) : (s.updCtx c x f).nextCall = s.nextCall := rfl
@[simp] theorem State.updCtx_aspaces (s : State) (c x : Nat) (f : Ctx → Ctx) : (s.updCtx c x f).aspaces = s.aspaces := rfl
@[simp] theorem State.updCtx_codeObjs (s : State) (c x : Nat) (f : Ctx → Ctx) : (s.updCtx c x f).codeObjs = s.codeObjs := rfl
@[simp] theorem State.updCtx_parkedCtxs (s : State) (c x : Nat) (f : Ctx → Ctx) : (s.updCtx c x f).parkedCtxs = s.parkedCtxs := rfl

/-! ### `State.updCc` -/

@[simp] theorem State.updCc_cycle (s : State) (f : Ctx → Ctx) : (s.updCc f).cycle = s.cycle := rfl
@[simp] theorem State.updCc_tick (s : State) (f : Ctx → Ctx) : (s.updCc f).tick = s.tick := rfl
@[simp] theorem State.updCc_inputs (s : State) (f : Ctx → Ctx) : (s.updCc f).inputs = s.inputs := rfl
@[simp] theorem State.updCc_issueQ (s : State) (f : Ctx → Ctx) : (s.updCc f).issueQ = s.issueQ := rfl
@[simp] theorem State.updCc_cur (s : State) (f : Ctx → Ctx) : (s.updCc f).cur = s.cur := rfl
@[simp] theorem State.updCc_mem (s : State) (f : Ctx → Ctx) : (s.updCc f).mem = s.mem := rfl
@[simp] theorem State.updCc_poison (s : State) (f : Ctx → Ctx) : (s.updCc f).poison = s.poison := rfl
@[simp] theorem State.updCc_sent (s : State) (f : Ctx → Ctx) : (s.updCc f).sent = s.sent := rfl
@[simp] theorem State.updCc_nextSent (s : State) (f : Ctx → Ctx) : (s.updCc f).nextSent = s.nextSent := rfl
@[simp] theorem State.updCc_mgmt (s : State) (f : Ctx → Ctx) : (s.updCc f).mgmt = s.mgmt := rfl
@[simp] theorem State.updCc_att (s : State) (f : Ctx → Ctx) : (s.updCc f).att = s.att := rfl
@[simp] theorem State.updCc_qc (s : State) (f : Ctx → Ctx) : (s.updCc f).qc = s.qc := rfl
@[simp] theorem State.updCc_grids (s : State) (f : Ctx → Ctx) : (s.updCc f).grids = s.grids := rfl
@[simp] theorem State.updCc_nextGrid (s : State) (f : Ctx → Ctx) : (s.updCc f).nextGrid = s.nextGrid := rfl
@[simp] theorem State.updCc_tasks (s : State) (f : Ctx → Ctx) : (s.updCc f).tasks = s.tasks := rfl
@[simp] theorem State.updCc_sects (s : State) (f : Ctx → Ctx) : (s.updCc f).sects = s.sects := rfl
@[simp] theorem State.updCc_svcRings (s : State) (f : Ctx → Ctx) : (s.updCc f).svcRings = s.svcRings := rfl
@[simp] theorem State.updCc_calls (s : State) (f : Ctx → Ctx) : (s.updCc f).calls = s.calls := rfl
@[simp] theorem State.updCc_nextCall (s : State) (f : Ctx → Ctx) : (s.updCc f).nextCall = s.nextCall := rfl
@[simp] theorem State.updCc_aspaces (s : State) (f : Ctx → Ctx) : (s.updCc f).aspaces = s.aspaces := rfl
@[simp] theorem State.updCc_codeObjs (s : State) (f : Ctx → Ctx) : (s.updCc f).codeObjs = s.codeObjs := rfl
@[simp] theorem State.updCc_parkedCtxs (s : State) (f : Ctx → Ctx) : (s.updCc f).parkedCtxs = s.parkedCtxs := rfl

/-! ### `State.updCf` -/

@[simp] theorem State.updCf_cycle (s : State) (g : Flow → Flow) : (s.updCf g).cycle = s.cycle := rfl
@[simp] theorem State.updCf_tick (s : State) (g : Flow → Flow) : (s.updCf g).tick = s.tick := rfl
@[simp] theorem State.updCf_inputs (s : State) (g : Flow → Flow) : (s.updCf g).inputs = s.inputs := rfl
@[simp] theorem State.updCf_issueQ (s : State) (g : Flow → Flow) : (s.updCf g).issueQ = s.issueQ := rfl
@[simp] theorem State.updCf_cur (s : State) (g : Flow → Flow) : (s.updCf g).cur = s.cur := rfl
@[simp] theorem State.updCf_mem (s : State) (g : Flow → Flow) : (s.updCf g).mem = s.mem := rfl
@[simp] theorem State.updCf_poison (s : State) (g : Flow → Flow) : (s.updCf g).poison = s.poison := rfl
@[simp] theorem State.updCf_sent (s : State) (g : Flow → Flow) : (s.updCf g).sent = s.sent := rfl
@[simp] theorem State.updCf_nextSent (s : State) (g : Flow → Flow) : (s.updCf g).nextSent = s.nextSent := rfl
@[simp] theorem State.updCf_mgmt (s : State) (g : Flow → Flow) : (s.updCf g).mgmt = s.mgmt := rfl
@[simp] theorem State.updCf_att (s : State) (g : Flow → Flow) : (s.updCf g).att = s.att := rfl
@[simp] theorem State.updCf_qc (s : State) (g : Flow → Flow) : (s.updCf g).qc = s.qc := rfl
@[simp] theorem State.updCf_grids (s : State) (g : Flow → Flow) : (s.updCf g).grids = s.grids := rfl
@[simp] theorem State.updCf_nextGrid (s : State) (g : Flow → Flow) : (s.updCf g).nextGrid = s.nextGrid := rfl
@[simp] theorem State.updCf_tasks (s : State) (g : Flow → Flow) : (s.updCf g).tasks = s.tasks := rfl
@[simp] theorem State.updCf_sects (s : State) (g : Flow → Flow) : (s.updCf g).sects = s.sects := rfl
@[simp] theorem State.updCf_svcRings (s : State) (g : Flow → Flow) : (s.updCf g).svcRings = s.svcRings := rfl
@[simp] theorem State.updCf_calls (s : State) (g : Flow → Flow) : (s.updCf g).calls = s.calls := rfl
@[simp] theorem State.updCf_nextCall (s : State) (g : Flow → Flow) : (s.updCf g).nextCall = s.nextCall := rfl
@[simp] theorem State.updCf_aspaces (s : State) (g : Flow → Flow) : (s.updCf g).aspaces = s.aspaces := rfl
@[simp] theorem State.updCf_codeObjs (s : State) (g : Flow → Flow) : (s.updCf g).codeObjs = s.codeObjs := rfl
@[simp] theorem State.updCf_parkedCtxs (s : State) (g : Flow → Flow) : (s.updCf g).parkedCtxs = s.parkedCtxs := rfl

/-! ### `State.deliver` -/

@[simp] theorem State.deliver_cycle (s : State) (lat : Nat) (ws : List Write) : (s.deliver lat ws).cycle = s.cycle := rfl
@[simp] theorem State.deliver_tick (s : State) (lat : Nat) (ws : List Write) : (s.deliver lat ws).tick = s.tick := rfl
@[simp] theorem State.deliver_inputs (s : State) (lat : Nat) (ws : List Write) : (s.deliver lat ws).inputs = s.inputs := rfl
@[simp] theorem State.deliver_issueQ (s : State) (lat : Nat) (ws : List Write) : (s.deliver lat ws).issueQ = s.issueQ := rfl
@[simp] theorem State.deliver_cur (s : State) (lat : Nat) (ws : List Write) : (s.deliver lat ws).cur = s.cur := rfl
@[simp] theorem State.deliver_mem (s : State) (lat : Nat) (ws : List Write) : (s.deliver lat ws).mem = s.mem := rfl
@[simp] theorem State.deliver_poison (s : State) (lat : Nat) (ws : List Write) : (s.deliver lat ws).poison = s.poison := rfl
@[simp] theorem State.deliver_sent (s : State) (lat : Nat) (ws : List Write) : (s.deliver lat ws).sent = s.sent := rfl
@[simp] theorem State.deliver_nextSent (s : State) (lat : Nat) (ws : List Write) : (s.deliver lat ws).nextSent = s.nextSent := rfl
@[simp] theorem State.deliver_mgmt (s : State) (lat : Nat) (ws : List Write) : (s.deliver lat ws).mgmt = s.mgmt := rfl
@[simp] theorem State.deliver_att (s : State) (lat : Nat) (ws : List Write) : (s.deliver lat ws).att = s.att := rfl
@[simp] theorem State.deliver_qc (s : State) (lat : Nat) (ws : List Write) : (s.deliver lat ws).qc = s.qc := rfl
@[simp] theorem State.deliver_grids (s : State) (lat : Nat) (ws : List Write) : (s.deliver lat ws).grids = s.grids := rfl
@[simp] theorem State.deliver_nextGrid (s : State) (lat : Nat) (ws : List Write) : (s.deliver lat ws).nextGrid = s.nextGrid := rfl
@[simp] theorem State.deliver_tasks (s : State) (lat : Nat) (ws : List Write) : (s.deliver lat ws).tasks = s.tasks := rfl
@[simp] theorem State.deliver_sects (s : State) (lat : Nat) (ws : List Write) : (s.deliver lat ws).sects = s.sects := rfl
@[simp] theorem State.deliver_svcRings (s : State) (lat : Nat) (ws : List Write) : (s.deliver lat ws).svcRings = s.svcRings := rfl
@[simp] theorem State.deliver_calls (s : State) (lat : Nat) (ws : List Write) : (s.deliver lat ws).calls = s.calls := rfl
@[simp] theorem State.deliver_nextCall (s : State) (lat : Nat) (ws : List Write) : (s.deliver lat ws).nextCall = s.nextCall := rfl
@[simp] theorem State.deliver_aspaces (s : State) (lat : Nat) (ws : List Write) : (s.deliver lat ws).aspaces = s.aspaces := rfl
@[simp] theorem State.deliver_codeObjs (s : State) (lat : Nat) (ws : List Write) : (s.deliver lat ws).codeObjs = s.codeObjs := rfl
@[simp] theorem State.deliver_parkedCtxs (s : State) (lat : Nat) (ws : List Write) : (s.deliver lat ws).parkedCtxs = s.parkedCtxs := rfl

/-! ### `State.deliverLoad` -/

@[simp] theorem State.deliverLoad_cycle (s : State) (ls : List Nat) (ws : List Write) (t : Option Trap) (p : Option (Nat × Trap)) : (s.deliverLoad ls ws t p).cycle = s.cycle := rfl
@[simp] theorem State.deliverLoad_tick (s : State) (ls : List Nat) (ws : List Write) (t : Option Trap) (p : Option (Nat × Trap)) : (s.deliverLoad ls ws t p).tick = s.tick := rfl
@[simp] theorem State.deliverLoad_inputs (s : State) (ls : List Nat) (ws : List Write) (t : Option Trap) (p : Option (Nat × Trap)) : (s.deliverLoad ls ws t p).inputs = s.inputs := rfl
@[simp] theorem State.deliverLoad_issueQ (s : State) (ls : List Nat) (ws : List Write) (t : Option Trap) (p : Option (Nat × Trap)) : (s.deliverLoad ls ws t p).issueQ = s.issueQ := rfl
@[simp] theorem State.deliverLoad_cur (s : State) (ls : List Nat) (ws : List Write) (t : Option Trap) (p : Option (Nat × Trap)) : (s.deliverLoad ls ws t p).cur = s.cur := rfl
@[simp] theorem State.deliverLoad_mem (s : State) (ls : List Nat) (ws : List Write) (t : Option Trap) (p : Option (Nat × Trap)) : (s.deliverLoad ls ws t p).mem = s.mem := rfl
@[simp] theorem State.deliverLoad_poison (s : State) (ls : List Nat) (ws : List Write) (t : Option Trap) (p : Option (Nat × Trap)) : (s.deliverLoad ls ws t p).poison = s.poison := rfl
@[simp] theorem State.deliverLoad_sent (s : State) (ls : List Nat) (ws : List Write) (t : Option Trap) (p : Option (Nat × Trap)) : (s.deliverLoad ls ws t p).sent = s.sent := rfl
@[simp] theorem State.deliverLoad_nextSent (s : State) (ls : List Nat) (ws : List Write) (t : Option Trap) (p : Option (Nat × Trap)) : (s.deliverLoad ls ws t p).nextSent = s.nextSent := rfl
@[simp] theorem State.deliverLoad_mgmt (s : State) (ls : List Nat) (ws : List Write) (t : Option Trap) (p : Option (Nat × Trap)) : (s.deliverLoad ls ws t p).mgmt = s.mgmt := rfl
@[simp] theorem State.deliverLoad_att (s : State) (ls : List Nat) (ws : List Write) (t : Option Trap) (p : Option (Nat × Trap)) : (s.deliverLoad ls ws t p).att = s.att := rfl
@[simp] theorem State.deliverLoad_qc (s : State) (ls : List Nat) (ws : List Write) (t : Option Trap) (p : Option (Nat × Trap)) : (s.deliverLoad ls ws t p).qc = s.qc := rfl
@[simp] theorem State.deliverLoad_grids (s : State) (ls : List Nat) (ws : List Write) (t : Option Trap) (p : Option (Nat × Trap)) : (s.deliverLoad ls ws t p).grids = s.grids := rfl
@[simp] theorem State.deliverLoad_nextGrid (s : State) (ls : List Nat) (ws : List Write) (t : Option Trap) (p : Option (Nat × Trap)) : (s.deliverLoad ls ws t p).nextGrid = s.nextGrid := rfl
@[simp] theorem State.deliverLoad_tasks (s : State) (ls : List Nat) (ws : List Write) (t : Option Trap) (p : Option (Nat × Trap)) : (s.deliverLoad ls ws t p).tasks = s.tasks := rfl
@[simp] theorem State.deliverLoad_sects (s : State) (ls : List Nat) (ws : List Write) (t : Option Trap) (p : Option (Nat × Trap)) : (s.deliverLoad ls ws t p).sects = s.sects := rfl
@[simp] theorem State.deliverLoad_svcRings (s : State) (ls : List Nat) (ws : List Write) (t : Option Trap) (p : Option (Nat × Trap)) : (s.deliverLoad ls ws t p).svcRings = s.svcRings := rfl
@[simp] theorem State.deliverLoad_calls (s : State) (ls : List Nat) (ws : List Write) (t : Option Trap) (p : Option (Nat × Trap)) : (s.deliverLoad ls ws t p).calls = s.calls := rfl
@[simp] theorem State.deliverLoad_nextCall (s : State) (ls : List Nat) (ws : List Write) (t : Option Trap) (p : Option (Nat × Trap)) : (s.deliverLoad ls ws t p).nextCall = s.nextCall := rfl
@[simp] theorem State.deliverLoad_aspaces (s : State) (ls : List Nat) (ws : List Write) (t : Option Trap) (p : Option (Nat × Trap)) : (s.deliverLoad ls ws t p).aspaces = s.aspaces := rfl
@[simp] theorem State.deliverLoad_codeObjs (s : State) (ls : List Nat) (ws : List Write) (t : Option Trap) (p : Option (Nat × Trap)) : (s.deliverLoad ls ws t p).codeObjs = s.codeObjs := rfl
@[simp] theorem State.deliverLoad_parkedCtxs (s : State) (ls : List Nat) (ws : List Write) (t : Option Trap) (p : Option (Nat × Trap)) : (s.deliverLoad ls ws t p).parkedCtxs = s.parkedCtxs := rfl

/-! ### `State.setSect` -/

@[simp] theorem State.setSect_cycle (s : State) (n : Nat) (k : Section) : (s.setSect n k).cycle = s.cycle := rfl
@[simp] theorem State.setSect_tick (s : State) (n : Nat) (k : Section) : (s.setSect n k).tick = s.tick := rfl
@[simp] theorem State.setSect_inputs (s : State) (n : Nat) (k : Section) : (s.setSect n k).inputs = s.inputs := rfl
@[simp] theorem State.setSect_issueQ (s : State) (n : Nat) (k : Section) : (s.setSect n k).issueQ = s.issueQ := rfl
@[simp] theorem State.setSect_cur (s : State) (n : Nat) (k : Section) : (s.setSect n k).cur = s.cur := rfl
@[simp] theorem State.setSect_mem (s : State) (n : Nat) (k : Section) : (s.setSect n k).mem = s.mem := rfl
@[simp] theorem State.setSect_poison (s : State) (n : Nat) (k : Section) : (s.setSect n k).poison = s.poison := rfl
@[simp] theorem State.setSect_sent (s : State) (n : Nat) (k : Section) : (s.setSect n k).sent = s.sent := rfl
@[simp] theorem State.setSect_nextSent (s : State) (n : Nat) (k : Section) : (s.setSect n k).nextSent = s.nextSent := rfl
@[simp] theorem State.setSect_mgmt (s : State) (n : Nat) (k : Section) : (s.setSect n k).mgmt = s.mgmt := rfl
@[simp] theorem State.setSect_att (s : State) (n : Nat) (k : Section) : (s.setSect n k).att = s.att := rfl
@[simp] theorem State.setSect_qc (s : State) (n : Nat) (k : Section) : (s.setSect n k).qc = s.qc := rfl
@[simp] theorem State.setSect_grids (s : State) (n : Nat) (k : Section) : (s.setSect n k).grids = s.grids := rfl
@[simp] theorem State.setSect_nextGrid (s : State) (n : Nat) (k : Section) : (s.setSect n k).nextGrid = s.nextGrid := rfl
@[simp] theorem State.setSect_tasks (s : State) (n : Nat) (k : Section) : (s.setSect n k).tasks = s.tasks := rfl
@[simp] theorem State.setSect_svcRings (s : State) (n : Nat) (k : Section) : (s.setSect n k).svcRings = s.svcRings := rfl
@[simp] theorem State.setSect_calls (s : State) (n : Nat) (k : Section) : (s.setSect n k).calls = s.calls := rfl
@[simp] theorem State.setSect_nextCall (s : State) (n : Nat) (k : Section) : (s.setSect n k).nextCall = s.nextCall := rfl
@[simp] theorem State.setSect_aspaces (s : State) (n : Nat) (k : Section) : (s.setSect n k).aspaces = s.aspaces := rfl
@[simp] theorem State.setSect_codeObjs (s : State) (n : Nat) (k : Section) : (s.setSect n k).codeObjs = s.codeObjs := rfl
@[simp] theorem State.setSect_cores (s : State) (n : Nat) (k : Section) : (s.setSect n k).cores = s.cores := rfl
@[simp] theorem State.setSect_parkedCtxs (s : State) (n : Nat) (k : Section) : (s.setSect n k).parkedCtxs = s.parkedCtxs := rfl

/-! ### `State.updSect` -/

@[simp] theorem State.updSect_cycle (s : State) (n : Nat) (f : Section → Section) : (s.updSect n f).cycle = s.cycle := rfl
@[simp] theorem State.updSect_tick (s : State) (n : Nat) (f : Section → Section) : (s.updSect n f).tick = s.tick := rfl
@[simp] theorem State.updSect_inputs (s : State) (n : Nat) (f : Section → Section) : (s.updSect n f).inputs = s.inputs := rfl
@[simp] theorem State.updSect_issueQ (s : State) (n : Nat) (f : Section → Section) : (s.updSect n f).issueQ = s.issueQ := rfl
@[simp] theorem State.updSect_cur (s : State) (n : Nat) (f : Section → Section) : (s.updSect n f).cur = s.cur := rfl
@[simp] theorem State.updSect_mem (s : State) (n : Nat) (f : Section → Section) : (s.updSect n f).mem = s.mem := rfl
@[simp] theorem State.updSect_poison (s : State) (n : Nat) (f : Section → Section) : (s.updSect n f).poison = s.poison := rfl
@[simp] theorem State.updSect_sent (s : State) (n : Nat) (f : Section → Section) : (s.updSect n f).sent = s.sent := rfl
@[simp] theorem State.updSect_nextSent (s : State) (n : Nat) (f : Section → Section) : (s.updSect n f).nextSent = s.nextSent := rfl
@[simp] theorem State.updSect_mgmt (s : State) (n : Nat) (f : Section → Section) : (s.updSect n f).mgmt = s.mgmt := rfl
@[simp] theorem State.updSect_att (s : State) (n : Nat) (f : Section → Section) : (s.updSect n f).att = s.att := rfl
@[simp] theorem State.updSect_qc (s : State) (n : Nat) (f : Section → Section) : (s.updSect n f).qc = s.qc := rfl
@[simp] theorem State.updSect_grids (s : State) (n : Nat) (f : Section → Section) : (s.updSect n f).grids = s.grids := rfl
@[simp] theorem State.updSect_nextGrid (s : State) (n : Nat) (f : Section → Section) : (s.updSect n f).nextGrid = s.nextGrid := rfl
@[simp] theorem State.updSect_tasks (s : State) (n : Nat) (f : Section → Section) : (s.updSect n f).tasks = s.tasks := rfl
@[simp] theorem State.updSect_svcRings (s : State) (n : Nat) (f : Section → Section) : (s.updSect n f).svcRings = s.svcRings := rfl
@[simp] theorem State.updSect_calls (s : State) (n : Nat) (f : Section → Section) : (s.updSect n f).calls = s.calls := rfl
@[simp] theorem State.updSect_nextCall (s : State) (n : Nat) (f : Section → Section) : (s.updSect n f).nextCall = s.nextCall := rfl
@[simp] theorem State.updSect_aspaces (s : State) (n : Nat) (f : Section → Section) : (s.updSect n f).aspaces = s.aspaces := rfl
@[simp] theorem State.updSect_codeObjs (s : State) (n : Nat) (f : Section → Section) : (s.updSect n f).codeObjs = s.codeObjs := rfl
@[simp] theorem State.updSect_cores (s : State) (n : Nat) (f : Section → Section) : (s.updSect n f).cores = s.cores := rfl
@[simp] theorem State.updSect_parkedCtxs (s : State) (n : Nat) (f : Section → Section) : (s.updSect n f).parkedCtxs = s.parkedCtxs := rfl

/-! ### `State.logEvent` -/

@[simp] theorem State.logEvent_cycle (s : State) (cls source : Nat) (code : Word) (detail : Nat) : (s.logEvent cls source code detail).cycle = s.cycle := rfl
@[simp] theorem State.logEvent_tick (s : State) (cls source : Nat) (code : Word) (detail : Nat) : (s.logEvent cls source code detail).tick = s.tick := rfl
@[simp] theorem State.logEvent_inputs (s : State) (cls source : Nat) (code : Word) (detail : Nat) : (s.logEvent cls source code detail).inputs = s.inputs := rfl
@[simp] theorem State.logEvent_issueQ (s : State) (cls source : Nat) (code : Word) (detail : Nat) : (s.logEvent cls source code detail).issueQ = s.issueQ := rfl
@[simp] theorem State.logEvent_cur (s : State) (cls source : Nat) (code : Word) (detail : Nat) : (s.logEvent cls source code detail).cur = s.cur := rfl
@[simp] theorem State.logEvent_mem (s : State) (cls source : Nat) (code : Word) (detail : Nat) : (s.logEvent cls source code detail).mem = s.mem := rfl
@[simp] theorem State.logEvent_poison (s : State) (cls source : Nat) (code : Word) (detail : Nat) : (s.logEvent cls source code detail).poison = s.poison := rfl
@[simp] theorem State.logEvent_sent (s : State) (cls source : Nat) (code : Word) (detail : Nat) : (s.logEvent cls source code detail).sent = s.sent := rfl
@[simp] theorem State.logEvent_nextSent (s : State) (cls source : Nat) (code : Word) (detail : Nat) : (s.logEvent cls source code detail).nextSent = s.nextSent := rfl
@[simp] theorem State.logEvent_att (s : State) (cls source : Nat) (code : Word) (detail : Nat) : (s.logEvent cls source code detail).att = s.att := rfl
@[simp] theorem State.logEvent_qc (s : State) (cls source : Nat) (code : Word) (detail : Nat) : (s.logEvent cls source code detail).qc = s.qc := rfl
@[simp] theorem State.logEvent_grids (s : State) (cls source : Nat) (code : Word) (detail : Nat) : (s.logEvent cls source code detail).grids = s.grids := rfl
@[simp] theorem State.logEvent_nextGrid (s : State) (cls source : Nat) (code : Word) (detail : Nat) : (s.logEvent cls source code detail).nextGrid = s.nextGrid := rfl
@[simp] theorem State.logEvent_tasks (s : State) (cls source : Nat) (code : Word) (detail : Nat) : (s.logEvent cls source code detail).tasks = s.tasks := rfl
@[simp] theorem State.logEvent_sects (s : State) (cls source : Nat) (code : Word) (detail : Nat) : (s.logEvent cls source code detail).sects = s.sects := rfl
@[simp] theorem State.logEvent_svcRings (s : State) (cls source : Nat) (code : Word) (detail : Nat) : (s.logEvent cls source code detail).svcRings = s.svcRings := rfl
@[simp] theorem State.logEvent_calls (s : State) (cls source : Nat) (code : Word) (detail : Nat) : (s.logEvent cls source code detail).calls = s.calls := rfl
@[simp] theorem State.logEvent_nextCall (s : State) (cls source : Nat) (code : Word) (detail : Nat) : (s.logEvent cls source code detail).nextCall = s.nextCall := rfl
@[simp] theorem State.logEvent_aspaces (s : State) (cls source : Nat) (code : Word) (detail : Nat) : (s.logEvent cls source code detail).aspaces = s.aspaces := rfl
@[simp] theorem State.logEvent_codeObjs (s : State) (cls source : Nat) (code : Word) (detail : Nat) : (s.logEvent cls source code detail).codeObjs = s.codeObjs := rfl
@[simp] theorem State.logEvent_cores (s : State) (cls source : Nat) (code : Word) (detail : Nat) : (s.logEvent cls source code detail).cores = s.cores := rfl
@[simp] theorem State.logEvent_parkedCtxs (s : State) (cls source : Nat) (code : Word) (detail : Nat) : (s.logEvent cls source code detail).parkedCtxs = s.parkedCtxs := rfl

/-! ### `State.logRefusal` -/

@[simp] theorem State.logRefusal_cycle (s : State) (source detail : Nat) : (s.logRefusal source detail).cycle = s.cycle := rfl
@[simp] theorem State.logRefusal_tick (s : State) (source detail : Nat) : (s.logRefusal source detail).tick = s.tick := rfl
@[simp] theorem State.logRefusal_inputs (s : State) (source detail : Nat) : (s.logRefusal source detail).inputs = s.inputs := rfl
@[simp] theorem State.logRefusal_issueQ (s : State) (source detail : Nat) : (s.logRefusal source detail).issueQ = s.issueQ := rfl
@[simp] theorem State.logRefusal_cur (s : State) (source detail : Nat) : (s.logRefusal source detail).cur = s.cur := rfl
@[simp] theorem State.logRefusal_mem (s : State) (source detail : Nat) : (s.logRefusal source detail).mem = s.mem := rfl
@[simp] theorem State.logRefusal_poison (s : State) (source detail : Nat) : (s.logRefusal source detail).poison = s.poison := rfl
@[simp] theorem State.logRefusal_sent (s : State) (source detail : Nat) : (s.logRefusal source detail).sent = s.sent := rfl
@[simp] theorem State.logRefusal_nextSent (s : State) (source detail : Nat) : (s.logRefusal source detail).nextSent = s.nextSent := rfl
@[simp] theorem State.logRefusal_att (s : State) (source detail : Nat) : (s.logRefusal source detail).att = s.att := rfl
@[simp] theorem State.logRefusal_qc (s : State) (source detail : Nat) : (s.logRefusal source detail).qc = s.qc := rfl
@[simp] theorem State.logRefusal_grids (s : State) (source detail : Nat) : (s.logRefusal source detail).grids = s.grids := rfl
@[simp] theorem State.logRefusal_nextGrid (s : State) (source detail : Nat) : (s.logRefusal source detail).nextGrid = s.nextGrid := rfl
@[simp] theorem State.logRefusal_tasks (s : State) (source detail : Nat) : (s.logRefusal source detail).tasks = s.tasks := rfl
@[simp] theorem State.logRefusal_sects (s : State) (source detail : Nat) : (s.logRefusal source detail).sects = s.sects := rfl
@[simp] theorem State.logRefusal_svcRings (s : State) (source detail : Nat) : (s.logRefusal source detail).svcRings = s.svcRings := rfl
@[simp] theorem State.logRefusal_calls (s : State) (source detail : Nat) : (s.logRefusal source detail).calls = s.calls := rfl
@[simp] theorem State.logRefusal_nextCall (s : State) (source detail : Nat) : (s.logRefusal source detail).nextCall = s.nextCall := rfl
@[simp] theorem State.logRefusal_aspaces (s : State) (source detail : Nat) : (s.logRefusal source detail).aspaces = s.aspaces := rfl
@[simp] theorem State.logRefusal_codeObjs (s : State) (source detail : Nat) : (s.logRefusal source detail).codeObjs = s.codeObjs := rfl
@[simp] theorem State.logRefusal_cores (s : State) (source detail : Nat) : (s.logRefusal source detail).cores = s.cores := rfl
@[simp] theorem State.logRefusal_parkedCtxs (s : State) (source detail : Nat) : (s.logRefusal source detail).parkedCtxs = s.parkedCtxs := rfl

/-! ### `State.reply` -/

@[simp] theorem State.reply_cycle (s : State) (r : LinkReply) : (s.reply r).cycle = s.cycle := rfl
@[simp] theorem State.reply_tick (s : State) (r : LinkReply) : (s.reply r).tick = s.tick := rfl
@[simp] theorem State.reply_inputs (s : State) (r : LinkReply) : (s.reply r).inputs = s.inputs := rfl
@[simp] theorem State.reply_issueQ (s : State) (r : LinkReply) : (s.reply r).issueQ = s.issueQ := rfl
@[simp] theorem State.reply_cur (s : State) (r : LinkReply) : (s.reply r).cur = s.cur := rfl
@[simp] theorem State.reply_mem (s : State) (r : LinkReply) : (s.reply r).mem = s.mem := rfl
@[simp] theorem State.reply_poison (s : State) (r : LinkReply) : (s.reply r).poison = s.poison := rfl
@[simp] theorem State.reply_sent (s : State) (r : LinkReply) : (s.reply r).sent = s.sent := rfl
@[simp] theorem State.reply_nextSent (s : State) (r : LinkReply) : (s.reply r).nextSent = s.nextSent := rfl
@[simp] theorem State.reply_mgmt (s : State) (r : LinkReply) : (s.reply r).mgmt = s.mgmt := rfl
@[simp] theorem State.reply_qc (s : State) (r : LinkReply) : (s.reply r).qc = s.qc := rfl
@[simp] theorem State.reply_grids (s : State) (r : LinkReply) : (s.reply r).grids = s.grids := rfl
@[simp] theorem State.reply_nextGrid (s : State) (r : LinkReply) : (s.reply r).nextGrid = s.nextGrid := rfl
@[simp] theorem State.reply_tasks (s : State) (r : LinkReply) : (s.reply r).tasks = s.tasks := rfl
@[simp] theorem State.reply_sects (s : State) (r : LinkReply) : (s.reply r).sects = s.sects := rfl
@[simp] theorem State.reply_svcRings (s : State) (r : LinkReply) : (s.reply r).svcRings = s.svcRings := rfl
@[simp] theorem State.reply_calls (s : State) (r : LinkReply) : (s.reply r).calls = s.calls := rfl
@[simp] theorem State.reply_nextCall (s : State) (r : LinkReply) : (s.reply r).nextCall = s.nextCall := rfl
@[simp] theorem State.reply_aspaces (s : State) (r : LinkReply) : (s.reply r).aspaces = s.aspaces := rfl
@[simp] theorem State.reply_codeObjs (s : State) (r : LinkReply) : (s.reply r).codeObjs = s.codeObjs := rfl
@[simp] theorem State.reply_cores (s : State) (r : LinkReply) : (s.reply r).cores = s.cores := rfl
@[simp] theorem State.reply_parkedCtxs (s : State) (r : LinkReply) : (s.reply r).parkedCtxs = s.parkedCtxs := rfl

/-! ### `State.enterRecord` and `State.queueRecord` -/

@[simp] theorem State.enterRecord_cycle (s : State) (r : TrapRecord) : (s.enterRecord r).cycle = s.cycle := by
  simp only [State.enterRecord]; split <;> rfl
@[simp] theorem State.queueRecord_cycle (s : State) (r : TrapRecord) : (s.queueRecord r).cycle = s.cycle := by
  simp only [State.queueRecord, State.oweTrap]; split <;> simp
@[simp] theorem State.enterRecord_tick (s : State) (r : TrapRecord) : (s.enterRecord r).tick = s.tick := by
  simp only [State.enterRecord]; split <;> rfl
@[simp] theorem State.queueRecord_tick (s : State) (r : TrapRecord) : (s.queueRecord r).tick = s.tick := by
  simp only [State.queueRecord, State.oweTrap]; split <;> simp
@[simp] theorem State.enterRecord_inputs (s : State) (r : TrapRecord) : (s.enterRecord r).inputs = s.inputs := by
  simp only [State.enterRecord]; split <;> rfl
@[simp] theorem State.queueRecord_inputs (s : State) (r : TrapRecord) : (s.queueRecord r).inputs = s.inputs := by
  simp only [State.queueRecord, State.oweTrap]; split <;> simp
@[simp] theorem State.enterRecord_issueQ (s : State) (r : TrapRecord) : (s.enterRecord r).issueQ = s.issueQ := by
  simp only [State.enterRecord]; split <;> rfl
@[simp] theorem State.queueRecord_issueQ (s : State) (r : TrapRecord) : (s.queueRecord r).issueQ = s.issueQ := by
  simp only [State.queueRecord, State.oweTrap]; split <;> simp
@[simp] theorem State.enterRecord_cur (s : State) (r : TrapRecord) : (s.enterRecord r).cur = s.cur := by
  simp only [State.enterRecord]; split <;> rfl
@[simp] theorem State.queueRecord_cur (s : State) (r : TrapRecord) : (s.queueRecord r).cur = s.cur := by
  simp only [State.queueRecord, State.oweTrap]; split <;> simp
@[simp] theorem State.enterRecord_mem (s : State) (r : TrapRecord) : (s.enterRecord r).mem = s.mem := by
  simp only [State.enterRecord]; split <;> rfl
@[simp] theorem State.queueRecord_mem (s : State) (r : TrapRecord) : (s.queueRecord r).mem = s.mem := by
  simp only [State.queueRecord, State.oweTrap]; split <;> simp
@[simp] theorem State.enterRecord_poison (s : State) (r : TrapRecord) : (s.enterRecord r).poison = s.poison := by
  simp only [State.enterRecord]; split <;> rfl
@[simp] theorem State.queueRecord_poison (s : State) (r : TrapRecord) : (s.queueRecord r).poison = s.poison := by
  simp only [State.queueRecord, State.oweTrap]; split <;> simp
@[simp] theorem State.enterRecord_sent (s : State) (r : TrapRecord) : (s.enterRecord r).sent = s.sent := by
  simp only [State.enterRecord]; split <;> rfl
@[simp] theorem State.queueRecord_sent (s : State) (r : TrapRecord) : (s.queueRecord r).sent = s.sent := by
  simp only [State.queueRecord, State.oweTrap]; split <;> simp
@[simp] theorem State.enterRecord_nextSent (s : State) (r : TrapRecord) : (s.enterRecord r).nextSent = s.nextSent := by
  simp only [State.enterRecord]; split <;> rfl
@[simp] theorem State.queueRecord_nextSent (s : State) (r : TrapRecord) : (s.queueRecord r).nextSent = s.nextSent := by
  simp only [State.queueRecord, State.oweTrap]; split <;> simp
@[simp] theorem State.enterRecord_att (s : State) (r : TrapRecord) : (s.enterRecord r).att = s.att := by
  simp only [State.enterRecord]; split <;> rfl
@[simp] theorem State.queueRecord_att (s : State) (r : TrapRecord) : (s.queueRecord r).att = s.att := by
  simp only [State.queueRecord, State.oweTrap]; split <;> simp
@[simp] theorem State.enterRecord_qc (s : State) (r : TrapRecord) : (s.enterRecord r).qc = s.qc := by
  simp only [State.enterRecord]; split <;> rfl
@[simp] theorem State.queueRecord_qc (s : State) (r : TrapRecord) : (s.queueRecord r).qc = s.qc := by
  simp only [State.queueRecord, State.oweTrap]; split <;> simp
@[simp] theorem State.enterRecord_grids (s : State) (r : TrapRecord) : (s.enterRecord r).grids = s.grids := by
  simp only [State.enterRecord]; split <;> rfl
@[simp] theorem State.queueRecord_grids (s : State) (r : TrapRecord) : (s.queueRecord r).grids = s.grids := by
  simp only [State.queueRecord, State.oweTrap]; split <;> simp
@[simp] theorem State.enterRecord_nextGrid (s : State) (r : TrapRecord) : (s.enterRecord r).nextGrid = s.nextGrid := by
  simp only [State.enterRecord]; split <;> rfl
@[simp] theorem State.queueRecord_nextGrid (s : State) (r : TrapRecord) : (s.queueRecord r).nextGrid = s.nextGrid := by
  simp only [State.queueRecord, State.oweTrap]; split <;> simp
@[simp] theorem State.enterRecord_tasks (s : State) (r : TrapRecord) : (s.enterRecord r).tasks = s.tasks := by
  simp only [State.enterRecord]; split <;> rfl
@[simp] theorem State.queueRecord_tasks (s : State) (r : TrapRecord) : (s.queueRecord r).tasks = s.tasks := by
  simp only [State.queueRecord, State.oweTrap]; split <;> simp
@[simp] theorem State.enterRecord_svcRings (s : State) (r : TrapRecord) : (s.enterRecord r).svcRings = s.svcRings := by
  simp only [State.enterRecord]; split <;> rfl
@[simp] theorem State.queueRecord_svcRings (s : State) (r : TrapRecord) : (s.queueRecord r).svcRings = s.svcRings := by
  simp only [State.queueRecord, State.oweTrap]; split <;> simp
@[simp] theorem State.enterRecord_calls (s : State) (r : TrapRecord) : (s.enterRecord r).calls = s.calls := by
  simp only [State.enterRecord]; split <;> rfl
@[simp] theorem State.queueRecord_calls (s : State) (r : TrapRecord) : (s.queueRecord r).calls = s.calls := by
  simp only [State.queueRecord, State.oweTrap]; split <;> simp
@[simp] theorem State.enterRecord_nextCall (s : State) (r : TrapRecord) : (s.enterRecord r).nextCall = s.nextCall := by
  simp only [State.enterRecord]; split <;> rfl
@[simp] theorem State.queueRecord_nextCall (s : State) (r : TrapRecord) : (s.queueRecord r).nextCall = s.nextCall := by
  simp only [State.queueRecord, State.oweTrap]; split <;> simp
@[simp] theorem State.enterRecord_aspaces (s : State) (r : TrapRecord) : (s.enterRecord r).aspaces = s.aspaces := by
  simp only [State.enterRecord]; split <;> rfl
@[simp] theorem State.queueRecord_aspaces (s : State) (r : TrapRecord) : (s.queueRecord r).aspaces = s.aspaces := by
  simp only [State.queueRecord, State.oweTrap]; split <;> simp
@[simp] theorem State.enterRecord_codeObjs (s : State) (r : TrapRecord) : (s.enterRecord r).codeObjs = s.codeObjs := by
  simp only [State.enterRecord]; split <;> rfl
@[simp] theorem State.queueRecord_codeObjs (s : State) (r : TrapRecord) : (s.queueRecord r).codeObjs = s.codeObjs := by
  simp only [State.queueRecord, State.oweTrap]; split <;> simp
@[simp] theorem State.enterRecord_cores (s : State) (r : TrapRecord) : (s.enterRecord r).cores = s.cores := by
  simp only [State.enterRecord]; split <;> rfl
@[simp] theorem State.queueRecord_cores (s : State) (r : TrapRecord) : (s.queueRecord r).cores = s.cores := by
  simp only [State.queueRecord, State.oweTrap]; split <;> simp
@[simp] theorem State.enterRecord_parkedCtxs (s : State) (r : TrapRecord) : (s.enterRecord r).parkedCtxs = s.parkedCtxs := by
  simp only [State.enterRecord]; split <;> rfl
@[simp] theorem State.queueRecord_parkedCtxs (s : State) (r : TrapRecord) : (s.queueRecord r).parkedCtxs = s.parkedCtxs := by
  simp only [State.queueRecord, State.oweTrap]; split <;> simp

/-! ### Cores, contexts and sections read back -/

@[simp] theorem State.core_setCore (s : State) (c : Nat) (k : Core) : (s.setCore c k).core c = k := by
  simp [State.core, State.setCore]

theorem State.core_setCore_other (s : State) {c d : Nat} (k : Core) (h : c ≠ d) : (s.setCore c k).core d = s.core d := by
  simp [State.core, State.setCore, SMap.get_insert_other, h]

@[simp] theorem State.core_updCore (s : State) (c : Nat) (f : Core → Core) : (s.updCore c f).core c = f (s.core c) := by
  simp [State.updCore]

theorem State.core_updCore_other (s : State) {c d : Nat} (f : Core → Core) (h : c ≠ d) :
    (s.updCore c f).core d = s.core d := by
  simp [State.updCore, State.core_setCore_other, h]

@[simp] theorem State.ctx_setCtx (s : State) (c x : Nat) (k : Ctx) : (s.setCtx c x k).ctx c x = k := by
  simp [State.ctx, State.setCtx]

theorem State.ctx_setCtx_other (s : State) {c x d y : Nat} (k : Ctx) (h : c ≠ d ∨ x ≠ y) :
    (s.setCtx c x k).ctx d y = s.ctx d y := by
  by_cases hc : c = d
  · subst hc
    have hx : x ≠ y := by simpa using h
    simp [State.ctx, State.setCtx, SMap.get_insert_other, hx]
  · simp [State.ctx, State.setCtx, State.core_updCore_other, hc]

@[simp] theorem State.ctx_updCtx (s : State) (c x : Nat) (f : Ctx → Ctx) : (s.updCtx c x f).ctx c x = f (s.ctx c x) := by
  simp [State.updCtx]

@[simp] theorem State.sect_setSect (s : State) (n : Nat) (k : Section) : (s.setSect n k).sect n = k := by
  simp [State.sect, State.setSect]

@[simp] theorem State.sect_updSect (s : State) (n : Nat) (f : Section → Section) :
    (s.updSect n f).sect n = f (s.sect n) := by
  simp [State.updSect]

/-- A context written into a core leaves the core's other parts. -/
theorem State.core_setCtx (s : State) (c x : Nat) (k : Ctx) :
    (s.setCtx c x k).core c = { s.core c with ctxs := SMap.insert (s.core c).ctxs x k } := by
  simp [State.setCtx]

@[simp] theorem State.setCore_setCore (s : State) (c : Nat) (k k' : Core) :
    (s.setCore c k).setCore c k' = s.setCore c k' := by
  simp [State.setCore, SMap.insert_insert]

/-- The later of two writes of a context stands. -/
@[simp] theorem State.setCtx_setCtx (s : State) (c x : Nat) (k k' : Ctx) :
    (s.setCtx c x k).setCtx c x k' = s.setCtx c x k' := by
  simp [State.setCtx, State.updCore, SMap.insert_insert]

@[simp] theorem State.updCtx_setCtx (s : State) (c x : Nat) (k : Ctx) (f : Ctx → Ctx) :
    (s.setCtx c x k).updCtx c x f = s.setCtx c x (f k) := by
  simp [State.updCtx]

@[simp] theorem State.updCtx_updCtx (s : State) (c x : Nat) (f g : Ctx → Ctx) :
    (s.updCtx c x f).updCtx c x g = s.setCtx c x (g (f (s.ctx c x))) := by
  simp [State.updCtx]

/-- The issuing context after it is written. -/
@[simp] theorem State.cc_setCtx (s : State) (k : Ctx) : (s.setCtx s.cur.core s.cur.ctx k).cc = k := by
  simp [State.cc]

/-! ### Flows -/

@[simp] theorem Ctx.flow_setFlow (k : Ctx) (f : Nat) (x : Flow) : (k.setFlow f x).flow f = x := by
  simp [Ctx.flow, Ctx.setFlow]

theorem Ctx.flow_setFlow_other (k : Ctx) {f g : Nat} (x : Flow) (h : f ≠ g) : (k.setFlow f x).flow g = k.flow g := by
  simp [Ctx.flow, Ctx.setFlow, SMap.get_insert_other, h]

@[simp] theorem Ctx.flow_updFlow (k : Ctx) (f : Nat) (g : Flow → Flow) : (k.updFlow f g).flow f = g (k.flow f) := by
  simp [Ctx.updFlow]

@[simp] theorem Ctx.setFlow_setFlow (k : Ctx) (f : Nat) (x y : Flow) : (k.setFlow f x).setFlow f y = k.setFlow f y := by
  simp [Ctx.setFlow, SMap.insert_insert]

@[simp] theorem Ctx.updFlow_updFlow (k : Ctx) (f : Nat) (g h : Flow → Flow) :
    (k.updFlow f g).updFlow f h = k.updFlow f (fun x => h (g x)) := by
  simp [Ctx.updFlow]

/-! ### Registers -/

theorem Ctx.readS_write (k : Ctx) (r q : Nat) (v : Word) :
    (k.write ⟨.s r, v⟩).readS q = if r = q then v else k.readS q := by
  simp [Ctx.write, Ctx.readS, SMap.get_set]

theorem laneKey_inj {r l q m : Nat} (hl : l < 1024) (hm : m < 1024) (h : laneKey r l = laneKey q m) : r = q ∧ l = m := by
  unfold laneKey at h
  omega

theorem Ctx.readV_write (k : Ctx) (r l q m : Nat) (v : Word) (hl : l < 1024) (hm : m < 1024) :
    (k.write ⟨.v r l, v⟩).readV q m = if r = q ∧ l = m then v else k.readV q m := by
  simp only [Ctx.write, Ctx.readV, SMap.get_set]
  by_cases h : r = q ∧ l = m
  · obtain ⟨rfl, rfl⟩ := h; simp
  · rw [if_neg, if_neg h]
    intro e
    exact h (laneKey_inj hl hm e)

/-- A lane predicate reads back what was written; p0 discards it and reads true (09 R183). -/
theorem Ctx.readP_write (k : Ctx) (n l m : Nat) (v : Word) :
    (k.write ⟨.p n l, v⟩).readP m l = if n = m ∧ n ≠ 0 then v != 0 else k.readP m l := by
  by_cases hn : n = 0
  · simp [Ctx.write, hn]
  · by_cases hm : m = 0
    · simp [Ctx.write, Ctx.readP, hn, hm]
    · simp only [Ctx.write, hn, if_false, Ctx.readP, SMap.get_set]
      by_cases h : n = m
      · subst h; simp [hn]
      · rw [if_neg, if_neg (by simp [h])]
        unfold laneKey
        omega

@[simp] theorem Ctx.writes_nil (k : Ctx) : k.writes [] = k := rfl

@[simp] theorem Ctx.writes_cons (k : Ctx) (w : Write) (ws : List Write) : k.writes (w :: ws) = (k.write w).writes ws := rfl

end Sys2Proof.Machine
end

