-- ==== Sys2Proof/Laws/Issue.lean ====
section
/-! SUPPORT. Laws/Issue.lean: what the issue of a ready instruction answers, said once for each plan and decoder. -/

namespace Sys2Proof.Machine

/-- What every issue notes at its end. -/
def State.noted (s : State) : State := if s.cc.live then s.updCc (fun k => k.noteIssue s.cur.flow) else s

theorem mayIssue_live {s : State} {c x f : Nat} (h : s.mayIssue c x f = true) : (s.ctx c x).live = true := by
  simp only [State.mayIssue, Bool.and_eq_true] at h
  exact h.1.1.1.1.1.1.1.1.1.1.1.1

theorem whenIssuing_ready {s : State} (f : State → State)
    (h : s.mayIssue s.cur.core s.cur.ctx s.cur.flow = true) (hl : s.cc.badLoad = none) :
    whenIssuing f s = .next (f s).noted := by
  simp [whenIssuing, h, hl, State.noted]

/-- A flow that may not issue issues nothing. -/
theorem whenIssuing_held {s : State} (f : State → State)
    (h : s.mayIssue s.cur.core s.cur.ctx s.cur.flow = false) : whenIssuing f s = .next s := by
  simp [whenIssuing, h]

theorem SimtReady.issue_eq {s : State} {n : Info} (r : SimtReady s n) : issue n s = .next (issuePass n s).noted := by
  rw [issue, whenIssuing_ready _ r.issues r.loads]
  simp [r.simt]

theorem VliwReady.issue_eq {s : State} {n : Info} (r : VliwReady s n) : issue n s = .next (issueAlone n s).noted := by
  rw [issue, whenIssuing_ready _ r.issues r.loads]
  simp [r.vliw]

/-- What a pass does with its plan. -/
def afterPlan (n : Info) (s : State) (e : Env) : Planned → State
  | (s', .trap t) =>
    if accessPass e.o.major && parks t && !s'.tableFull s.cur.core then
      s'.parkPass e (s.cf.inGroup n).pos (s.cf.inGroup n).shadow t
    else s'.raise t
  | (s', .go f) =>
    if e.exactlyOnce then (s'.finishPass e [] f).checkpoint s.cur.core s.cur.ctx else s'.finishPass e [] f
  | (s', .record words once f) =>
    if once || e.exactlyOnce then (s'.finishPass e words f).checkpoint s.cur.core s.cur.ctx else s'.finishPass e words f
  | (s', .jump f) => if (f s').cc.live then (f s').updCc (fun k => k.markIssued (f s').cur.flow) else f s'
  | (s', .hold f) => (f s').markStopped

theorem SimtReady.pass_eq {s : State} {n : Info} (r : SimtReady s n) :
    issuePass n s = afterPlan n s (s.opEnv n) (planOp (s.opEnv n) (s.opState n)) := by
  have hl : (if s.cf.group.isNone = true then landingTrap (padKind n) s.cf.landing s.cf.pc else none) = none := by
    split
    · exact r.landed (by simpa using ‹s.cf.group.isNone = true›)
    · rfl
  have hp : (accessPass (opd n).major && s.groupParked s.cur.core s.cur.ctx (s.cf.inGroup n).pass) = false := by
    cases h : accessPass (opd n).major
    · rfl
    · simpa using r.unparked h
  unfold issuePass
  simp only [r.encoded, hl, r.free, r.released, hp, Bool.or_self, Bool.false_eq_true, if_false]
  unfold State.opEnv State.opState
  simp only [r.simt, Bool.false_eq_true, if_false]
  rfl

/-! ### Updates of the issuing context -/

theorem State.updCc_eq (s : State) (f : Ctx → Ctx) : s.updCc f = s.setCtx s.cur.core s.cur.ctx (f s.cc) := rfl

theorem State.updCf_eq (s : State) (g : Flow → Flow) :
    s.updCf g = s.setCtx s.cur.core s.cur.ctx (s.cc.updFlow s.cur.flow g) := rfl

@[simp] theorem State.updCc_setCc (s : State) (k : Ctx) (f : Ctx → Ctx) :
    (s.setCtx s.cur.core s.cur.ctx k).updCc f = s.setCtx s.cur.core s.cur.ctx (f k) := by
  simp [State.updCc_eq]

@[simp] theorem State.updCf_setCc (s : State) (k : Ctx) (g : Flow → Flow) :
    (s.setCtx s.cur.core s.cur.ctx k).updCf g = s.setCtx s.cur.core s.cur.ctx (k.updFlow s.cur.flow g) := by
  simp [State.updCf_eq]

@[simp] theorem State.deliver_setCc (s : State) (k : Ctx) (lat : Nat) (ws : List Write) :
    (s.setCtx s.cur.core s.cur.ctx k).deliver lat ws = s.setCtx s.cur.core s.cur.ctx (k.deliver s.cycle lat ws) := by
  simp [State.deliver]

theorem length_fresh_le (keys undo : List Nat) :
    ((keys.filter (fun n => !undo.contains n)).eraseDups).length ≤ keys.length := by
  have h : ∀ l : List Nat, l.eraseDups.length ≤ l.length := by
    intro l
    induction h : l.length using Nat.strong_induction_on generalizing l with
    | _ m ih =>
      cases l with
      | nil => simp
      | cons a l =>
        rw [List.eraseDups_cons]
        have h1 : (l.filter (fun b => !b == a)).length ≤ l.length := List.length_filter_le _ _
        have := ih (l.filter (fun b => !b == a)).length (by simp at h; omega) _ rfl
        simp at this h ⊢
        omega
  exact (h _).trans (List.length_filter_le _ _)

/-- Where a thread stands after a bundle that set no position and ends no loop (09 R192). -/
def State.pastBundle (s : State) (next : Word) (due : Option Delay) : State :=
  match due with
  | some d =>
    if d.left ≤ 1 then
      s.updCc (fun k => { k.updFlow 255 (fun fl => { fl with pc := d.target, landing := d.landing }) with delay := none })
    else s.updCc (fun k => { k.updFlow 255 (fun fl => { fl with pc := next }) with delay := some { d with left := d.left - 1 } })
  | none => s.updCc (fun k => k.updFlow 255 (fun fl => { fl with pc := next }))

/-- What the issue cycle of a bundle does once its ops have taken effect: the next issue cycle begins, its results land,
and the flow has issued. -/
def State.issueCycle (s : State) : State :=
  (s.updCc (fun k => ({ k with icyc := k.icyc + 1 }).land (k.icyc + 1))).updCf Flow.issued

theorem VliwReady.state_eq {s : State} {n : Info} (r : VliwReady s n) :
    s.opState n = s.updCf (fun fl => { fl with wait := .none, landing := none, pc := s.cf.pc }) := by
  simp [State.opState, r.vliw]

theorem VliwReady.env_eq {s : State} {n : Info} (r : VliwReady s n) :
    s.opEnv n = (s.opState n).slotEnv s.cur.slot n s.cf.pc := by
  simp [State.opEnv, r.vliw]

theorem refillLoop_idle {s : State} (c x : Nat) (h : (s.ctx c x).refill = false) : s.refillLoop c x = s := by
  simp [State.refillLoop, h]

theorem VliwReady.alone_eq {s : State} {n : Info} (r : VliwReady s n) :
    issueAlone n s = runBundle [(s.cur.slot, n)] s.cf.pc (s.cf.pc + BitVec.ofNat 32 (4 + n.len)) s := by
  unfold issueAlone
  rw [refillLoop_idle _ _ (by simpa [State.cc] using r.noRefill)]
  simp [r.encoded, r.landed]

theorem VliwReady.stageOn {s : State} {n : Info} (r : VliwReady s n) : (s.opEnv n).stage = true := by
  rw [r.env_eq]
  have : (s.opState n).cc.ps = s.cc.ps := by
    rw [r.state_eq]
    simp [State.updCf, State.updCc, State.cc, State.cf, Ctx.updFlow, Ctx.setFlow]
  have h := r.stage
  simp only [stageGuard] at h
  simp only [Env.stage, State.slotEnv, stageGuard, this]
  exact h

/-- The effect of a bundle of one op that goes on. -/
theorem runSlots_one (s : State) (e : Env) (f : State → State) : runSlots s [(e, .go f)] = (f s, false) := by
  unfold runSlots
  cases h : e.setsTile <;> simp [h]

/-- A bundle of one op waits for no room that the op alone does not wait for. -/
theorem bundleRoom_one (s : State) (e : Env) (p : Plan) : bundleRoom s [(e, p)] = none := by
  unfold bundleRoom
  simp only [List.map_cons, List.map_nil, List.filter_cons, List.filter_nil]
  split
  · rename_i h
    split at h <;> simp at h
  · rfl

/-- A bundle of one op whose plan takes effect and goes on. -/
theorem runBundle_go {s s' : State} {slot : Nat} {n : Info} {addr next : Word} {f : State → State}
    (free : s.cc.bundleHeld [opd n] = false) (released : s.releaseHolds s.cc (opd n) = false)
    (stage : ((s.updCf (fun fl => { fl with wait := .none, landing := none, pc := addr })).slotEnv slot n addr).stage = true)
    (h : planOp ((s.updCf (fun fl => { fl with wait := .none, landing := none, pc := addr })).slotEnv slot n addr)
      (s.updCf (fun fl => { fl with wait := .none, landing := none, pc := addr })) = (s', .go f)) :
    let e := (s.updCf (fun fl => { fl with wait := .none, landing := none, pc := addr })).slotEnv slot n addr
    let s1 := f (s'.noteUndo (undoKeys s.cc (opd n) false 0 slot))
    runBundle [(slot, n)] addr next s =
      if !(s1.ctx s.cur.core s.cur.ctx).live then s1
      else match ((s1.updCtx s.cur.core s.cur.ctx (fun k => ({ k with icyc := k.icyc + 1 }).land (k.icyc + 1))).updCf Flow.issued).nextBundle
          s.cur.core s.cur.ctx addr next s.cc.delay with
        | .error t => s'.raise t
        | .ok s2 => if e.exactlyOnce then s2.checkpoint s.cur.core s.cur.ctx else s2 := by
  intro e s1
  unfold runBundle
  simp only [List.map_cons, List.map_nil, List.any_cons, List.any_nil, free, released, Bool.or_self, Bool.false_eq_true, if_false]
  simp only [planSlots, stage, Bool.not_true, Bool.false_and, Bool.false_eq_true, if_false, h]
  simp only [bundleTrap, List.filterMap_cons, List.filterMap_nil, List.filter_nil, List.head?_nil, Option.map_none,
    if_true, List.isEmpty_nil, Bool.not_true, Bool.false_eq_true, if_false, List.flatMap_cons, List.flatMap_nil, List.append_nil,
    runSlots_one, bundleRoom_one, List.any_cons, List.any_nil, Bool.or_false]
  rfl

/-- The position after a bundle that ends no loop's body. -/
theorem nextBundle_past (s : State) (addr next : Word) (due : Option Delay)
    (h : due.isSome = true ∨ ∀ en, s.cc.loops.getLast? = some en → en.stop ≠ addr) :
    s.nextBundle s.cur.core s.cur.ctx addr next due = .ok (s.pastBundle next due) := by
  unfold State.nextBundle
  rw [show s.ctx s.cur.core s.cur.ctx = s.cc from rfl]
  cases due with
  | some d =>
    by_cases hd : d.left ≤ 1 <;> cases s.cc.loops.getLast? <;> simp [Except.map, State.pastBundle, hd, State.updCc]
  | none =>
    cases hl : s.cc.loops.getLast? with
    | none => simp [hl, Except.map, State.pastBundle, State.updCc]
    | some en =>
      have : en.stop ≠ addr := by simpa using h.resolve_left (by simp) en hl
      simp [hl, this, Except.map, State.pastBundle, State.updCc]

/-! ### What an issue may change beside its effect -/

/-- A context with the six things that an issue may change of it. -/
def Ctx.mark (k : Ctx) (a : SMap Flow) (b : List Nat) (v : SMap Word) (c : Bool) (d : Option Delay) (e : List LoopEntry) : Ctx :=
  { k with flows := a, undo := b, undoVals := v, stepped := c, delay := d, loops := e }

theorem Ctx.issuedFrom_mark (k : Ctx) (a : SMap Flow) (b : List Nat) (v : SMap Word) (c : Bool) (d : Option Delay) (e : List LoopEntry) :
    (k.mark a b v c d e).IssuedFrom k := rfl

theorem Ctx.issuedFrom_iff {k' k : Ctx} : k'.IssuedFrom k ↔ ∃ a b v c d e, k' = k.mark a b v c d e :=
  ⟨fun h => ⟨_, _, _, _, _, _, h⟩, fun ⟨_, _, _, _, _, _, h⟩ => h ▸ rfl⟩

theorem Ctx.IssuedFrom.refl (k : Ctx) : k.IssuedFrom k := rfl

theorem Ctx.IssuedFrom.trans {a b c : Ctx} (h : a.IssuedFrom b) (h' : b.IssuedFrom c) : a.IssuedFrom c := by
  obtain ⟨_, _, _, _, _, _, rfl⟩ := Ctx.issuedFrom_iff.1 h
  obtain ⟨_, _, _, _, _, _, rfl⟩ := Ctx.issuedFrom_iff.1 h'
  rfl

theorem Ctx.updFlow_issued (k : Ctx) (f : Nat) (g : Flow → Flow) : (k.updFlow f g).IssuedFrom k := rfl

theorem Ctx.noteIssue_issued (k : Ctx) (f : Nat) : (k.noteIssue f).IssuedFrom k := by
  unfold Ctx.noteIssue
  dsimp only
  split <;> split <;> rfl

theorem Ctx.mark_write (k : Ctx) (a : SMap Flow) (b : List Nat) (v : SMap Word) (c : Bool) (d : Option Delay) (e : List LoopEntry)
    (w : Write) : (k.mark a b v c d e).write w = (k.write w).mark a b v c d e := by
  cases w with
  | mk t v => cases t <;> simp only [Ctx.write] <;> first | rfl | (split <;> rfl)

theorem Ctx.mark_writes (k : Ctx) (a : SMap Flow) (b : List Nat) (v : SMap Word) (c : Bool) (d : Option Delay) (e : List LoopEntry)
    (ws : List Write) : (k.mark a b v c d e).writes ws = (k.writes ws).mark a b v c d e := by
  induction ws generalizing k with
  | nil => rfl
  | cons w r ih => rw [Ctx.writes_cons, Ctx.mark_write, ih]; rfl

theorem Ctx.mark_landed (fs : List Flight) (k : Ctx) (a : SMap Flow) (b : List Nat) (v : SMap Word) (c : Bool) (d : Option Delay)
    (e : List LoopEntry) : fs.foldl (fun k f => k.writes f.writes) (k.mark a b v c d e)
      = (fs.foldl (fun k f => k.writes f.writes) k).mark a b v c d e := by
  induction fs generalizing k with
  | nil => rfl
  | cons f r ih => rw [List.foldl_cons, Ctx.mark_writes, ih]; rfl

theorem Ctx.mark_land (k : Ctx) (a : SMap Flow) (b : List Nat) (v : SMap Word) (c : Bool) (d : Option Delay) (e : List LoopEntry)
    (i : Nat) : (k.mark a b v c d e).land i = (k.land i).mark a b v c d e := by
  unfold Ctx.land
  rw [show (k.mark a b v c d e).flight = k.flight from rfl]
  dsimp only
  rw [Ctx.mark_landed]
  rfl

theorem Ctx.mark_deliver (k : Ctx) (a : SMap Flow) (b : List Nat) (v : SMap Word) (c : Bool) (d : Option Delay) (e : List LoopEntry)
    (cycle lat : Nat) (ws : List Write) : (k.mark a b v c d e).deliver cycle lat ws = (k.deliver cycle lat ws).mark a b v c d e := by
  unfold Ctx.deliver
  rw [show (k.mark a b v c d e).vliw = k.vliw from rfl, Ctx.mark_writes]
  split <;> rfl

/-- Marks commute with the delivery of results and with the issue cycle that follows. -/
theorem Ctx.IssuedFrom.deliver {k' k : Ctx} (h : k'.IssuedFrom k) (cycle lat : Nat) (ws : List Write) :
    (k'.deliver cycle lat ws).IssuedFrom (k.deliver cycle lat ws) := by
  obtain ⟨a, b, v, c, d, e, rfl⟩ := Ctx.issuedFrom_iff.1 h
  rw [Ctx.mark_deliver]
  rfl

theorem Ctx.IssuedFrom.afterIssue {k' k : Ctx} (h : k'.IssuedFrom k) : k'.afterIssue.IssuedFrom k.afterIssue := by
  obtain ⟨a, b, v, c, d, e, rfl⟩ := Ctx.issuedFrom_iff.1 h
  unfold Ctx.afterIssue
  rw [show (k.mark a b v c d e).vliw = k.vliw from rfl]
  split
  · rw [show (k.mark a b v c d e).icyc = k.icyc from rfl]
    exact Ctx.issuedFrom_iff.2 ⟨a, b, v, c, d, e, Ctx.mark_land { k with icyc := k.icyc + 1 } a b v c d e (k.icyc + 1)⟩
  · rfl

/-- With room in the undo log, a first write only makes its entries. -/
theorem noteUndo_issued (s : State) (k : Ctx) (keys : List Nat) (h : k.undo.length + keys.length ≤ Config.undoMax) :
    ∃ k', (s.setCtx s.cur.core s.cur.ctx k).noteUndo keys = s.setCtx s.cur.core s.cur.ctx k' ∧ k'.IssuedFrom k
      ∧ k'.loops = k.loops := by
  have := length_fresh_le keys k.undo
  have e : (s.setCtx s.cur.core s.cur.ctx k).cc = k := State.cc_setCtx s k
  refine ⟨k.mark k.flows (k.undo ++ ((keys.filter (fun n => !k.undo.contains n)).eraseDups)) (oldWords
    ((s.setCtx s.cur.core s.cur.ctx k).core s.cur.core).spad k.spadBase ((keys.filter (fun n => !k.undo.contains n)).eraseDups)
    k.undoVals) k.stepped k.delay k.loops, ?_, rfl, rfl⟩
  simp only [State.noteUndo, e]
  rw [if_neg (by omega)]
  exact State.updCc_setCc s k _

/-- The end of every issue changes nothing but its context's marks. -/
theorem noted_issued (s : State) (k : Ctx) :
    ∃ k', (s.setCtx s.cur.core s.cur.ctx k).noted = s.setCtx s.cur.core s.cur.ctx k' ∧ k'.IssuedFrom k := by
  unfold State.noted
  split
  · exact ⟨_, State.updCc_setCc s k _, Ctx.noteIssue_issued k _⟩
  · exact ⟨k, rfl, rfl⟩

theorem pastBundle_issued (s : State) (k : Ctx) (next : Word) (due : Option Delay) :
    ∃ k', (s.setCtx s.cur.core s.cur.ctx k).pastBundle next due = s.setCtx s.cur.core s.cur.ctx k' ∧ k'.IssuedFrom k := by
  unfold State.pastBundle
  cases due with
  | none => exact ⟨_, State.updCc_setCc s k _, rfl⟩
  | some d => dsimp only; split <;> exact ⟨_, State.updCc_setCc s k _, rfl⟩

theorem land_keeps (k : Ctx) (i : Nat) : (k.land i).loops = k.loops ∧ (k.land i).live = k.live ∧ (k.land i).mode = k.mode
    ∧ (k.land i).flows = k.flows := by
  have hw : ∀ (ws : List Write) (k : Ctx), (k.writes ws).loops = k.loops ∧ (k.writes ws).live = k.live
      ∧ (k.writes ws).mode = k.mode ∧ (k.writes ws).flows = k.flows := by
    intro ws
    induction ws with
    | nil => simp
    | cons w r ih =>
      intro k
      have h := ih (k.write w)
      simp only [Ctx.writes_cons]
      rw [h.1, h.2.1, h.2.2.1, h.2.2.2]
      cases w with | mk d v => cases d <;> simp [Ctx.write]; split <;> simp
  have hf : ∀ (fs : List Flight) (k : Ctx), (fs.foldl (fun k f => k.writes f.writes) k).loops = k.loops
      ∧ (fs.foldl (fun k f => k.writes f.writes) k).live = k.live ∧ (fs.foldl (fun k f => k.writes f.writes) k).mode = k.mode
      ∧ (fs.foldl (fun k f => k.writes f.writes) k).flows = k.flows := by
    intro fs
    induction fs with
    | nil => simp
    | cons f r ih =>
      intro k
      have h := ih (k.writes f.writes)
      have h' := hw f.writes k
      simp only [List.foldl_cons]
      rw [h.1, h.2.1, h.2.2.1, h.2.2.2]
      exact h'
  exact hf _ k

theorem afterIssue_eq (k : Ctx) (h : k.vliw = true) : k.afterIssue = ({ k with icyc := k.icyc + 1 }).land (k.icyc + 1) := by
  simp [Ctx.afterIssue, h]

theorem land_fixed (k : Ctx) (i : Nat) : (k.land i).loops = k.loops ∧ (k.land i).live = k.live := by
  exact ⟨(land_keeps k i).1, (land_keeps k i).2.1⟩

theorem deliver_keeps (k : Ctx) (cycle lat : Nat) (ws : List Write) (h : k.vliw = true) :
    k.deliver cycle lat ws = { k with flight := k.flight ++ [⟨k.icyc + lat, ws⟩] } := by
  simp [Ctx.deliver, h]

/-- In VLIW mode, an op whose plan delivers results and nothing else changes its context only. -/
theorem VliwReady.writes {s : State} {n : Info} (r : VliwReady s n) (room : s.undoRoom n) {lat : Nat} {ws : List Write}
    (once : (s.opEnv n).exactlyOnce = false)
    (h : planOp (s.opEnv n) (s.opState n) = (s.opState n, .go (fun s => s.deliver lat ws))) :
    IssueWrites s (issue n s) lat ws := by
  unfold State.undoRoom at room
  rw [r.issue_eq, r.alone_eq]
  have st := r.stageOn
  rw [r.env_eq] at h st once room
  rw [r.state_eq] at h st once room
  have go := runBundle_go (next := s.cf.pc + BitVec.ofNat 32 (4 + n.len)) r.free r.released st h
  dsimp only at go
  rw [go]
  simp only [once, Bool.false_eq_true, if_false]
  obtain ⟨k1, h1, i1, l1⟩ := noteUndo_issued s (s.cc.updFlow s.cur.flow (fun fl => { fl with wait := .none, landing := none, pc := s.cf.pc }))
    (undoKeys s.cc (opd n) false 0 s.cur.slot) (by
      have hv : (!s.cc.vliw) = false := by simp [r.vliw]
      rw [hv] at room
      exact room)
  rw [show (s.updCf (fun fl => { fl with wait := .none, landing := none, pc := s.cf.pc })).noteUndo _ = _ from h1]
  have i1 : k1.IssuedFrom s.cc := i1.trans (Ctx.updFlow_issued _ _ _)
  rw [State.deliver_setCc]
  have i2 := i1.deliver s.cycle lat ws
  have l2 : (k1.deliver s.cycle lat ws).loops = s.cc.loops := by
    rw [deliver_keeps _ _ _ _ (by rw [i1]; exact r.vliw)]
    exact l1
  generalize hk2 : k1.deliver s.cycle lat ws = k2 at i2 l2
  have live2 : k2.live = true := by
    rw [i2, deliver_keeps _ _ _ _ r.vliw]
    exact mayIssue_live r.issues
  rw [if_neg (by simp [live2])]
  have v2 : k2.vliw = true := by
    rw [i2, deliver_keeps _ _ _ _ r.vliw]
    exact r.vliw
  have i3 : ({ k2 with icyc := k2.icyc + 1 }.land (k2.icyc + 1)).IssuedFrom (s.cc.deliver s.cycle lat ws).afterIssue := by
    rw [← afterIssue_eq k2 v2]
    exact i2.afterIssue
  rw [State.updCtx_setCtx, State.updCf_setCc]
  have i4 := (Ctx.updFlow_issued ({ k2 with icyc := k2.icyc + 1 }.land (k2.icyc + 1)) s.cur.flow Flow.issued).trans i3
  have l4 : (({ k2 with icyc := k2.icyc + 1 }.land (k2.icyc + 1)).updFlow s.cur.flow Flow.issued).loops = s.cc.loops := by
    exact (land_keeps _ _).1.trans l2
  generalize ({ k2 with icyc := k2.icyc + 1 }.land (k2.icyc + 1)).updFlow s.cur.flow Flow.issued = k4 at i4 l4
  have nb := nextBundle_past (s.setCtx s.cur.core s.cur.ctx k4) s.cf.pc (s.cf.pc + BitVec.ofNat 32 (4 + n.len)) s.cc.delay
    (by rw [State.cc_setCtx, l4]; exact r.noEnd)
  rw [show (s.setCtx s.cur.core s.cur.ctx k4).nextBundle s.cur.core s.cur.ctx _ _ _ = _ from nb]
  obtain ⟨k5, h5, i5⟩ := pastBundle_issued s k4 (s.cf.pc + BitVec.ofNat 32 (4 + n.len)) s.cc.delay
  rw [h5]
  obtain ⟨k6, h6, i6⟩ := noted_issued s k5
  exact ⟨k6, by rw [← h6], i6.trans (i5.trans i4)⟩

/-- In SIMT mode, an instruction whose plan delivers results and nothing else changes its context only. -/
theorem SimtReady.writes {s : State} {n : Info} (r : SimtReady s n) (room : s.undoRoom n) {lat : Nat} {ws : List Write}
    (once : (s.opEnv n).exactlyOnce = false)
    (h : planOp (s.opEnv n) (s.opState n) = (s.opState n, .go (fun s => s.deliver lat ws))) :
    IssueWrites s (issue n s) lat ws := by
  rw [r.issue_eq, r.pass_eq, h]
  simp only [afterPlan, once, Bool.false_eq_true, if_false]
  have hs : s.opState n = s.setCtx s.cur.core s.cur.ctx (s.cc.updFlow s.cur.flow
      (fun fl => { fl with group := some (s.cf.inGroup n), wait := .none, landing := none })) := by
    unfold State.opState
    simp only [r.simt, Bool.false_eq_true, if_false]
    rfl
  have he : (s.opEnv n).core = s.cur.core ∧ (s.opEnv n).ctx = s.cur.ctx ∧ (s.opEnv n).flow = s.cur.flow
      ∧ (s.opEnv n).o = opd n := by
    unfold State.opEnv
    simp only [r.simt, Bool.false_eq_true, if_false]
    rw [hs]
    exact ⟨rfl, rfl, rfl, rfl⟩
  unfold State.undoRoom at room
  unfold State.finishPass
  simp only [he.1, he.2.1, he.2.2.1, he.2.2.2, List.nil_append]
  rw [hs]
  obtain ⟨k1, h1, i1, -⟩ := noteUndo_issued s (s.cc.updFlow s.cur.flow
      (fun fl => { fl with group := some (s.cf.inGroup n), wait := .none, landing := none }))
    (undoKeys s.cc (opd n) true (s.opEnv n).group (s.opEnv n).slot) (by
      have hv : (!s.cc.vliw) = true := by simp [r.simt]
      rw [hv] at room
      exact room)
  rw [State.ctx_setCtx]
  rw [show undoKeys (s.cc.updFlow s.cur.flow
      (fun fl => { fl with group := some (s.cf.inGroup n), wait := .none, landing := none })) (opd n) true
      (s.opEnv n).group (s.opEnv n).slot = undoKeys s.cc (opd n) true (s.opEnv n).group (s.opEnv n).slot from rfl, h1]
  have i1 : k1.IssuedFrom s.cc := i1.trans (Ctx.updFlow_issued _ _ _)
  rw [State.deliver_setCc]
  have i2 := (i1.deliver s.cycle lat ws).afterIssue
  have v1 : ∀ k : Ctx, (k.deliver s.cycle lat ws).vliw = k.vliw := by
    intro k
    unfold Ctx.deliver
    split
    · rfl
    · have : ∀ (ws : List Write) (k : Ctx), (k.writes ws).mode = k.mode := by
        intro ws
        induction ws with
        | nil => intro k; rfl
        | cons w r ih =>
          intro k
          rw [Ctx.writes_cons, ih]
          cases w with
          | mk t v => cases t <;> simp [Ctx.write]; split <;> rfl
      simp [Ctx.vliw, this]
  have v2 : (k1.deliver s.cycle lat ws).vliw = false := by
    rw [v1, i1]
    exact r.simt
  have i2 : (k1.deliver s.cycle lat ws).IssuedFrom (s.cc.deliver s.cycle lat ws).afterIssue := by
    rw [show (k1.deliver s.cycle lat ws).afterIssue = k1.deliver s.cycle lat ws by simp [Ctx.afterIssue, v2]] at i2
    exact i2
  rw [State.updCtx_setCtx]
  obtain ⟨k4, h4, i4⟩ := noted_issued s ((k1.deliver s.cycle lat ws).updFlow s.cur.flow (fun fl =>
    { fl with group := fl.group.map (fun (q : StopGroup) => { q.keepLanes (s.cc.updFlow s.cur.flow
      (fun fl => { fl with group := some (s.cf.inGroup n), wait := .none, landing := none })) (opd n) (s.opEnv n).group with
        shadow := newShadows (s.cc.updFlow s.cur.flow
      (fun fl => { fl with group := some (s.cf.inGroup n), wait := .none, landing := none })) q.shadow (opd n) }) }.advance.issued))
  exact ⟨k4, by rw [← h4], i4.trans ((Ctx.updFlow_issued _ _ _).trans i2)⟩

/-- An instruction whose plan delivers results and nothing else changes its context only. -/
theorem Ready.writes {s : State} {n : Info} (r : Ready s n) (room : s.undoRoom n) {lat : Nat} {ws : List Write}
    (once : (s.opEnv n).exactlyOnce = false)
    (h : planOp (s.opEnv n) (s.opState n) = (s.opState n, .go (fun s => s.deliver lat ws))) :
    IssueWrites s (issue n s) lat ws :=
  r.elim (fun r => r.writes room once h) (fun r => r.writes room once h)

end Sys2Proof.Machine
end

