-- ==== Sys2Proof/Laws/PerInstr.lean ====
section
/-! SUPPORT. PerInstr.lean: the family Encoding. An instruction that has an op word is the one that the decoder's table
names for the word's MAJOR, selector and FORM (13 R257, R260): no two constructors share an encoding. -/

namespace Sys2Proof.Laws.Encoding

/-- The op word of an instruction, read by MAJOR, selector and FORM, is that instruction. -/
def Statement (i : Instr) : Prop := ∀ n, info i = some n → instrOf n = some i

theorem powerCapWrite (v : Word) : Statement (.powerCapWrite v) := by intro n h; cases h
theorem powerOverCap : Statement .powerOverCap := by intro n h; cases h
theorem powerBelowCap : Statement .powerBelowCap := by intro n h; cases h
theorem thermal95 : Statement .thermal95 := by intro n h; cases h
theorem thermal105 : Statement .thermal105 := by intro n h; cases h
theorem thermalTrip110 : Statement .thermalTrip110 := by intro n h; cases h
theorem thermalResume : Statement .thermalResume := by intro n h; cases h
theorem firmwareUpdate (kind : ImageKind) (version : Nat) (write : ImageWrite) : Statement (.firmwareUpdate kind version write) := by intro n h; cases h
theorem raiseFusedMinimum (kind : ImageKind) (version : Nat) : Statement (.raiseFusedMinimum kind version) := by intro n h; cases h
theorem managementReset : Statement .managementReset := by intro n h; cases h
theorem deviceReset : Statement .deviceReset := by intro n h; cases h
theorem getVersion : Statement .getVersion := by intro n h; cases h
theorem getCapabilities : Statement .getCapabilities := by intro n h; cases h
theorem negotiateAlgorithms : Statement .negotiateAlgorithms := by intro n h; cases h
theorem getDigests : Statement .getDigests := by intro n h; cases h
theorem getCertificate : Statement .getCertificate := by intro n h; cases h
theorem challenge : Statement .challenge := by intro n h; cases h
theorem getMeasurements : Statement .getMeasurements := by intro n h; cases h
theorem logFlashCopy : Statement .logFlashCopy := by intro n h; cases h
theorem logOverrunClear (v : Word) : Statement (.logOverrunClear v) := by intro n h; cases h
theorem hbmStackReady (stack : Nat) : Statement (.hbmStackReady stack) := by intro n h; cases h
theorem sectionSelfTestPass (sec : Nat) : Statement (.sectionSelfTestPass sec) := by intro n h; cases h
theorem portTrained (port : NetPort) : Statement (.portTrained port) := by intro n h; cases h
theorem hostComplexRelease (verified : Bool) : Statement (.hostComplexRelease verified) := by intro n h; cases h
theorem wyundPortTrained (port : Nat) (peer : BitVec 14) : Statement (.wyundPortTrained port peer) := by intro n h; cases h
theorem wyundIdWrite (v : Dword) : Statement (.wyundIdWrite v) := by intro n h; cases h
theorem darnVerdict (part : DarnUnit) (pass1 : Bool) (pass2 : Bool) (pass3 : Bool) : Statement (.darnVerdict part pass1 pass2 pass3) := by intro n h; cases h
theorem partKeyGenerate (p : Nat) : Statement (.partKeyGenerate p) := by intro n h; cases h
theorem partKeyErase (p : Nat) : Statement (.partKeyErase p) := by intro n h; cases h
theorem partitionReset (p : Nat) : Statement (.partitionReset p) := by intro n h; cases h
theorem partitionResetComplete (p : Nat) : Statement (.partitionResetComplete p) := by intro n h; cases h
theorem vfEnable (vf : Nat) (v : Dword) : Statement (.vfEnable vf v) := by intro n h; cases h
theorem vfDisable (vf : Nat) : Statement (.vfDisable vf) := by intro n h; cases h
theorem functionLevelReset (vf : Nat) : Statement (.functionLevelReset vf) := by intro n h; cases h
theorem ldLinkDown (ld : Nat) : Statement (.ldLinkDown ld) := by intro n h; cases h
theorem vfResetComplete (vf : Nat) : Statement (.vfResetComplete vf) := by intro n h; cases h
theorem batchSlotActivate (slot : Nat) (v : Dword) : Statement (.batchSlotActivate slot v) := by intro n h; cases h
theorem batchSlotFree (slot : Nat) : Statement (.batchSlotFree slot) := by intro n h; cases h
theorem cxlMemAccess (ld : Nat) (window : Nat) (off : Nat) (req : MemReq) : Statement (.cxlMemAccess ld window off req) := by intro n h; cases h
theorem inboundPeerRequest (dev : BitVec 14) (rpart : Nat) (pa : Nat) (req : MemReq) : Statement (.inboundPeerRequest dev rpart pa req) := by intro n h; cases h
theorem flitCrcRetry (port : Nat) : Statement (.flitCrcRetry port) := by intro n h; cases h
theorem wyundPortFail (port : Nat) : Statement (.wyundPortFail port) := by intro n h; cases h
theorem rdmaInbound (qp : Nat) (pa : Nat) (req : MemReq) : Statement (.rdmaInbound qp pa req) := by intro n h; cases h
theorem queueFeedTail (qp : Nat) (tail : Word) : Statement (.queueFeedTail qp tail) := by intro n h; cases h
theorem activeMessage (qp : Nat) (bytes : List Byte) : Statement (.activeMessage qp bytes) := by intro n h; cases h
theorem handlerStart (core : Nat) : Statement (.handlerStart core) := by intro n h; cases h
theorem doorbell (src : DoorbellSource) (queue : Nat) (tail : Word) : Statement (.doorbell src queue tail) := by intro n h; cases h
theorem qcSliceWrite (v : Word) : Statement (.qcSliceWrite v) := by intro n h; cases h
theorem qcSliceExpiry : Statement .qcSliceExpiry := by intro n h; cases h
theorem queueReplace (queue : Nat) : Statement (.queueReplace queue) := by intro n h; cases h
theorem packetDispatch (queue : Nat) : Statement (.packetDispatch queue) := by intro n h; cases h
theorem marker (grid : Nat) : Statement (.marker grid) := by intro n h; cases h
theorem teamStart (grid : Nat) : Statement (.teamStart grid) := by intro n h; cases h
theorem taskStart (grid : Nat) : Statement (.taskStart grid) := by intro n h; cases h
theorem pendingTaskStart (core : Nat) : Statement (.pendingTaskStart core) := by intro n h; cases h
theorem gridEnd (grid : Nat) : Statement (.gridEnd grid) := by intro n h; cases h
theorem coreSchedWrite (core : Nat) (v : Dword) : Statement (.coreSchedWrite core v) := by intro n h; cases h
theorem flowBoost (core : Nat) (ctx : Nat) (flow : Nat) : Statement (.flowBoost core ctx flow) := by intro n h; cases h
theorem claimGrant (core : Nat) : Statement (.claimGrant core) := by intro n h; cases h
theorem taskCommit (core : Nat) (ctx : Nat) : Statement (.taskCommit core ctx) := by intro n h; cases h
theorem taskAbort (core : Nat) (ctx : Nat) : Statement (.taskAbort core ctx) := by intro n h; cases h
theorem budgetEvent (core : Nat) (ctx : Nat) : Statement (.budgetEvent core ctx) := by intro n h; cases h
theorem cycleBudgetExpiry (core : Nat) (ctx : Nat) : Statement (.cycleBudgetExpiry core ctx) := by intro n h; cases h
theorem intervalAgeClose (core : Nat) (ctx : Nat) : Statement (.intervalAgeClose core ctx) := by intro n h; cases h
theorem pageWalk (sec : Nat) (asid : Nat) (va : Nat) (write : Bool) : Statement (.pageWalk sec asid va write) := by intro n h; cases h
theorem enginePartLanded (core : Nat) (ctx : Nat) (queue : Nat) : Statement (.enginePartLanded core ctx queue) := by intro n h; cases h
theorem engineFault (core : Nat) (ctx : Nat) (queue : Nat) : Statement (.engineFault core ctx queue) := by intro n h; cases h
theorem collectiveEnd (core : Nat) (ctx : Nat) : Statement (.collectiveEnd core ctx) := by intro n h; cases h
theorem launchAppend (core : Nat) (ctx : Nat) : Statement (.launchAppend core ctx) := by intro n h; cases h
theorem matrixOpComplete (core : Nat) : Statement (.matrixOpComplete core) := by intro n h; cases h
theorem windowArrival (core : Nat) (window : Nat) (part : Nat) (v : Dword) : Statement (.windowArrival core window part v) := by intro n h; cases h
theorem uiRaise (core : Nat) (ctx : Nat) (part : Nat) (v : Word) : Statement (.uiRaise core ctx part v) := by intro n h; cases h
theorem uiDelivery (core : Nat) (ctx : Nat) : Statement (.uiDelivery core ctx) := by intro n h; cases h
theorem tlbInval (sec : Nat) (asid : Nat) (va : Nat) (size : Nat) : Statement (.tlbInval sec asid va size) := by intro n h; cases h
theorem invalDone (sec : Nat) : Statement (.invalDone sec) := by intro n h; cases h
theorem trapqHeadWrite (sec : Nat) (v : Word) : Statement (.trapqHeadWrite sec v) := by intro n h; cases h
theorem replay (core : Nat) (ctx : Nat) : Statement (.replay core ctx) := by intro n h; cases h
theorem skip (core : Nat) (ctx : Nat) : Statement (.skip core ctx) := by intro n h; cases h
theorem park (core : Nat) (ctx : Nat) : Statement (.park core ctx) := by intro n h; cases h
theorem restore (core : Nat) (ctx : Nat) : Statement (.restore core ctx) := by intro n h; cases h
theorem destroy (core : Nat) (ctx : Nat) : Statement (.destroy core ctx) := by intro n h; cases h
theorem faultGrid (core : Nat) (ctx : Nat) : Statement (.faultGrid core ctx) := by intro n h; cases h
theorem requeue (core : Nat) (ctx : Nat) : Statement (.requeue core ctx) := by intro n h; cases h
theorem step (core : Nat) (ctx : Nat) (flow : Nat) : Statement (.step core ctx flow) := by intro n h; cases h
theorem singleStepComplete (core : Nat) (ctx : Nat) (flow : Nat) : Statement (.singleStepComplete core ctx flow) := by intro n h; cases h
theorem stop (core : Nat) (ctx : Nat) : Statement (.stop core ctx) := by intro n h; cases h
theorem stopReached (core : Nat) (ctx : Nat) : Statement (.stopReached core ctx) := by intro n h; cases h
theorem flush (core : Nat) (ctx : Nat) : Statement (.flush core ctx) := by intro n h; cases h
theorem ctxCmdInvalid (core : Nat) (v : Dword) : Statement (.ctxCmdInvalid core v) := by intro n h; cases h
theorem codeWinWrite (core : Nat) (idx : Nat) (v : Dword) : Statement (.codeWinWrite core idx v) := by intro n h; cases h
theorem istoreWrite (core : Nat) (addr : Nat) (bytes : List Byte) : Statement (.istoreWrite core addr bytes) := by intro n h; cases h
theorem sramSplitWrite (core : Nat) (v : Dword) : Statement (.sramSplitWrite core v) := by intro n h; cases h
theorem sramSplitDone (core : Nat) : Statement (.sramSplitDone core) := by intro n h; cases h
theorem barWinCfgWrite (core : Nat) (window : Nat) (v : Dword) : Statement (.barWinCfgWrite core window v) := by intro n h; cases h
theorem trcSizeWrite (core : Nat) (v : Word) : Statement (.trcSizeWrite core v) := by intro n h; cases h
theorem uncorrectableError (core : Nat) (ctx : Nat) (loc : ErrLocation) : Statement (.uncorrectableError core ctx loc) := by intro n h; cases h
theorem rerunVerdict (core : Nat) (ctx : Nat) (agree : Reruns) : Statement (.rerunVerdict core ctx agree) := by intro n h; cases h
theorem correctedError (source : BitVec 16) (code : Word) : Statement (.correctedError source code) := by intro n h; cases h
theorem registerWrite (reg : DevReg) (v : Dword) : Statement (.registerWrite reg v) := by intro n h; cases h
theorem nop (f : OpF) : Statement (.nop f) := by intro n h; cases h; rfl
theorem sadd (f : OpF) : Statement (.sadd f) := by intro n h; cases h; rfl
theorem saddImm (f : OpF) : Statement (.saddImm f) := by intro n h; cases h; rfl
theorem saddExt (f : OpF) (x : ExtX) : Statement (.saddExt f x) := by intro n h; cases h; rfl
theorem ssub (f : OpF) : Statement (.ssub f) := by intro n h; cases h; rfl
theorem ssubImm (f : OpF) : Statement (.ssubImm f) := by intro n h; cases h; rfl
theorem ssubExt (f : OpF) (x : ExtX) : Statement (.ssubExt f x) := by intro n h; cases h; rfl
theorem smul (f : OpF) : Statement (.smul f) := by intro n h; cases h; rfl
theorem smulImm (f : OpF) : Statement (.smulImm f) := by intro n h; cases h; rfl
theorem smulExt (f : OpF) (x : ExtX) : Statement (.smulExt f x) := by intro n h; cases h; rfl
theorem smulh (f : OpF) : Statement (.smulh f) := by intro n h; cases h; rfl
theorem smulhExt (f : OpF) (x : ExtX) : Statement (.smulhExt f x) := by intro n h; cases h; rfl
theorem sand (f : OpF) : Statement (.sand f) := by intro n h; cases h; rfl
theorem sandImm (f : OpF) : Statement (.sandImm f) := by intro n h; cases h; rfl
theorem sandExt (f : OpF) (x : ExtX) : Statement (.sandExt f x) := by intro n h; cases h; rfl
theorem sor (f : OpF) : Statement (.sor f) := by intro n h; cases h; rfl
theorem sorImm (f : OpF) : Statement (.sorImm f) := by intro n h; cases h; rfl
theorem sorExt (f : OpF) (x : ExtX) : Statement (.sorExt f x) := by intro n h; cases h; rfl
theorem sxor (f : OpF) : Statement (.sxor f) := by intro n h; cases h; rfl
theorem sxorImm (f : OpF) : Statement (.sxorImm f) := by intro n h; cases h; rfl
theorem sxorExt (f : OpF) (x : ExtX) : Statement (.sxorExt f x) := by intro n h; cases h; rfl
theorem sshl (f : OpF) : Statement (.sshl f) := by intro n h; cases h; rfl
theorem sshlImm (f : OpF) : Statement (.sshlImm f) := by intro n h; cases h; rfl
theorem sshlExt (f : OpF) (x : ExtX) : Statement (.sshlExt f x) := by intro n h; cases h; rfl
theorem sshr (f : OpF) : Statement (.sshr f) := by intro n h; cases h; rfl
theorem sshrImm (f : OpF) : Statement (.sshrImm f) := by intro n h; cases h; rfl
theorem sshrExt (f : OpF) (x : ExtX) : Statement (.sshrExt f x) := by intro n h; cases h; rfl
theorem ssra (f : OpF) : Statement (.ssra f) := by intro n h; cases h; rfl
theorem ssraImm (f : OpF) : Statement (.ssraImm f) := by intro n h; cases h; rfl
theorem ssraExt (f : OpF) (x : ExtX) : Statement (.ssraExt f x) := by intro n h; cases h; rfl
theorem smin (f : OpF) : Statement (.smin f) := by intro n h; cases h; rfl
theorem sminImm (f : OpF) : Statement (.sminImm f) := by intro n h; cases h; rfl
theorem sminExt (f : OpF) (x : ExtX) : Statement (.sminExt f x) := by intro n h; cases h; rfl
theorem smax (f : OpF) : Statement (.smax f) := by intro n h; cases h; rfl
theorem smaxImm (f : OpF) : Statement (.smaxImm f) := by intro n h; cases h; rfl
theorem smaxExt (f : OpF) (x : ExtX) : Statement (.smaxExt f x) := by intro n h; cases h; rfl
theorem scmp (f : OpF) : Statement (.scmp f) := by intro n h; cases h; rfl
theorem scmpImm (f : OpF) : Statement (.scmpImm f) := by intro n h; cases h; rfl
theorem scmpExt (f : OpF) (x : ExtX) : Statement (.scmpExt f x) := by intro n h; cases h; rfl
theorem ssel (f : OpF) : Statement (.ssel f) := by intro n h; cases h; rfl
theorem sselExt (f : OpF) (x : ExtX) : Statement (.sselExt f x) := by intro n h; cases h; rfl
theorem smov (f : OpF) : Statement (.smov f) := by intro n h; cases h; rfl
theorem smovExt (f : OpF) (x : ExtX) : Statement (.smovExt f x) := by intro n h; cases h; rfl
theorem sli (f : OpF) (imm : Word) : Statement (.sli f imm) := by intro n h; cases h; rfl
theorem slih (f : OpF) (imm : Word) : Statement (.slih f imm) := by intro n h; cases h; rfl
theorem sadda (f : OpF) : Statement (.sadda f) := by intro n h; cases h; rfl
theorem saddaImm (f : OpF) : Statement (.saddaImm f) := by intro n h; cases h; rfl
theorem saddaExt (f : OpF) (x : ExtX) : Statement (.saddaExt f x) := by intro n h; cases h; rfl
theorem sgets (f : OpF) : Statement (.sgets f) := by intro n h; cases h; rfl
theorem ssets (f : OpF) : Statement (.ssets f) := by intro n h; cases h; rfl
theorem bra (f : OpF) (imm : Word) : Statement (.bra f imm) := by intro n h; cases h; rfl
theorem brx (f : OpF) : Statement (.brx f) := by intro n h; cases h; rfl
theorem call (f : OpF) (imm : Word) : Statement (.call f imm) := by intro n h; cases h; rfl
theorem callx (f : OpF) : Statement (.callx f) := by intro n h; cases h; rfl
theorem ret (f : OpF) : Statement (.ret f) := by intro n h; cases h; rfl
theorem lpadC (f : OpF) : Statement (.lpadC f) := by intro n h; cases h; rfl
theorem lpadJ (f : OpF) : Statement (.lpadJ f) := by intro n h; cases h; rfl
theorem seam (f : OpF) : Statement (.seam f) := by intro n h; cases h; rfl
theorem loop (f : OpF) (imm : Word) : Statement (.loop f imm) := by intro n h; cases h; rfl
theorem lexit (f : OpF) : Statement (.lexit f) := by intro n h; cases h; rfl
theorem collapse (f : OpF) : Statement (.collapse f) := by intro n h; cases h; rfl
theorem collapseN (f : OpF) : Statement (.collapseN f) := by intro n h; cases h; rfl
theorem expand (f : OpF) : Statement (.expand f) := by intro n h; cases h; rfl
theorem yield (f : OpF) : Statement (.yield f) := by intro n h; cases h; rfl
theorem exit (f : OpF) : Statement (.exit f) := by intro n h; cases h; rfl
theorem tack (f : OpF) : Statement (.tack f) := by intro n h; cases h; rfl
theorem ptload (f : OpF) : Statement (.ptload f) := by intro n h; cases h; rfl
theorem patternReference (i : BitVec 9) : Statement (.patternReference i) := by intro n h; cases h
theorem add (f : OpF) : Statement (.add f) := by intro n h; cases h; rfl
theorem addImm (f : OpF) : Statement (.addImm f) := by intro n h; cases h; rfl
theorem addExt (f : OpF) (x : ExtX) : Statement (.addExt f x) := by intro n h; cases h; rfl
theorem addPort (f : OpF) : Statement (.addPort f) := by intro n h; cases h; rfl
theorem sub (f : OpF) : Statement (.sub f) := by intro n h; cases h; rfl
theorem subImm (f : OpF) : Statement (.subImm f) := by intro n h; cases h; rfl
theorem subExt (f : OpF) (x : ExtX) : Statement (.subExt f x) := by intro n h; cases h; rfl
theorem subPort (f : OpF) : Statement (.subPort f) := by intro n h; cases h; rfl
theorem mul (f : OpF) : Statement (.mul f) := by intro n h; cases h; rfl
theorem mulImm (f : OpF) : Statement (.mulImm f) := by intro n h; cases h; rfl
theorem mulExt (f : OpF) (x : ExtX) : Statement (.mulExt f x) := by intro n h; cases h; rfl
theorem mulPort (f : OpF) : Statement (.mulPort f) := by intro n h; cases h; rfl
theorem mulh (f : OpF) : Statement (.mulh f) := by intro n h; cases h; rfl
theorem mulhExt (f : OpF) (x : ExtX) : Statement (.mulhExt f x) := by intro n h; cases h; rfl
theorem mulhPort (f : OpF) : Statement (.mulhPort f) := by intro n h; cases h; rfl
theorem mad (f : OpF) : Statement (.mad f) := by intro n h; cases h; rfl
theorem madExt (f : OpF) (x : ExtX) : Statement (.madExt f x) := by intro n h; cases h; rfl
theorem madPort (f : OpF) : Statement (.madPort f) := by intro n h; cases h; rfl
theorem and (f : OpF) : Statement (.and f) := by intro n h; cases h; rfl
theorem andImm (f : OpF) : Statement (.andImm f) := by intro n h; cases h; rfl
theorem andExt (f : OpF) (x : ExtX) : Statement (.andExt f x) := by intro n h; cases h; rfl
theorem andPort (f : OpF) : Statement (.andPort f) := by intro n h; cases h; rfl
theorem or (f : OpF) : Statement (.or f) := by intro n h; cases h; rfl
theorem orImm (f : OpF) : Statement (.orImm f) := by intro n h; cases h; rfl
theorem orExt (f : OpF) (x : ExtX) : Statement (.orExt f x) := by intro n h; cases h; rfl
theorem orPort (f : OpF) : Statement (.orPort f) := by intro n h; cases h; rfl
theorem xor (f : OpF) : Statement (.xor f) := by intro n h; cases h; rfl
theorem xorImm (f : OpF) : Statement (.xorImm f) := by intro n h; cases h; rfl
theorem xorExt (f : OpF) (x : ExtX) : Statement (.xorExt f x) := by intro n h; cases h; rfl
theorem xorPort (f : OpF) : Statement (.xorPort f) := by intro n h; cases h; rfl
theorem not (f : OpF) : Statement (.not f) := by intro n h; cases h; rfl
theorem notExt (f : OpF) (x : ExtX) : Statement (.notExt f x) := by intro n h; cases h; rfl
theorem notPort (f : OpF) : Statement (.notPort f) := by intro n h; cases h; rfl
theorem abs (f : OpF) : Statement (.abs f) := by intro n h; cases h; rfl
theorem absExt (f : OpF) (x : ExtX) : Statement (.absExt f x) := by intro n h; cases h; rfl
theorem absPort (f : OpF) : Statement (.absPort f) := by intro n h; cases h; rfl
theorem neg (f : OpF) : Statement (.neg f) := by intro n h; cases h; rfl
theorem negExt (f : OpF) (x : ExtX) : Statement (.negExt f x) := by intro n h; cases h; rfl
theorem negPort (f : OpF) : Statement (.negPort f) := by intro n h; cases h; rfl
theorem clz (f : OpF) : Statement (.clz f) := by intro n h; cases h; rfl
theorem clzExt (f : OpF) (x : ExtX) : Statement (.clzExt f x) := by intro n h; cases h; rfl
theorem clzPort (f : OpF) : Statement (.clzPort f) := by intro n h; cases h; rfl
theorem popc (f : OpF) : Statement (.popc f) := by intro n h; cases h; rfl
theorem popcExt (f : OpF) (x : ExtX) : Statement (.popcExt f x) := by intro n h; cases h; rfl
theorem popcPort (f : OpF) : Statement (.popcPort f) := by intro n h; cases h; rfl
theorem brev (f : OpF) : Statement (.brev f) := by intro n h; cases h; rfl
theorem brevExt (f : OpF) (x : ExtX) : Statement (.brevExt f x) := by intro n h; cases h; rfl
theorem brevPort (f : OpF) : Statement (.brevPort f) := by intro n h; cases h; rfl
theorem fadd (f : OpF) : Statement (.fadd f) := by intro n h; cases h; rfl
theorem faddExt (f : OpF) (x : ExtX) : Statement (.faddExt f x) := by intro n h; cases h; rfl
theorem faddPort (f : OpF) : Statement (.faddPort f) := by intro n h; cases h; rfl
theorem fsub (f : OpF) : Statement (.fsub f) := by intro n h; cases h; rfl
theorem fsubExt (f : OpF) (x : ExtX) : Statement (.fsubExt f x) := by intro n h; cases h; rfl
theorem fsubPort (f : OpF) : Statement (.fsubPort f) := by intro n h; cases h; rfl
theorem fmul (f : OpF) : Statement (.fmul f) := by intro n h; cases h; rfl
theorem fmulExt (f : OpF) (x : ExtX) : Statement (.fmulExt f x) := by intro n h; cases h; rfl
theorem fmulPort (f : OpF) : Statement (.fmulPort f) := by intro n h; cases h; rfl
theorem fma (f : OpF) : Statement (.fma f) := by intro n h; cases h; rfl
theorem fmaExt (f : OpF) (x : ExtX) : Statement (.fmaExt f x) := by intro n h; cases h; rfl
theorem fmaPort (f : OpF) : Statement (.fmaPort f) := by intro n h; cases h; rfl
theorem fmin (f : OpF) : Statement (.fmin f) := by intro n h; cases h; rfl
theorem fminExt (f : OpF) (x : ExtX) : Statement (.fminExt f x) := by intro n h; cases h; rfl
theorem fminPort (f : OpF) : Statement (.fminPort f) := by intro n h; cases h; rfl
theorem fmax (f : OpF) : Statement (.fmax f) := by intro n h; cases h; rfl
theorem fmaxExt (f : OpF) (x : ExtX) : Statement (.fmaxExt f x) := by intro n h; cases h; rfl
theorem fmaxPort (f : OpF) : Statement (.fmaxPort f) := by intro n h; cases h; rfl
theorem fcmp (f : OpF) : Statement (.fcmp f) := by intro n h; cases h; rfl
theorem fcmpExt (f : OpF) (x : ExtX) : Statement (.fcmpExt f x) := by intro n h; cases h; rfl
theorem fcmpPort (f : OpF) : Statement (.fcmpPort f) := by intro n h; cases h; rfl
theorem cvt (f : OpF) (x : ExtX) : Statement (.cvt f x) := by intro n h; cases h; rfl
theorem frnd (f : OpF) : Statement (.frnd f) := by intro n h; cases h; rfl
theorem frndExt (f : OpF) (x : ExtX) : Statement (.frndExt f x) := by intro n h; cases h; rfl
theorem frndPort (f : OpF) : Statement (.frndPort f) := by intro n h; cases h; rfl
theorem rcp (f : OpF) : Statement (.rcp f) := by intro n h; cases h; rfl
theorem rcpExt (f : OpF) (x : ExtX) : Statement (.rcpExt f x) := by intro n h; cases h; rfl
theorem rcpPort (f : OpF) : Statement (.rcpPort f) := by intro n h; cases h; rfl
theorem rsq (f : OpF) : Statement (.rsq f) := by intro n h; cases h; rfl
theorem rsqExt (f : OpF) (x : ExtX) : Statement (.rsqExt f x) := by intro n h; cases h; rfl
theorem rsqPort (f : OpF) : Statement (.rsqPort f) := by intro n h; cases h; rfl
theorem sqrt (f : OpF) : Statement (.sqrt f) := by intro n h; cases h; rfl
theorem sqrtExt (f : OpF) (x : ExtX) : Statement (.sqrtExt f x) := by intro n h; cases h; rfl
theorem sqrtPort (f : OpF) : Statement (.sqrtPort f) := by intro n h; cases h; rfl
theorem exp2 (f : OpF) : Statement (.exp2 f) := by intro n h; cases h; rfl
theorem exp2Ext (f : OpF) (x : ExtX) : Statement (.exp2Ext f x) := by intro n h; cases h; rfl
theorem exp2Port (f : OpF) : Statement (.exp2Port f) := by intro n h; cases h; rfl
theorem log2 (f : OpF) : Statement (.log2 f) := by intro n h; cases h; rfl
theorem log2Ext (f : OpF) (x : ExtX) : Statement (.log2Ext f x) := by intro n h; cases h; rfl
theorem log2Port (f : OpF) : Statement (.log2Port f) := by intro n h; cases h; rfl
theorem sin (f : OpF) : Statement (.sin f) := by intro n h; cases h; rfl
theorem sinExt (f : OpF) (x : ExtX) : Statement (.sinExt f x) := by intro n h; cases h; rfl
theorem sinPort (f : OpF) : Statement (.sinPort f) := by intro n h; cases h; rfl
theorem cos (f : OpF) : Statement (.cos f) := by intro n h; cases h; rfl
theorem cosExt (f : OpF) (x : ExtX) : Statement (.cosExt f x) := by intro n h; cases h; rfl
theorem cosPort (f : OpF) : Statement (.cosPort f) := by intro n h; cases h; rfl
theorem tanh (f : OpF) : Statement (.tanh f) := by intro n h; cases h; rfl
theorem tanhExt (f : OpF) (x : ExtX) : Statement (.tanhExt f x) := by intro n h; cases h; rfl
theorem tanhPort (f : OpF) : Statement (.tanhPort f) := by intro n h; cases h; rfl
theorem shl (f : OpF) : Statement (.shl f) := by intro n h; cases h; rfl
theorem shlImm (f : OpF) : Statement (.shlImm f) := by intro n h; cases h; rfl
theorem shlExt (f : OpF) (x : ExtX) : Statement (.shlExt f x) := by intro n h; cases h; rfl
theorem shlPort (f : OpF) : Statement (.shlPort f) := by intro n h; cases h; rfl
theorem shr (f : OpF) : Statement (.shr f) := by intro n h; cases h; rfl
theorem shrImm (f : OpF) : Statement (.shrImm f) := by intro n h; cases h; rfl
theorem shrExt (f : OpF) (x : ExtX) : Statement (.shrExt f x) := by intro n h; cases h; rfl
theorem shrPort (f : OpF) : Statement (.shrPort f) := by intro n h; cases h; rfl
theorem sra (f : OpF) : Statement (.sra f) := by intro n h; cases h; rfl
theorem sraImm (f : OpF) : Statement (.sraImm f) := by intro n h; cases h; rfl
theorem sraExt (f : OpF) (x : ExtX) : Statement (.sraExt f x) := by intro n h; cases h; rfl
theorem sraPort (f : OpF) : Statement (.sraPort f) := by intro n h; cases h; rfl
theorem rot (f : OpF) : Statement (.rot f) := by intro n h; cases h; rfl
theorem rotImm (f : OpF) : Statement (.rotImm f) := by intro n h; cases h; rfl
theorem rotExt (f : OpF) (x : ExtX) : Statement (.rotExt f x) := by intro n h; cases h; rfl
theorem rotPort (f : OpF) : Statement (.rotPort f) := by intro n h; cases h; rfl
theorem min (f : OpF) : Statement (.min f) := by intro n h; cases h; rfl
theorem minImm (f : OpF) : Statement (.minImm f) := by intro n h; cases h; rfl
theorem minExt (f : OpF) (x : ExtX) : Statement (.minExt f x) := by intro n h; cases h; rfl
theorem minPort (f : OpF) : Statement (.minPort f) := by intro n h; cases h; rfl
theorem max (f : OpF) : Statement (.max f) := by intro n h; cases h; rfl
theorem maxImm (f : OpF) : Statement (.maxImm f) := by intro n h; cases h; rfl
theorem maxExt (f : OpF) (x : ExtX) : Statement (.maxExt f x) := by intro n h; cases h; rfl
theorem maxPort (f : OpF) : Statement (.maxPort f) := by intro n h; cases h; rfl
theorem bfe (f : OpF) : Statement (.bfe f) := by intro n h; cases h; rfl
theorem bfeExt (f : OpF) (x : ExtX) : Statement (.bfeExt f x) := by intro n h; cases h; rfl
theorem bfePort (f : OpF) : Statement (.bfePort f) := by intro n h; cases h; rfl
theorem bfi (f : OpF) : Statement (.bfi f) := by intro n h; cases h; rfl
theorem bfiExt (f : OpF) (x : ExtX) : Statement (.bfiExt f x) := by intro n h; cases h; rfl
theorem bfiPort (f : OpF) : Statement (.bfiPort f) := by intro n h; cases h; rfl
theorem cmp (f : OpF) : Statement (.cmp f) := by intro n h; cases h; rfl
theorem cmpImm (f : OpF) : Statement (.cmpImm f) := by intro n h; cases h; rfl
theorem cmpExt (f : OpF) (x : ExtX) : Statement (.cmpExt f x) := by intro n h; cases h; rfl
theorem cmpPort (f : OpF) : Statement (.cmpPort f) := by intro n h; cases h; rfl
theorem sel (f : OpF) : Statement (.sel f) := by intro n h; cases h; rfl
theorem selExt (f : OpF) (x : ExtX) : Statement (.selExt f x) := by intro n h; cases h; rfl
theorem selPort (f : OpF) : Statement (.selPort f) := by intro n h; cases h; rfl
theorem mov (f : OpF) : Statement (.mov f) := by intro n h; cases h; rfl
theorem movExt (f : OpF) (x : ExtX) : Statement (.movExt f x) := by intro n h; cases h; rfl
theorem movPort (f : OpF) : Statement (.movPort f) := by intro n h; cases h; rfl
theorem movi (f : OpF) (imm : Word) : Statement (.movi f imm) := by intro n h; cases h; rfl
theorem dp4 (f : OpF) : Statement (.dp4 f) := by intro n h; cases h; rfl
theorem dp4Ext (f : OpF) (x : ExtX) : Statement (.dp4Ext f x) := by intro n h; cases h; rfl
theorem dp4Port (f : OpF) : Statement (.dp4Port f) := by intro n h; cases h; rfl
theorem perm (f : OpF) : Statement (.perm f) := by intro n h; cases h; rfl
theorem permExt (f : OpF) (x : ExtX) : Statement (.permExt f x) := by intro n h; cases h; rfl
theorem permPort (f : OpF) : Statement (.permPort f) := by intro n h; cases h; rfl
theorem shfl (f : OpF) : Statement (.shfl f) := by intro n h; cases h; rfl
theorem shflImm (f : OpF) : Statement (.shflImm f) := by intro n h; cases h; rfl
theorem shflExt (f : OpF) (x : ExtX) : Statement (.shflExt f x) := by intro n h; cases h; rfl
theorem shflPort (f : OpF) : Statement (.shflPort f) := by intro n h; cases h; rfl
theorem vote (f : OpF) : Statement (.vote f) := by intro n h; cases h; rfl
theorem voteExt (f : OpF) (x : ExtX) : Statement (.voteExt f x) := by intro n h; cases h; rfl
theorem votePort (f : OpF) : Statement (.votePort f) := by intro n h; cases h; rfl
theorem scan (f : OpF) : Statement (.scan f) := by intro n h; cases h; rfl
theorem scanExt (f : OpF) (x : ExtX) : Statement (.scanExt f x) := by intro n h; cases h; rfl
theorem scanPort (f : OpF) : Statement (.scanPort f) := by intro n h; cases h; rfl
theorem red (f : OpF) : Statement (.red f) := by intro n h; cases h; rfl
theorem redExt (f : OpF) (x : ExtX) : Statement (.redExt f x) := by intro n h; cases h; rfl
theorem redPort (f : OpF) : Statement (.redPort f) := by intro n h; cases h; rfl
theorem bcast (f : OpF) : Statement (.bcast f) := by intro n h; cases h; rfl
theorem bcastImm (f : OpF) : Statement (.bcastImm f) := by intro n h; cases h; rfl
theorem bcastExt (f : OpF) (x : ExtX) : Statement (.bcastExt f x) := by intro n h; cases h; rfl
theorem bcastPort (f : OpF) : Statement (.bcastPort f) := by intro n h; cases h; rfl
theorem sample (f : OpF) : Statement (.sample f) := by intro n h; cases h; rfl
theorem sampleExt (f : OpF) (x : ExtX) : Statement (.sampleExt f x) := by intro n h; cases h; rfl
theorem xmov (f : OpF) : Statement (.xmov f) := by intro n h; cases h; rfl
theorem ld (f : OpF) : Statement (.ld f) := by intro n h; cases h; rfl
theorem ldExt (f : OpF) (m : ExtM) : Statement (.ldExt f m) := by intro n h; cases h; rfl
theorem st (f : OpF) : Statement (.st f) := by intro n h; cases h; rfl
theorem stExt (f : OpF) (m : ExtM) : Statement (.stExt f m) := by intro n h; cases h; rfl
theorem atom (f : OpF) : Statement (.atom f) := by intro n h; cases h; rfl
theorem atomExt (f : OpF) (m : ExtM) : Statement (.atomExt f m) := by intro n h; cases h; rfl
theorem redm (f : OpF) : Statement (.redm f) := by intro n h; cases h; rfl
theorem redmExt (f : OpF) (m : ExtM) : Statement (.redmExt f m) := by intro n h; cases h; rfl
theorem pexport (f : OpF) : Statement (.pexport f) := by intro n h; cases h; rfl
theorem binit (f : OpF) : Statement (.binit f) := by intro n h; cases h; rfl
theorem binitExt (f : OpF) (m : ExtM) : Statement (.binitExt f m) := by intro n h; cases h; rfl
theorem barr (f : OpF) : Statement (.barr f) := by intro n h; cases h; rfl
theorem barrExt (f : OpF) (m : ExtM) : Statement (.barrExt f m) := by intro n h; cases h; rfl
theorem barrx (f : OpF) : Statement (.barrx f) := by intro n h; cases h; rfl
theorem barrxExt (f : OpF) (m : ExtM) : Statement (.barrxExt f m) := by intro n h; cases h; rfl
theorem bwait (f : OpF) : Statement (.bwait f) := by intro n h; cases h; rfl
theorem bwaitExt (f : OpF) (m : ExtM) : Statement (.bwaitExt f m) := by intro n h; cases h; rfl
theorem bwaitDone (core : Nat) (ctx : Nat) (flow : Nat) : Statement (.bwaitDone core ctx flow) := by intro n h; cases h
theorem btest (f : OpF) : Statement (.btest f) := by intro n h; cases h; rfl
theorem fence (f : OpF) : Statement (.fence f) := by intro n h; cases h; rfl
theorem fenceExt (f : OpF) (m : ExtM) : Statement (.fenceExt f m) := by intro n h; cases h; rfl
theorem acq (f : OpF) : Statement (.acq f) := by intro n h; cases h; rfl
theorem acqExt (f : OpF) (m : ExtM) : Statement (.acqExt f m) := by intro n h; cases h; rfl
theorem rel (f : OpF) : Statement (.rel f) := by intro n h; cases h; rfl
theorem relExt (f : OpF) (m : ExtM) : Statement (.relExt f m) := by intro n h; cases h; rfl
theorem drain (f : OpF) : Statement (.drain f) := by intro n h; cases h; rfl
theorem drainExt (f : OpF) (m : ExtM) : Statement (.drainExt f m) := by intro n h; cases h; rfl
theorem pfence (f : OpF) : Statement (.pfence f) := by intro n h; cases h; rfl
theorem pfenceExt (f : OpF) (m : ExtM) : Statement (.pfenceExt f m) := by intro n h; cases h; rfl
theorem tbar (f : OpF) : Statement (.tbar f) := by intro n h; cases h; rfl
theorem tbarExt (f : OpF) (m : ExtM) : Statement (.tbarExt f m) := by intro n h; cases h; rfl
theorem pbar (f : OpF) : Statement (.pbar f) := by intro n h; cases h; rfl
theorem pbarExt (f : OpF) (m : ExtM) : Statement (.pbarExt f m) := by intro n h; cases h; rfl
theorem barrierComplete (core : Nat) (ctx : Nat) (patch : Bool) : Statement (.barrierComplete core ctx patch) := by intro n h; cases h
theorem mma (f : OpF) : Statement (.mma f) := by intro n h; cases h; rfl
theorem mmaExt (f : OpF) (x : ExtX) : Statement (.mmaExt f x) := by intro n h; cases h; rfl
theorem mmaq (f : OpF) (x : ExtX) : Statement (.mmaq f x) := by intro n h; cases h; rfl
theorem mzero (f : OpF) : Statement (.mzero f) := by intro n h; cases h; rfl
theorem mld (f : OpF) : Statement (.mld f) := by intro n h; cases h; rfl
theorem mldExt (f : OpF) (m : ExtM) : Statement (.mldExt f m) := by intro n h; cases h; rfl
theorem mst (f : OpF) : Statement (.mst f) := by intro n h; cases h; rfl
theorem mstExt (f : OpF) (m : ExtM) : Statement (.mstExt f m) := by intro n h; cases h; rfl
theorem mplane (f : OpF) : Statement (.mplane f) := by intro n h; cases h; rfl
theorem mplaneExt (f : OpF) (x : ExtX) : Statement (.mplaneExt f x) := by intro n h; cases h; rfl
theorem munplane (f : OpF) : Statement (.munplane f) := by intro n h; cases h; rfl
theorem munplaneExt (f : OpF) (x : ExtX) : Statement (.munplaneExt f x) := by intro n h; cases h; rfl
theorem mtr (f : OpF) : Statement (.mtr f) := by intro n h; cases h; rfl
theorem madd (f : OpF) : Statement (.madd f) := by intro n h; cases h; rfl
theorem maddExt (f : OpF) (x : ExtX) : Statement (.maddExt f x) := by intro n h; cases h; rfl
theorem mscale (f : OpF) : Statement (.mscale f) := by intro n h; cases h; rfl
theorem mscaleExt (f : OpF) (x : ExtX) : Statement (.mscaleExt f x) := by intro n h; cases h; rfl
theorem scl (f : OpF) : Statement (.scl f) := by intro n h; cases h; rfl
theorem sclExt (f : OpF) (m : ExtM) : Statement (.sclExt f m) := by intro n h; cases h; rfl
theorem mbatch (f : OpF) : Statement (.mbatch f) := by intro n h; cases h; rfl
theorem mwait (f : OpF) : Statement (.mwait f) := by intro n h; cases h; rfl
theorem mwaitImm (f : OpF) : Statement (.mwaitImm f) := by intro n h; cases h; rfl
theorem cpy (f : OpF) : Statement (.cpy f) := by intro n h; cases h; rfl
theorem cpyPlane (f : OpF) (x : ExtX) : Statement (.cpyPlane f x) := by intro n h; cases h; rfl
theorem cpyl (f : OpF) : Statement (.cpyl f) := by intro n h; cases h; rfl
theorem gat (f : OpF) : Statement (.gat f) := by intro n h; cases h; rfl
theorem gatPlane (f : OpF) (x : ExtX) : Statement (.gatPlane f x) := by intro n h; cases h; rfl
theorem sct (f : OpF) : Statement (.sct f) := by intro n h; cases h; rfl
theorem gpl (f : OpF) : Statement (.gpl f) := by intro n h; cases h; rfl
theorem coll (f : OpF) (x : ExtX) : Statement (.coll f x) := by intro n h; cases h; rfl
theorem qfence (f : OpF) : Statement (.qfence f) := by intro n h; cases h; rfl
theorem qfenceImm (f : OpF) : Statement (.qfenceImm f) := by intro n h; cases h; rfl
theorem qstat (f : OpF) : Statement (.qstat f) := by intro n h; cases h; rfl
theorem send (f : OpF) : Statement (.send f) := by intro n h; cases h; rfl
theorem launch (f : OpF) : Statement (.launch f) := by intro n h; cases h; rfl
theorem tend (f : OpF) : Statement (.tend f) := by intro n h; cases h; rfl
theorem tabort (f : OpF) : Statement (.tabort f) := by intro n h; cases h; rfl
theorem tabortExt (f : OpF) (x : ExtX) : Statement (.tabortExt f x) := by intro n h; cases h; rfl
theorem vgrow (f : OpF) : Statement (.vgrow f) := by intro n h; cases h; rfl
theorem vgrowImm (f : OpF) : Statement (.vgrowImm f) := by intro n h; cases h; rfl
theorem sgrow (f : OpF) : Statement (.sgrow f) := by intro n h; cases h; rfl
theorem sgrowImm (f : OpF) : Statement (.sgrowImm f) := by intro n h; cases h; rfl
theorem svc (f : OpF) (imm : Word) : Statement (.svc f imm) := by intro n h; cases h; rfl
theorem trap (f : OpF) : Statement (.trap f) := by intro n h; cases h; rfl
theorem trapExt (f : OpF) (imm : Word) : Statement (.trapExt f imm) := by intro n h; cases h; rfl
theorem brk (f : OpF) : Statement (.brk f) := by intro n h; cases h; rfl
theorem uiret (f : OpF) : Statement (.uiret f) := by intro n h; cases h; rfl
theorem uimask (f : OpF) : Statement (.uimask f) := by intro n h; cases h; rfl
theorem uimaskImm (f : OpF) : Statement (.uimaskImm f) := by intro n h; cases h; rfl
theorem trc (f : OpF) : Statement (.trc f) := by intro n h; cases h; rfl
theorem trcImm (f : OpF) : Statement (.trcImm f) := by intro n h; cases h; rfl
theorem trcExt (f : OpF) (imm : Word) : Statement (.trcExt f imm) := by intro n h; cases h; rfl
theorem vliwBundle (b : Bundle) : Statement (.vliwBundle b) := by intro n h; cases h
theorem powerLoss : Statement .powerLoss := by intro n h; cases h
theorem loadValueReturned (core : Nat) (ctx : Nat) : Statement (.loadValueReturned core ctx) := by intro n h; cases h
theorem grantNak (core : Nat) (ctx : Nat) (pa : Dword) : Statement (.grantNak core ctx pa) := by intro n h; cases h
theorem serviceEntryDone (vf : Nat) (slot : Nat) (status : Word) (args : List Byte) : Statement (.serviceEntryDone vf slot status args) := by intro n h; cases h
theorem firmwareInterfaceCommand (sec : Nat) (tag : Word) (cmd : FwCommand) : Statement (.firmwareInterfaceCommand sec tag cmd) := by intro n h; cases h
theorem queueCtlReady : Statement .queueCtlReady := by intro n h; cases h
theorem ldBinding (ld : Nat) (port : Nat) (host : Nat) : Statement (.ldBinding ld port host) := by intro n h; cases h

end Sys2Proof.Laws.Encoding
end

