-- ==== Sys2Proof/Tests/Slice0.lean ====
section
/-! SUPPORT. Slice0.lean: the model's own tests: words written out from the encoding tables, refused ill-formed terms,
single steps on small states with results worked out from the rules, and for each statement with hypotheses a state
that meets them. -/

set_option Elab.async false

namespace Sys2Proof.Tests

open Sys2Proof Sys2Proof.Machine Sys2Proof.Claims

/-! ### Decoding -/

/-- Words as the instruction store holds them, lowest byte first (00 R4; 11 R220). -/
def bytesOf (ws : List Nat) : List Byte :=
  ws.flatMap (fun w => [w, w / 256, w / 65536, w / 16777216].map (BitVec.ofNat 8))

/-- Each list of words decodes to its instruction, with no byte left. -/
noncomputable def reads (ws : List (List Nat × Instr)) : Bool :=
  ws.all (fun p => decide (decodeInstr (bytesOf p.1) = some (p.2, [])))

/-- Each list of words is refused by the SIMT decoder. -/
noncomputable def refuses (ws : List (List Nat)) : Bool := ws.all (fun p => decide (decodeInstr (bytesOf p) = none))

/-- Words of scalar rows laid out from 11 R224 to R229 and 13 R257 to R263, every field distinct. -/
theorem test_decode_scalar_1 :
    reads [
      ([0x80000000], .nop ⟨true, 0, 0, 0, 0, false⟩),
      ([0x811D15D4], .sadd ⟨true, 7, 17, 23, 2, true⟩),
      ([0x81218455], .saddImm ⟨true, 8, 24, 17, 2, true⟩),
      ([0x8125FB56, 0x058A7340], .saddExt ⟨true, 9, 31, 45, 2, true⟩ ⟨0, 5, 8, 2, true, false, 3, true, 13, 0⟩),
      ([0x822A6E14], .ssub ⟨true, 10, 38, 56, 2, true⟩),
      ([0x822ED815], .ssubImm ⟨true, 11, 45, 32, 2, true⟩),
      ([0x82334416, 0x058A7400], .ssubExt ⟨true, 12, 52, 16, 2, true⟩ ⟨0, 5, 8, 2, true, false, 3, true, 16, 0⟩),
      ([0x8337B6D4], .smul ⟨true, 13, 59, 27, 2, true⟩),
      ([0x83386BD5], .smulImm ⟨true, 14, 6, 47, 2, true⟩),
      ([0x833CDC56, 0x058A74C0], .smulExt ⟨true, 15, 13, 49, 2, true⟩ ⟨0, 5, 8, 2, true, false, 3, true, 19, 0⟩),
      ([0x84414F14], .smulh ⟨true, 16, 20, 60, 2, true⟩),
      ([0x8445B256, 0x058A7540], .smulhExt ⟨true, 17, 27, 9, 2, true⟩ ⟨0, 5, 8, 2, true, false, 3, true, 21, 0⟩),
      ([0x854A2514], .sand ⟨true, 18, 34, 20, 2, true⟩),
      ([0x854E9315], .sandImm ⟨true, 19, 41, 12, 2, true⟩),
      ([0x85530A96, 0x058A7600], .sandExt ⟨true, 20, 48, 42, 2, true⟩ ⟨0, 5, 8, 2, true, false, 3, true, 24, 0⟩),
      ([0x86577D54], .sor ⟨true, 21, 55, 53, 2, true⟩),
      ([0x865BE6D5], .sorImm ⟨true, 22, 62, 27, 2, true⟩),
      ([0x865C9356, 0x058A76C0], .sorExt ⟨true, 23, 9, 13, 2, true⟩ ⟨0, 5, 8, 2, true, false, 3, true, 27, 0⟩),
      ([0x87610614], .sxor ⟨true, 24, 16, 24, 2, true⟩),
      ([0x87657A95], .sxorImm ⟨true, 25, 23, 42, 2, true⟩),
      ([0x8769EB96, 0x058A7780], .sxorExt ⟨true, 26, 30, 46, 2, true⟩ ⟨0, 5, 8, 2, true, false, 3, true, 30, 0⟩),
      ([0x886E5E54], .sshl ⟨true, 27, 37, 57, 2, true⟩),
      ([0x8872CE55], .sshlImm ⟨true, 28, 44, 57, 2, true⟩),
      ([0x88773456, 0x058A7840], .sshlExt ⟨true, 29, 51, 17, 2, true⟩ ⟨0, 5, 8, 2, true, false, 3, true, 33, 0⟩)] = true := by decide

/-- Words of scalar rows laid out from 11 R224 to R229 and 13 R257 to R263, every field distinct. -/
theorem test_decode_scalar_2 :
    reads [
      ([0x897BA714], .sshr ⟨true, 30, 58, 28, 2, true⟩),
      ([0x897C5315], .sshrImm ⟨true, 31, 5, 12, 2, true⟩),
      ([0x8980CC96, 0x058A7900], .sshrExt ⟨true, 32, 12, 50, 2, true⟩ ⟨0, 5, 8, 2, true, false, 3, true, 36, 0⟩),
      ([0x8A853F54], .ssra ⟨true, 33, 19, 61, 2, true⟩),
      ([0x8A89A6D5], .ssraImm ⟨true, 34, 26, 27, 2, true⟩),
      ([0x8A8E1556, 0x058A79C0], .ssraExt ⟨true, 35, 33, 21, 2, true⟩ ⟨0, 5, 8, 2, true, false, 3, true, 39, 0⟩),
      ([0x8B928814], .smin ⟨true, 36, 40, 32, 2, true⟩),
      ([0x8B96FA95], .sminImm ⟨true, 37, 47, 42, 2, true⟩),
      ([0x8B9B6D96, 0x058A7A80], .sminExt ⟨true, 38, 54, 54, 2, true⟩ ⟨0, 5, 8, 2, true, false, 3, true, 42, 0⟩),
      ([0x8C9FD0D4], .smax ⟨true, 39, 61, 3, 2, true⟩),
      ([0x8CA08E55], .smaxImm ⟨true, 40, 8, 57, 2, true⟩),
      ([0x8CA4F656, 0x058A7B40], .smaxExt ⟨true, 41, 15, 25, 2, true⟩ ⟨0, 5, 8, 2, true, false, 3, true, 45, 0⟩),
      ([0x8DA96914], .scmp ⟨true, 42, 22, 36, 2, true⟩),
      ([0x8DADD315], .scmpImm ⟨true, 43, 29, 12, 2, true⟩),
      ([0x8DB24E96, 0x058A7C00], .scmpExt ⟨true, 44, 36, 58, 2, true⟩ ⟨0, 5, 8, 2, true, false, 3, true, 48, 0⟩),
      ([0x8EB6B1D4], .ssel ⟨true, 45, 43, 7, 2, true⟩),
      ([0x8EBB2496, 0x058A7280], .sselExt ⟨true, 46, 50, 18, 2, true⟩ ⟨0, 5, 8, 2, true, false, 3, true, 10, 0⟩),
      ([0x8FBF9014], .smov ⟨true, 47, 57, 0, 2, true⟩),
      ([0x8FC04A16, 0x058A7300], .smovExt ⟨true, 48, 4, 40, 2, true⟩ ⟨0, 5, 8, 2, true, false, 3, true, 12, 0⟩),
      ([0x90C4BCD6, 0x1234562C], .sli ⟨true, 49, 11, 51, 2, true⟩ 0x1234562C),
      ([0x91C92F96, 0x1234562D], .slih ⟨true, 50, 18, 62, 2, true⟩ 0x1234562D),
      ([0x92CD92D4], .sadda ⟨true, 51, 25, 11, 2, true⟩),
      ([0x92D20E55], .saddaImm ⟨true, 52, 32, 57, 2, true⟩),
      ([0x92D67856, 0x058A7440], .saddaExt ⟨true, 53, 39, 33, 2, true⟩ ⟨0, 5, 8, 2, true, false, 3, true, 17, 0⟩)] = true := by decide

/-- Words of scalar rows laid out from 11 R224 to R229 and 13 R257 to R263, every field distinct. -/
theorem test_decode_scalar_3 :
    reads [
      ([0x93DAE014], .sgets ⟨true, 54, 46, 0, 2, true⟩),
      ([0x94175014], .ssets ⟨true, 5, 53, 0, 2, true⟩)] = true := by decide

/-- Words of control rows laid out from 11 R224 to R229 and 13 R257 to R263, every field distinct. -/
theorem test_decode_control :
    reads [
      ([0x981BC116, 0x12345633], .bra ⟨true, 6, 60, 4, 2, true⟩ 0x12345633),
      ([0x990073D4], .brx ⟨true, 0, 7, 15, 2, true⟩),
      ([0x9A20E696, 0x12345635], .call ⟨true, 8, 14, 26, 2, true⟩ 0x12345635),
      ([0x9B015014], .callx ⟨true, 0, 21, 0, 2, true⟩),
      ([0x9C000014], .ret ⟨true, 0, 0, 0, 2, true⟩),
      ([0x9D000014], .lpadC ⟨true, 0, 0, 0, 2, true⟩),
      ([0x9D000054], .lpadJ ⟨true, 0, 0, 0, 2, true⟩),
      ([0x9E000000], .seam ⟨true, 0, 0, 0, 0, false⟩),
      ([0x9F3B8796, 0x1234563B], .loop ⟨true, 14, 56, 30, 2, true⟩ 0x1234563B),
      ([0xA0000000], .lexit ⟨true, 0, 0, 0, 0, false⟩),
      ([0xA1000000], .collapse ⟨true, 0, 0, 0, 0, false⟩),
      ([0xA1000301], .collapseN ⟨true, 0, 0, 12, 0, false⟩),
      ([0xA2000000], .expand ⟨true, 0, 0, 0, 0, false⟩),
      ([0xA3000000], .yield ⟨true, 0, 0, 0, 0, false⟩),
      ([0xA4000014], .exit ⟨true, 0, 0, 0, 2, true⟩),
      ([0xA5000000], .tack ⟨true, 0, 0, 0, 0, false⟩),
      ([0xA6034E14], .ptload ⟨true, 0, 52, 56, 2, true⟩)] = true := by decide

/-- Words of lane rows laid out from 11 R224 to R229 and 13 R257 to R263, every field distinct. -/
theorem test_decode_lane_1 :
    reads [
      ([0xA8606414], .add ⟨true, 24, 6, 16, 2, true⟩),
      ([0xA864DD15], .addImm ⟨true, 25, 13, 52, 2, true⟩),
      ([0xA8694996, 0x058A7A00], .addExt ⟨true, 26, 20, 38, 2, true⟩ ⟨0, 5, 8, 2, true, false, 3, true, 40, 0⟩),
      ([0xA86DBC57], .addPort ⟨true, 27, 27, 49, 2, true⟩),
      ([0xA9722F14], .sub ⟨true, 28, 34, 60, 2, true⟩),
      ([0xA9769315], .subImm ⟨true, 29, 41, 12, 2, true⟩),
      ([0xA97B0516, 0x058A7B00], .subExt ⟨true, 30, 48, 20, 2, true⟩ ⟨0, 5, 8, 2, true, false, 3, true, 44, 0⟩),
      ([0xA97F77D7], .subPort ⟨true, 31, 55, 31, 2, true⟩),
      ([0xAA83EA94], .mul ⟨true, 32, 62, 42, 2, true⟩),
      ([0xAA849815], .mulImm ⟨true, 33, 9, 32, 2, true⟩),
      ([0xAA890096, 0x058A7C00], .mulExt ⟨true, 34, 16, 2, 2, true⟩ ⟨0, 5, 8, 2, true, false, 3, true, 48, 0⟩),
      ([0xAA8D7357], .mulPort ⟨true, 35, 23, 13, 2, true⟩),
      ([0xAB91E614], .mulh ⟨true, 36, 30, 24, 2, true⟩),
      ([0xAB9658D6, 0x058A72C0], .mulhExt ⟨true, 37, 37, 35, 2, true⟩ ⟨0, 5, 8, 2, true, false, 3, true, 11, 0⟩),
      ([0xAB9ACB97], .mulhPort ⟨true, 38, 44, 46, 2, true⟩),
      ([0xAC9F3E54], .mad ⟨true, 39, 51, 57, 2, true⟩),
      ([0xACA3A196, 0x058A7380], .madExt ⟨true, 40, 58, 6, 2, true⟩ ⟨0, 5, 8, 2, true, false, 3, true, 14, 0⟩),
      ([0xACA45457], .madPort ⟨true, 41, 5, 17, 2, true⟩),
      ([0xADA8C714], .and ⟨true, 42, 12, 28, 2, true⟩),
      ([0xADAD3595], .andImm ⟨true, 43, 19, 22, 2, true⟩),
      ([0xADB1AC96, 0x058A7480], .andExt ⟨true, 44, 26, 50, 2, true⟩ ⟨0, 5, 8, 2, true, false, 3, true, 18, 0⟩),
      ([0xADB61F57], .andPort ⟨true, 45, 33, 61, 2, true⟩),
      ([0xAEBA8294], .or ⟨true, 46, 40, 10, 2, true⟩),
      ([0xAEBEFA95], .orImm ⟨true, 47, 47, 42, 2, true⟩)] = true := by decide

/-- Words of lane rows laid out from 11 R224 to R229 and 13 R257 to R263, every field distinct. -/
theorem test_decode_lane_2 :
    reads [
      ([0xAEC36816, 0x058A7580], .orExt ⟨true, 48, 54, 32, 2, true⟩ ⟨0, 5, 8, 2, true, false, 3, true, 22, 0⟩),
      ([0xAEC7DAD7], .orPort ⟨true, 49, 61, 43, 2, true⟩),
      ([0xAFC88D94], .xor ⟨true, 50, 8, 54, 2, true⟩),
      ([0xAFCCF095], .xorImm ⟨true, 51, 15, 2, 2, true⟩),
      ([0xAFD16396, 0x058A7680], .xorExt ⟨true, 52, 22, 14, 2, true⟩ ⟨0, 5, 8, 2, true, false, 3, true, 26, 0⟩),
      ([0xAFD5D657], .xorPort ⟨true, 53, 29, 25, 2, true⟩),
      ([0xB0DA4014], .not ⟨true, 54, 36, 0, 2, true⟩),
      ([0xB016B016, 0x058A7740], .notExt ⟨true, 5, 43, 0, 2, true⟩ ⟨0, 5, 8, 2, true, false, 3, true, 29, 0⟩),
      ([0xB01B2017], .notPort ⟨true, 6, 50, 0, 2, true⟩),
      ([0xB01F9054], .abs ⟨true, 7, 57, 0, 2, true⟩),
      ([0xB0204056, 0x058A7800], .absExt ⟨true, 8, 4, 0, 2, true⟩ ⟨0, 5, 8, 2, true, false, 3, true, 32, 0⟩),
      ([0xB024B057], .absPort ⟨true, 9, 11, 0, 2, true⟩),
      ([0xB0292094], .neg ⟨true, 10, 18, 0, 2, true⟩),
      ([0xB02D9096, 0x058A78C0], .negExt ⟨true, 11, 25, 0, 2, true⟩ ⟨0, 5, 8, 2, true, false, 3, true, 35, 0⟩),
      ([0xB0320097], .negPort ⟨true, 12, 32, 0, 2, true⟩),
      ([0xB03670D4], .clz ⟨true, 13, 39, 0, 2, true⟩),
      ([0xB03AE0D6, 0x058A7980], .clzExt ⟨true, 14, 46, 0, 2, true⟩ ⟨0, 5, 8, 2, true, false, 3, true, 38, 0⟩),
      ([0xB03F50D7], .clzPort ⟨true, 15, 53, 0, 2, true⟩),
      ([0xB043C114], .popc ⟨true, 16, 60, 0, 2, true⟩),
      ([0xB0447116, 0x058A7A40], .popcExt ⟨true, 17, 7, 0, 2, true⟩ ⟨0, 5, 8, 2, true, false, 3, true, 41, 0⟩),
      ([0xB048E117], .popcPort ⟨true, 18, 14, 0, 2, true⟩),
      ([0xB04D5154], .brev ⟨true, 19, 21, 0, 2, true⟩),
      ([0xB051C156, 0x058A7B00], .brevExt ⟨true, 20, 28, 0, 2, true⟩ ⟨0, 5, 8, 2, true, false, 3, true, 44, 0⟩),
      ([0xB0563157], .brevPort ⟨true, 21, 35, 0, 2, true⟩)] = true := by decide

/-- Words of lane rows laid out from 11 R224 to R229 and 13 R257 to R263, every field distinct. -/
theorem test_decode_lane_3 :
    reads [
      ([0xB15AAC14], .fadd ⟨true, 22, 42, 48, 2, true⟩),
      ([0xB15F1ED6, 0x058A7BC0], .faddExt ⟨true, 23, 49, 59, 2, true⟩ ⟨0, 5, 8, 2, true, false, 3, true, 47, 0⟩),
      ([0xB1638217], .faddPort ⟨true, 24, 56, 8, 2, true⟩),
      ([0xB26434D4], .fsub ⟨true, 25, 3, 19, 2, true⟩),
      ([0xB268A796, 0x058A7280], .fsubExt ⟨true, 26, 10, 30, 2, true⟩ ⟨0, 5, 8, 2, true, false, 3, true, 10, 0⟩),
      ([0xB26D1A57], .fsubPort ⟨true, 27, 17, 41, 2, true⟩),
      ([0xB3718D14], .fmul ⟨true, 28, 24, 52, 2, true⟩),
      ([0xB375F056, 0x058A7340], .fmulExt ⟨true, 29, 31, 1, 2, true⟩ ⟨0, 5, 8, 2, true, false, 3, true, 13, 0⟩),
      ([0xB37A6317], .fmulPort ⟨true, 30, 38, 12, 2, true⟩),
      ([0xB47ED5D4], .fma ⟨true, 31, 45, 23, 2, true⟩),
      ([0xB4834896, 0x058A7400], .fmaExt ⟨true, 32, 52, 34, 2, true⟩ ⟨0, 5, 8, 2, true, false, 3, true, 16, 0⟩),
      ([0xB487BB57], .fmaPort ⟨true, 33, 59, 45, 2, true⟩),
      ([0xB5886E14], .fmin ⟨true, 34, 6, 56, 2, true⟩),
      ([0xB58CD156, 0x058A74C0], .fminExt ⟨true, 35, 13, 5, 2, true⟩ ⟨0, 5, 8, 2, true, false, 3, true, 19, 0⟩),
      ([0xB5914417], .fminPort ⟨true, 36, 20, 16, 2, true⟩),
      ([0xB695B6D4], .fmax ⟨true, 37, 27, 27, 2, true⟩),
      ([0xB69A2996, 0x058A7580], .fmaxExt ⟨true, 38, 34, 38, 2, true⟩ ⟨0, 5, 8, 2, true, false, 3, true, 22, 0⟩),
      ([0xB69E9C57], .fmaxPort ⟨true, 39, 41, 49, 2, true⟩),
      ([0xB7030F14], .fcmp ⟨true, 0, 48, 60, 2, true⟩),
      ([0xB7A77256, 0x058A7640], .fcmpExt ⟨true, 41, 55, 9, 2, true⟩ ⟨0, 5, 8, 2, true, false, 3, true, 25, 0⟩),
      ([0xB70BE517], .fcmpPort ⟨true, 2, 62, 20, 2, true⟩),
      ([0xB8AC97D6, 0x058A76C0], .cvt ⟨true, 43, 9, 31, 2, true⟩ ⟨0, 5, 8, 2, true, false, 3, true, 27, 0⟩),
      ([0xB9B10A94], .frnd ⟨true, 44, 16, 42, 2, true⟩),
      ([0xB9B57D56, 0x058A7740], .frndExt ⟨true, 45, 23, 53, 2, true⟩ ⟨0, 5, 8, 2, true, false, 3, true, 29, 0⟩)] = true := by decide

/-- Words of lane rows laid out from 11 R224 to R229 and 13 R257 to R263, every field distinct. -/
theorem test_decode_lane_4 :
    reads [
      ([0xB9B9E097], .frndPort ⟨true, 46, 30, 2, 2, true⟩),
      ([0xBABE5014], .rcp ⟨true, 47, 37, 0, 2, true⟩),
      ([0xBAC2C016, 0x058A7800], .rcpExt ⟨true, 48, 44, 0, 2, true⟩ ⟨0, 5, 8, 2, true, false, 3, true, 32, 0⟩),
      ([0xBAC73017], .rcpPort ⟨true, 49, 51, 0, 2, true⟩),
      ([0xBACBA054], .rsq ⟨true, 50, 58, 0, 2, true⟩),
      ([0xBACC5056, 0x058A78C0], .rsqExt ⟨true, 51, 5, 0, 2, true⟩ ⟨0, 5, 8, 2, true, false, 3, true, 35, 0⟩),
      ([0xBAD0C057], .rsqPort ⟨true, 52, 12, 0, 2, true⟩),
      ([0xBAD53094], .sqrt ⟨true, 53, 19, 0, 2, true⟩),
      ([0xBAD9A096, 0x058A7980], .sqrtExt ⟨true, 54, 26, 0, 2, true⟩ ⟨0, 5, 8, 2, true, false, 3, true, 38, 0⟩),
      ([0xBA161097], .sqrtPort ⟨true, 5, 33, 0, 2, true⟩),
      ([0xBA1A80D4], .exp2 ⟨true, 6, 40, 0, 2, true⟩),
      ([0xBA1EF0D6, 0x058A7A40], .exp2Ext ⟨true, 7, 47, 0, 2, true⟩ ⟨0, 5, 8, 2, true, false, 3, true, 41, 0⟩),
      ([0xBA2360D7], .exp2Port ⟨true, 8, 54, 0, 2, true⟩),
      ([0xBA27D114], .log2 ⟨true, 9, 61, 0, 2, true⟩),
      ([0xBA288116, 0x058A7B00], .log2Ext ⟨true, 10, 8, 0, 2, true⟩ ⟨0, 5, 8, 2, true, false, 3, true, 44, 0⟩),
      ([0xBA2CF117], .log2Port ⟨true, 11, 15, 0, 2, true⟩),
      ([0xBA316154], .sin ⟨true, 12, 22, 0, 2, true⟩),
      ([0xBA35D156, 0x058A7BC0], .sinExt ⟨true, 13, 29, 0, 2, true⟩ ⟨0, 5, 8, 2, true, false, 3, true, 47, 0⟩),
      ([0xBA3A4157], .sinPort ⟨true, 14, 36, 0, 2, true⟩),
      ([0xBA3EB194], .cos ⟨true, 15, 43, 0, 2, true⟩),
      ([0xBA432196, 0x058A7280], .cosExt ⟨true, 16, 50, 0, 2, true⟩ ⟨0, 5, 8, 2, true, false, 3, true, 10, 0⟩),
      ([0xBA479197], .cosPort ⟨true, 17, 57, 0, 2, true⟩),
      ([0xBA4841D4], .tanh ⟨true, 18, 4, 0, 2, true⟩),
      ([0xBA4CB1D6, 0x058A7340], .tanhExt ⟨true, 19, 11, 0, 2, true⟩ ⟨0, 5, 8, 2, true, false, 3, true, 13, 0⟩)] = true := by decide

/-- Words of lane rows laid out from 11 R224 to R229 and 13 R257 to R263, every field distinct. -/
theorem test_decode_lane_5 :
    reads [
      ([0xBA5121D7], .tanhPort ⟨true, 20, 18, 0, 2, true⟩),
      ([0xBB559754], .shl ⟨true, 21, 25, 29, 2, true⟩),
      ([0xBB5A0E55], .shlImm ⟨true, 22, 32, 57, 2, true⟩),
      ([0xBB5E7CD6, 0x058A7440], .shlExt ⟨true, 23, 39, 51, 2, true⟩ ⟨0, 5, 8, 2, true, false, 3, true, 17, 0⟩),
      ([0xBB62EF97], .shlPort ⟨true, 24, 46, 62, 2, true⟩),
      ([0xBC6752D4], .shr ⟨true, 25, 53, 11, 2, true⟩),
      ([0xBC6BC455], .shrImm ⟨true, 26, 60, 17, 2, true⟩),
      ([0xBC6C7856, 0x058A7540], .shrExt ⟨true, 27, 7, 33, 2, true⟩ ⟨0, 5, 8, 2, true, false, 3, true, 21, 0⟩),
      ([0xBC70EB17], .shrPort ⟨true, 28, 14, 44, 2, true⟩),
      ([0xBD755DD4], .sra ⟨true, 29, 21, 55, 2, true⟩),
      ([0xBD79C955], .sraImm ⟨true, 30, 28, 37, 2, true⟩),
      ([0xBD7E33D6, 0x058A7640], .sraExt ⟨true, 31, 35, 15, 2, true⟩ ⟨0, 5, 8, 2, true, false, 3, true, 25, 0⟩),
      ([0xBD82A697], .sraPort ⟨true, 32, 42, 26, 2, true⟩),
      ([0xBE871954], .rot ⟨true, 33, 49, 37, 2, true⟩),
      ([0xBE8B8E55], .rotImm ⟨true, 34, 56, 57, 2, true⟩),
      ([0xBE8C3ED6, 0x058A7740], .rotExt ⟨true, 35, 3, 59, 2, true⟩ ⟨0, 5, 8, 2, true, false, 3, true, 29, 0⟩),
      ([0xBE90A217], .rotPort ⟨true, 36, 10, 8, 2, true⟩),
      ([0xBF9514D4], .min ⟨true, 37, 17, 19, 2, true⟩),
      ([0xBF998455], .minImm ⟨true, 38, 24, 17, 2, true⟩),
      ([0xBF9DFA56, 0x058A7840], .minExt ⟨true, 39, 31, 41, 2, true⟩ ⟨0, 5, 8, 2, true, false, 3, true, 33, 0⟩),
      ([0xBFA26D17], .minPort ⟨true, 40, 38, 52, 2, true⟩),
      ([0xC0A6D054], .max ⟨true, 41, 45, 1, 2, true⟩),
      ([0xC0AB4955], .maxImm ⟨true, 42, 52, 37, 2, true⟩),
      ([0xC0AFB5D6, 0x058A7940], .maxExt ⟨true, 43, 59, 23, 2, true⟩ ⟨0, 5, 8, 2, true, false, 3, true, 37, 0⟩)] = true := by decide

/-- Words of lane rows laid out from 11 R224 to R229 and 13 R257 to R263, every field distinct. -/
theorem test_decode_lane_6 :
    reads [
      ([0xC0B06897], .maxPort ⟨true, 44, 6, 34, 2, true⟩),
      ([0xC1B4DB54], .bfe ⟨true, 45, 13, 45, 2, true⟩),
      ([0xC1B94E16, 0x058A7A00], .bfeExt ⟨true, 46, 20, 56, 2, true⟩ ⟨0, 5, 8, 2, true, false, 3, true, 40, 0⟩),
      ([0xC1BDB157], .bfePort ⟨true, 47, 27, 5, 2, true⟩),
      ([0xC2C22414], .bfi ⟨true, 48, 34, 16, 2, true⟩),
      ([0xC2C696D6, 0x058A7AC0], .bfiExt ⟨true, 49, 41, 27, 2, true⟩ ⟨0, 5, 8, 2, true, false, 3, true, 43, 0⟩),
      ([0xC2CB0997], .bfiPort ⟨true, 50, 48, 38, 2, true⟩),
      ([0xC30F7C54], .cmp ⟨true, 3, 55, 49, 2, true⟩),
      ([0xC313E6D5], .cmpImm ⟨true, 4, 62, 27, 2, true⟩),
      ([0xC3D49256, 0x058A7BC0], .cmpExt ⟨true, 53, 9, 9, 2, true⟩ ⟨0, 5, 8, 2, true, false, 3, true, 47, 0⟩),
      ([0xC3190517], .cmpPort ⟨true, 6, 16, 20, 2, true⟩),
      ([0xC41577D4], .sel ⟨true, 5, 23, 31, 2, true⟩),
      ([0xC419EA96, 0x058A7280], .selExt ⟨true, 6, 30, 42, 2, true⟩ ⟨0, 5, 8, 2, true, false, 3, true, 10, 0⟩),
      ([0xC41E5D57], .selPort ⟨true, 7, 37, 53, 2, true⟩),
      ([0xC522C014], .mov ⟨true, 8, 44, 0, 2, true⟩),
      ([0xC5273356, 0x058A7340], .movExt ⟨true, 9, 51, 13, 2, true⟩ ⟨0, 5, 8, 2, true, false, 3, true, 13, 0⟩),
      ([0xC52BA017], .movPort ⟨true, 10, 58, 0, 2, true⟩),
      ([0xC62C58D6, 0x123456CE], .movi ⟨true, 11, 5, 35, 2, true⟩ 0x123456CE),
      ([0xC730CB94], .dp4 ⟨true, 12, 12, 46, 2, true⟩),
      ([0xC7353E56, 0x058A7440], .dp4Ext ⟨true, 13, 19, 57, 2, true⟩ ⟨0, 5, 8, 2, true, false, 3, true, 17, 0⟩),
      ([0xC739A197], .dp4Port ⟨true, 14, 26, 6, 2, true⟩),
      ([0xC83E1454], .perm ⟨true, 15, 33, 17, 2, true⟩),
      ([0xC8428716, 0x058A7500], .permExt ⟨true, 16, 40, 28, 2, true⟩ ⟨0, 5, 8, 2, true, false, 3, true, 20, 0⟩),
      ([0xC846F9D7], .permPort ⟨true, 17, 47, 39, 2, true⟩)] = true := by decide

/-- Words of lane rows laid out from 11 R224 to R229 and 13 R257 to R263, every field distinct. -/
theorem test_decode_lane_7 :
    reads [
      ([0xC94B6C94], .shfl ⟨true, 18, 54, 50, 2, true⟩),
      ([0xC94FDD15], .shflImm ⟨true, 19, 61, 52, 2, true⟩),
      ([0xC9508296, 0x058A7600], .shflExt ⟨true, 20, 8, 10, 2, true⟩ ⟨0, 5, 8, 2, true, false, 3, true, 24, 0⟩),
      ([0xC954F557], .shflPort ⟨true, 21, 15, 21, 2, true⟩),
      ([0xCA586014], .vote ⟨true, 22, 6, 0, 2, true⟩),
      ([0xCA5DDAD6, 0x058A76C0], .voteExt ⟨true, 23, 29, 43, 2, true⟩ ⟨0, 5, 8, 2, true, false, 3, true, 27, 0⟩),
      ([0xCA624017], .votePort ⟨true, 24, 36, 0, 2, true⟩),
      ([0xCB66B014], .scan ⟨true, 25, 43, 0, 2, true⟩),
      ([0xCB6B2396, 0x058A7780], .scanExt ⟨true, 26, 50, 14, 2, true⟩ ⟨0, 5, 8, 2, true, false, 3, true, 30, 0⟩),
      ([0xCB6F9017], .scanPort ⟨true, 27, 57, 0, 2, true⟩),
      ([0xCC704014], .red ⟨true, 28, 4, 0, 2, true⟩),
      ([0xCC74BBD6, 0x058A7840], .redExt ⟨true, 29, 11, 47, 2, true⟩ ⟨0, 5, 8, 2, true, false, 3, true, 33, 0⟩),
      ([0xCC792017], .redPort ⟨true, 30, 18, 0, 2, true⟩),
      ([0xCD7D91D4], .bcast ⟨true, 31, 25, 7, 2, true⟩),
      ([0xCD820E55], .bcastImm ⟨true, 32, 32, 57, 2, true⟩),
      ([0xCD867756, 0x058A7940], .bcastExt ⟨true, 33, 39, 29, 2, true⟩ ⟨0, 5, 8, 2, true, false, 3, true, 37, 0⟩),
      ([0xCD8AEA17], .bcastPort ⟨true, 34, 46, 40, 2, true⟩),
      ([0xCE8F5CD4], .sample ⟨true, 35, 53, 51, 2, true⟩),
      ([0xCE93CF96, 0x158A7A00], .sampleExt ⟨true, 36, 60, 62, 2, true⟩ ⟨1, 5, 8, 2, true, false, 3, true, 40, 0⟩),
      ([0xCF947054], .xmov ⟨true, 37, 7, 1, 2, true⟩)] = true := by decide

/-- Words of memory rows laid out from 11 R224 to R229 and 13 R257 to R263, every field distinct. -/
theorem test_decode_memory_1 :
    reads [
      ([0xD098E014], .ld ⟨true, 38, 14, 0, 2, true⟩),
      ([0xD09D5856, 0x0639C8EA], .ldExt ⟨true, 39, 21, 33, 2, true⟩ ⟨0, 1, 4, 3, true, 0, true, 6, false, 0x8EA⟩),
      ([0xD1A1C014], .st ⟨true, 40, 28, 0, 2, true⟩),
      ([0xD1A63DD6, 0x0639C8EC], .stExt ⟨true, 41, 35, 55, 2, true⟩ ⟨0, 1, 4, 3, true, 0, true, 6, false, 0x8EC⟩),
      ([0xD2AAA114], .atom ⟨true, 42, 42, 4, 2, true⟩),
      ([0xD2AF13D6, 0x0639C8EE], .atomExt ⟨true, 43, 49, 15, 2, true⟩ ⟨0, 1, 4, 3, true, 0, true, 6, false, 0x8EE⟩),
      ([0xD3038694], .redm ⟨true, 0, 56, 26, 2, true⟩),
      ([0xD3B43956, 0x0639C8F0], .redmExt ⟨true, 45, 3, 37, 2, true⟩ ⟨0, 1, 4, 3, true, 0, true, 6, false, 0x8F0⟩),
      ([0xD4B8A014], .pexport ⟨true, 46, 10, 0, 2, true⟩),
      ([0xD5011ED4], .binit ⟨true, 0, 17, 59, 2, true⟩),
      ([0xD5C18216, 0x0639C8F3], .binitExt ⟨true, 48, 24, 8, 2, true⟩ ⟨0, 1, 4, 3, true, 0, true, 6, false, 0x8F3⟩),
      ([0xD6C5F4D4], .barr ⟨true, 49, 31, 19, 2, true⟩),
      ([0xD6CA6796, 0x0639C8F5], .barrExt ⟨true, 50, 38, 30, 2, true⟩ ⟨0, 1, 4, 3, true, 0, true, 6, false, 0x8F5⟩),
      ([0xD7CEDA54], .barrx ⟨true, 51, 45, 41, 2, true⟩),
      ([0xD7D34D16, 0x0639C8F7], .barrxExt ⟨true, 52, 52, 52, 2, true⟩ ⟨0, 1, 4, 3, true, 0, true, 6, false, 0x8F7⟩),
      ([0xD8D7B054], .bwait ⟨true, 53, 59, 1, 2, true⟩),
      ([0xD8D86316, 0x0639C8F9], .bwaitExt ⟨true, 54, 6, 12, 2, true⟩ ⟨0, 1, 4, 3, true, 0, true, 6, false, 0x8F9⟩),
      ([0xD914D5D4], .btest ⟨true, 5, 13, 23, 2, true⟩),
      ([0xDA000000], .fence ⟨true, 0, 0, 0, 0, false⟩),
      ([0xDA1DB016, 0x0639C8FC], .fenceExt ⟨true, 7, 27, 0, 2, true⟩ ⟨0, 1, 4, 3, true, 0, true, 6, false, 0x8FC⟩),
      ([0xDA000040], .acq ⟨true, 0, 0, 0, 0, false⟩),
      ([0xDA269056, 0x0639C8FE], .acqExt ⟨true, 9, 41, 0, 2, true⟩ ⟨0, 1, 4, 3, true, 0, true, 6, false, 0x8FE⟩),
      ([0xDA000080], .rel ⟨true, 0, 0, 0, 0, false⟩),
      ([0xDA2F7096, 0x0639C900], .relExt ⟨true, 11, 55, 0, 2, true⟩ ⟨0, 1, 4, 3, true, 0, true, 6, false, 0x900⟩)] = true := by decide

/-- Words of memory rows laid out from 11 R224 to R229 and 13 R257 to R263, every field distinct. -/
theorem test_decode_memory_2 :
    reads [
      ([0xDA0000C0], .drain ⟨true, 0, 0, 0, 0, false⟩),
      ([0xDA3490D6, 0x0639C902], .drainExt ⟨true, 13, 9, 0, 2, true⟩ ⟨0, 1, 4, 3, true, 0, true, 6, false, 0x902⟩),
      ([0xDA000100], .pfence ⟨true, 0, 0, 0, 0, false⟩),
      ([0xDA3D7116, 0x0639C904], .pfenceExt ⟨true, 15, 23, 0, 2, true⟩ ⟨0, 1, 4, 3, true, 0, true, 6, false, 0x904⟩),
      ([0xDB000000], .tbar ⟨true, 0, 0, 0, 0, false⟩),
      ([0xDB4657D6, 0x0639C906], .tbarExt ⟨true, 17, 37, 31, 2, true⟩ ⟨0, 1, 4, 3, true, 0, true, 6, false, 0x906⟩),
      ([0xDC000000], .pbar ⟨true, 0, 0, 0, 0, false⟩),
      ([0xDC4F3D56, 0x0639C908], .pbarExt ⟨true, 19, 51, 53, 2, true⟩ ⟨0, 1, 4, 3, true, 0, true, 6, false, 0x908⟩)] = true := by decide

/-- Words of matrix rows laid out from 11 R224 to R229 and 13 R257 to R263, every field distinct. -/
theorem test_decode_matrix :
    reads [
      ([0xDD13A094], .mma ⟨true, 4, 58, 2, 2, true⟩),
      ([0xDD545356, 0x058A78C0], .mmaExt ⟨true, 21, 5, 13, 2, true⟩ ⟨0, 5, 8, 2, true, false, 3, true, 35, 0⟩),
      ([0xDE58C616, 0x058A7900], .mmaq ⟨true, 22, 12, 24, 2, true⟩ ⟨0, 5, 8, 2, true, false, 3, true, 36, 0⟩),
      ([0xDF1C0014], .mzero ⟨true, 7, 0, 0, 2, true⟩),
      ([0xE001A014], .mld ⟨true, 0, 26, 0, 2, true⟩),
      ([0xE0661E56, 0x0639C90E], .mldExt ⟨true, 25, 33, 57, 2, true⟩ ⟨0, 1, 4, 3, true, 0, true, 6, false, 0x90E⟩),
      ([0xE10A8014], .mst ⟨true, 2, 40, 0, 2, true⟩),
      ([0xE16EF456, 0x0639C910], .mstExt ⟨true, 27, 47, 17, 2, true⟩ ⟨0, 1, 4, 3, true, 0, true, 6, false, 0x910⟩),
      ([0xE2736014], .mplane ⟨true, 28, 54, 0, 2, true⟩),
      ([0xE277D9D6, 0x058A7AC0], .mplaneExt ⟨true, 29, 61, 39, 2, true⟩ ⟨0, 5, 8, 2, true, false, 3, true, 43, 0⟩),
      ([0xE3788014], .munplane ⟨true, 30, 8, 0, 2, true⟩),
      ([0xE37CFF56, 0x058A7B40], .munplaneExt ⟨true, 31, 15, 61, 2, true⟩ ⟨0, 5, 8, 2, true, false, 3, true, 45, 0⟩),
      ([0xE4006014], .mtr ⟨true, 0, 6, 0, 2, true⟩),
      ([0xE5045154], .madd ⟨true, 1, 5, 5, 2, true⟩),
      ([0xE58A4816, 0x058A7C00], .maddExt ⟨true, 34, 36, 32, 2, true⟩ ⟨0, 5, 8, 2, true, false, 3, true, 48, 0⟩),
      ([0xE60C3AD4], .mscale ⟨true, 3, 3, 43, 2, true⟩),
      ([0xE6932D96, 0x058A7280], .mscaleExt ⟨true, 36, 50, 54, 2, true⟩ ⟨0, 5, 8, 2, true, false, 3, true, 10, 0⟩),
      ([0xE70790D4], .scl ⟨true, 1, 57, 3, 2, true⟩),
      ([0xE7984396, 0x0639C91B], .sclExt ⟨true, 38, 4, 14, 2, true⟩ ⟨0, 1, 4, 3, true, 0, true, 6, false, 0x91B⟩),
      ([0xE89C0014], .mbatch ⟨true, 39, 0, 0, 2, true⟩),
      ([0xE9012014], .mwait ⟨true, 0, 18, 0, 2, true⟩),
      ([0xE9000D15], .mwaitImm ⟨true, 0, 0, 52, 2, true⟩)] = true := by decide

/-- Words of engine and system rows laid out from 11 R224 to R229 and 13 R257 to R263, every field distinct. -/
theorem test_decode_system_1 :
    reads [
      ([0xEA020014], .cpy ⟨true, 0, 32, 0, 2, true⟩),
      ([0xEAAE71D6, 0x158A7440], .cpyPlane ⟨true, 43, 39, 7, 2, true⟩ ⟨1, 5, 8, 2, true, false, 3, true, 17, 0⟩),
      ([0xEBB2E494], .cpyl ⟨true, 44, 46, 18, 2, true⟩),
      ([0xEC035014], .gat ⟨true, 0, 53, 0, 2, true⟩),
      ([0xECBBCA16, 0x158A7500], .gatPlane ⟨true, 46, 60, 40, 2, true⟩ ⟨1, 5, 8, 2, true, false, 3, true, 20, 0⟩),
      ([0xED007014], .sct ⟨true, 0, 7, 0, 2, true⟩),
      ([0xEE00E014], .gpl ⟨true, 0, 14, 0, 2, true⟩),
      ([0xEFC552D6, 0x058A75C0], .coll ⟨true, 49, 21, 11, 2, true⟩ ⟨0, 5, 8, 2, true, false, 3, true, 23, 0⟩),
      ([0xF001C014], .qfence ⟨true, 0, 28, 0, 2, true⟩),
      ([0xF0000295], .qfenceImm ⟨true, 0, 0, 10, 2, true⟩),
      ([0xF1D2A014], .qstat ⟨true, 52, 42, 0, 2, true⟩),
      ([0xF2031DD4], .send ⟨true, 0, 49, 55, 2, true⟩),
      ([0xF3DB8114], .launch ⟨true, 54, 56, 4, 2, true⟩),
      ([0xF4000000], .tend ⟨true, 0, 0, 0, 0, false⟩),
      ([0xF5000014], .tabort ⟨true, 0, 0, 0, 2, true⟩),
      ([0xF51D1956, 0x158A77C0], .tabortExt ⟨true, 7, 17, 37, 2, true⟩ ⟨1, 5, 8, 2, true, false, 3, true, 31, 0⟩),
      ([0xF6218014], .vgrow ⟨true, 8, 24, 0, 2, true⟩),
      ([0xF6240595], .vgrowImm ⟨true, 9, 0, 22, 2, true⟩),
      ([0xF72A6014], .sgrow ⟨true, 10, 38, 0, 2, true⟩),
      ([0xF72C0815], .sgrowImm ⟨true, 11, 0, 32, 2, true⟩),
      ([0xF8334796, 0x12345633], .svc ⟨true, 12, 52, 30, 2, true⟩ 0x12345633),
      ([0xF903B014], .trap ⟨true, 0, 59, 0, 2, true⟩),
      ([0xF9386D16, 0x12345635], .trapExt ⟨true, 14, 6, 52, 2, true⟩ 0x12345635),
      ([0xFA000014], .brk ⟨true, 0, 0, 0, 2, true⟩)] = true := by decide

/-- Words of engine and system rows laid out from 11 R224 to R229 and 13 R257 to R263, every field distinct. -/
theorem test_decode_system_2 :
    reads [
      ([0xFB000000], .uiret ⟨true, 0, 0, 0, 0, false⟩),
      ([0xFC45B014], .uimask ⟨true, 17, 27, 0, 2, true⟩),
      ([0xFC480055], .uimaskImm ⟨true, 18, 0, 1, 2, true⟩),
      ([0xFD029014], .trc ⟨true, 0, 41, 0, 2, true⟩),
      ([0xFD000455], .trcImm ⟨true, 0, 0, 17, 2, true⟩),
      ([0xFD577156, 0x1234563C], .trcExt ⟨true, 21, 55, 5, 2, true⟩ 0x1234563C)] = true := by decide
/-- Words of the spec's own examples (13, 14, 15, 16, 17, 18). -/
theorem test_decode_examples :
    reads [
      ([0x98006012, 0x00000140], .bra ⟨true, 0, 6, 0, 2, false⟩ 0x140),
      ([0xA1000081], .collapseN ⟨true, 0, 0, 2, 0, false⟩),
      ([0xF8008002, 0x00000101], .svc ⟨true, 0, 8, 0, 0, false⟩ 0x101),
      ([0xD010A000], .ld ⟨true, 4, 10, 0, 0, false⟩),
      ([0x50182002, 0x00300040], .ldExt ⟨false, 6, 2, 0, 0, false⟩ ⟨0, 0, 0, 3, false, 0, false, 0, false, 0x40⟩),
      ([0x582C4502, 0x10800000], .bwaitExt ⟨false, 11, 4, 20, 0, false⟩ ⟨1, 0, 1, 0, false, 0, false, 0, false, 0⟩),
      ([0x5D088300], .mma ⟨false, 2, 8, 12, 0, false⟩),
      ([0x5F040000], .mzero ⟨false, 1, 0, 0, 0, false⟩),
      ([0x680C0000], .mbatch ⟨false, 3, 0, 0, 0, false⟩),
      ([0x6A004002, 0x10000000], .cpyPlane ⟨false, 0, 4, 0, 0, false⟩ ⟨1, 0, 0, 0, false, false, 0, false, 0, 0⟩),
      ([0x300C90C0], .clz ⟨false, 3, 9, 0, 0, false⟩),
      ([0x491C3082, 0x25000200], .shflExt ⟨false, 7, 3, 2, 0, false⟩ ⟨2, 5, 0, 0, false, false, 0, false, 8, 0⟩),
      ([0x1F005002, 0x02000260], .loop ⟨false, 0, 5, 0, 0, false⟩ 0x02000260)] = true := by decide

/-- An unassigned selector and an unassigned MAJOR (13 R257, R260), a word short of its extended word, and no word. -/
theorem test_decode_refuses : refuses [[0x300C9180], [0x7E000000], [0x98006012], []] = true := by decide

/-- A bundle of slot 1 with one op, each unit stored high parcel first (11 R221, R222), and a reference to entry 5. -/
theorem test_decode_vliw :
    decodeVliwInstr [0x00, 0x80, 0x00, 0x20, 0x0C, 0x30, 0xC0, 0x90] = some (.vliwBundle ⟨2, [0x300C90C0]⟩, [])
    ∧ decodeVliwInstr [0xA0, 0xC0] = some (.patternReference 5, [])
    ∧ decodeVliwInstr [0x00, 0x80, 0x01, 0x20] = none ∧ decodeVliwInstr [0x00, 0x40] = none := by decide

/-- The host's reading of a row's bits: the first word lowest (11 R220), the words above it zero. -/
theorem test_decode_table_word :
    decodeTableWord 32 0x300C90C0 = some (.clz ⟨false, 3, 9, 0, 0, false⟩)
    ∧ decodeTableWord 64 0x0000014098006012 = some (.bra ⟨true, 0, 6, 0, 2, false⟩ 0x140)
    ∧ decodeTableWord 16 0xC0A0 = some (.patternReference 5) := by decide

/-! ### Well-formed instructions -/

/-- Reserved bits, a field where a selector stands, an unassigned SUB and the words of a bundle are checked. -/
theorem test_wellFormed_words :
    WellFormed (.saddExt ⟨false, 0, 0, 0, 0, false⟩ ⟨0, 4, 0, 0, false, false, 0, false, 0, 0⟩) = true
    ∧ WellFormed (.saddExt ⟨false, 0, 0, 0, 0, false⟩ ⟨0, 4, 0, 0, false, false, 0, false, 0, 1⟩) = false
    ∧ WellFormed (.ldExt ⟨false, 0, 0, 0, 0, false⟩ ⟨0, 0, 0, 0, false, 0, false, 0, false, 0⟩) = true
    ∧ WellFormed (.ldExt ⟨false, 0, 0, 0, 0, false⟩ ⟨0, 0, 0, 0, false, 1, false, 0, false, 0⟩) = false
    ∧ WellFormed (.clz ⟨false, 0, 0, 0, 0, false⟩) = true ∧ WellFormed (.clz ⟨false, 0, 0, 1, 0, false⟩) = false
    ∧ WellFormed (.redmExt ⟨false, 0, 0, 0, 0, false⟩ ⟨9, 0, 0, 3, false, 0, false, 0, false, 0⟩) = false
    ∧ WellFormed (.vliwBundle ⟨3, [0, 0]⟩) = true ∧ WellFormed (.vliwBundle ⟨3, [0]⟩) = false
    ∧ WellFormed (.vliwBundle ⟨3, [0, 0, 0]⟩) = false ∧ WellFormed (.vliwBundle ⟨1, [2]⟩) = false := by decide

/-- An event names things that exist: the last number that exists is accepted, the next one refused. -/
theorem test_wellFormed_events :
    ([.hbmStackReady 11, .sectionSelfTestPass 31, .portTrained (.eth 3), .portTrained (.cxl 1), .wyundPortTrained 17 0
      , .darnVerdict (.core 263) true true true, .partKeyErase 31, .vfDisable 383, .ldLinkDown 15, .batchSlotFree 1023
      , .cxlMemAccess 15 7 0 (.read 1), .inboundPeerRequest 0 31 0 (.write [0]), .rdmaInbound 65535 0 (.read 1)
      , .queueFeedTail 65535 0, .doorbell (.cxl 383) 4095 0, .queueReplace 4095, .handlerStart 255, .flowBoost 255 19 63
      , .flowBoost 255 19 255, .taskCommit 255 19, .enginePartLanded 0 0 3, .pageWalk 31 4095 0 true, .tlbInval 31 4095 0 0
      , .invalDone 31, .windowArrival 255 3 31 0, .uiRaise 255 19 31 0, .codeWinWrite 255 15 0, .istoreWrite 0 0x3FFFF [0]
      , .barWinCfgWrite 255 3 0, .serviceEntryDone 383 0 0 [], .ldBinding 15 1 0] : List Instr).all WellFormed = true := by decide

theorem test_wellFormed_refuses_events :
    ([.hbmStackReady 12, .sectionSelfTestPass 32, .portTrained (.eth 4), .portTrained (.cxl 2), .wyundPortTrained 18 0
      , .darnVerdict (.core 264) true true true, .partKeyErase 32, .vfDisable 384, .ldLinkDown 16, .batchSlotFree 1024
      , .cxlMemAccess 15 8 0 (.read 1), .cxlMemAccess 15 7 0 (.read 0), .inboundPeerRequest 0 31 0 (.write [])
      , .rdmaInbound 65536 0 (.read 1), .queueFeedTail 65536 0, .doorbell (.cxl 384) 0 0, .doorbell .hostComplex 4096 0
      , .doorbell (.queueFeed 65536) 0 0, .queueReplace 4096, .handlerStart 256, .flowBoost 255 20 0, .flowBoost 255 19 64
      , .taskCommit 0 20, .enginePartLanded 0 0 4, .pageWalk 32 0 0 true, .pageWalk 0 4096 0 true, .tlbInval 0 4096 0 0
      , .invalDone 32, .windowArrival 0 4 0 0, .windowArrival 0 0 32 0, .uiRaise 0 0 32 0, .codeWinWrite 0 16 0
      , .istoreWrite 0 0x40000 [0], .barWinCfgWrite 0 4 0, .serviceEntryDone 384 0 0 []
      , .serviceEntryDone 0 0 0 (List.replicate 65 0), .ldBinding 15 2 0] : List Instr).all (fun i => !WellFormed i) = true := by decide

theorem test_wellFormed_refuses_registers :
    ([.partCfg 32, .partCores 0 4, .vfBind 384, .batchWord0 1024, .peerGrant 256, .queueCfg 0 8, .hdmWindow 0 8 0 0
      , .qpBind 0 0 3, .amPort 0 16, .ctxSave 0 20, .trcCtl 256, .sectStatus 32] : List DevReg).all
      (fun r => !WellFormed (.registerWrite r 0)) = true := by decide

theorem test_wellFormed_refuses_commands :
    ([.loadCode 0 32 0 0 0 [] none, .loadCode 0 0 256 0 0 [] none, .loadCode 0 0 0 16 0 [] none, .createSpace 4096 0
      , .mapPage 4096 0 0 0, .unmapPage 0 0 5, .pageDataReady 4096 0 0, .configureRing 384 0 64] :
      List FwCommand).all (fun r => !WellFormed (.firmwareInterfaceCommand 0 0 r)) = true := by decide
/-! ### One step on a small state -/

/-- The state whose next step issues the words, with registers written first. -/
def before (ws : List Nat) (pre : List Write) : State :=
  (State.reset.withFetchWord (32 * ws.length) (ws.foldr (fun w n => w + 2 ^ 32 * n) 0)).updCc (fun k => k.writes pre)

/-- A register as a write names it. -/
def regOf (k : Ctx) (d : Dst) : Word :=
  match d with
  | .v r l => k.readV r l
  | .s r => k.readS r
  | .p n l => if k.readP n l then 1 else 0
  | .port p l => k.readPort p l
  | .scale g e => k.readScale g e

/-- After one step the registers hold the given values. -/
def gives (ws : List Nat) (pre post : List Write) : Bool :=
  match step (before ws pre) with
  | .next t => post.all (fun w => regOf t.cc w.dst == w.val)
  | _ => false

/-- Cause and DETAIL of the record that one step leaves. -/
def traps (ws : List Nat) (pre : List Write) : Option (Nat × Nat) :=
  match step (before ws pre) with
  | .next t => t.cc.stopped.map (fun r => (r.cause, r.detail))
  | _ => none

/-- The sum wraps (14 R267). -/
theorem test_sadd_wraps :
    gives [0x010C1080] [⟨.s 1, 0xFFFFFFFF⟩, ⟨.s 2, 2⟩]
      [⟨.s 3, 1⟩, ⟨.s 1, 0xFFFFFFFF⟩] = true := by decide

/-- The imm6 0x3F is −1 (14 R266). -/
theorem test_saddImm_negative :
    gives [0x010C1FC1] [⟨.s 1, 5⟩]
      [⟨.s 3, 4⟩] = true := by decide

/-- 100 + 100 as i8 with SAT is 127 (14 R267; 12 R239). -/
theorem test_saddExt_saturates :
    gives [0x010C1082, 0x00020000] [⟨.s 1, 0x64⟩, ⟨.s 2, 0x64⟩]
      [⟨.s 3, 0x7F⟩] = true := by decide

/-- 1 − 2 (14 R267). -/
theorem test_ssub_wraps :
    gives [0x020C1080] [⟨.s 1, 1⟩, ⟨.s 2, 2⟩]
      [⟨.s 3, 0xFFFFFFFF⟩] = true := by decide

/-- The high half of (−2^31) × (−2^31) (14 R267). -/
theorem test_smulh_signed :
    gives [0x040C1080] [⟨.s 1, 0x80000000⟩, ⟨.s 2, 0x80000000⟩]
      [⟨.s 3, 0x40000000⟩] = true := by decide

/-- −7 ÷ 2 is −3 (14 R268). -/
theorem test_sdiv_truncates :
    gives [0x030C1082, 0x14000000] [⟨.s 1, 0xFFFFFFF9⟩, ⟨.s 2, 2⟩]
      [⟨.s 3, 0xFFFFFFFD⟩] = true := by decide

/-- The remainder of −7 by 2 is −1 (14 R268). -/
theorem test_srem_sign :
    gives [0x030C1082, 0x24000000] [⟨.s 1, 0xFFFFFFF9⟩, ⟨.s 2, 2⟩]
      [⟨.s 3, 0xFFFFFFFF⟩] = true := by decide

/-- A zero divisor raises cause 0x12 with DETAIL 0x1 (14 R268). -/
theorem test_sdiv_by_zero :
    traps [0x030C1082, 0x14000000] [⟨.s 1, 7⟩] = some (0x12, 0x1) := by decide

/-- A count of 40 on a negative word gives −1 (14 R269). -/
theorem test_ssra_long :
    gives [0x0A0C1080] [⟨.s 1, 0x80000000⟩, ⟨.s 2, 0x28⟩]
      [⟨.s 3, 0xFFFFFFFF⟩] = true := by decide

/-- A count of 32 gives 0 (14 R269). -/
theorem test_sshr_long :
    gives [0x090C1080] [⟨.s 1, 0xFFFFFFFF⟩, ⟨.s 2, 0x20⟩]
      [⟨.s 3, 0⟩] = true := by decide

/-- As n32 the word −1 is the greater (14 R267). -/
theorem test_smin_unsigned :
    gives [0x0B0C1082, 0x05000000] [⟨.s 1, 0xFFFFFFFF⟩, ⟨.s 2, 7⟩]
      [⟨.s 3, 7⟩] = true := by decide

/-- −1 < 1 as i32 (14 R267; 13 R261). -/
theorem test_scmp_lt :
    gives [0x0D0C1082, 0x24000000] [⟨.s 1, 0xFFFFFFFF⟩, ⟨.s 2, 1⟩]
      [⟨.s 3, 1⟩] = true := by decide

/-- An old destination of 0 selects b (14 R270). -/
theorem test_ssel_old :
    gives [0x0E0C1080] [⟨.s 1, 8⟩, ⟨.s 2, 9⟩]
      [⟨.s 3, 9⟩] = true := by decide

/-- The n64 move copies the pair (14 R270). -/
theorem test_smov_pair :
    gives [0x0F102002, 0x07000000] [⟨.s 2, 1⟩, ⟨.s 3, 2⟩]
      [⟨.s 4, 1⟩, ⟨.s 5, 2⟩] = true := by decide

/-- The odd register of the pair, the even one unchanged (14 R271). -/
theorem test_slih :
    gives [0x11080002, 0x89ABCDEF] [⟨.s 2, 7⟩]
      [⟨.s 2, 7⟩, ⟨.s 3, 0x89ABCDEF⟩] = true := by decide

/-- The carry enters the odd register (14 R271). -/
theorem test_sadda_carries :
    gives [0x12102041] [⟨.s 2, 0xFFFFFFFF⟩, ⟨.s 3, 5⟩]
      [⟨.s 4, 0⟩, ⟨.s 5, 6⟩] = true := by decide

/-- Each lane adds its own values (15 R292). -/
theorem test_add_lanes :
    gives [0x280C1080] [⟨.v 1 0, 0xFFFFFFFF⟩, ⟨.v 2 0, 2⟩, ⟨.v 1 31, 5⟩, ⟨.v 2 31, 6⟩]
      [⟨.v 3 0, 1⟩, ⟨.v 3 31, 0xB⟩] = true := by decide

/-- A lane whose guard is false keeps its register (15 R289). -/
theorem test_add_guarded :
    gives [0x280C1090] [⟨.v 1 0, 1⟩, ⟨.v 1 1, 1⟩, ⟨.v 3 0, 9⟩, ⟨.v 3 1, 9⟩, ⟨.p 2 1, 1⟩]
      [⟨.v 3 0, 9⟩, ⟨.v 3 1, 1⟩] = true := by decide

/-- 300 × 300 as n16 with SAT (15 R292; 12 R239). -/
theorem test_mulExt_saturates :
    gives [0x2A0C1082, 0x03020000] [⟨.v 1 0, 0x12C⟩, ⟨.v 2 0, 0x12C⟩]
      [⟨.v 3 0, 0xFFFF⟩] = true := by decide

/-- The old destination is the addend (15 R292). -/
theorem test_mad_old :
    gives [0x2C0C1080] [⟨.v 1 0, 6⟩, ⟨.v 2 0, 7⟩, ⟨.v 3 0, 0xFFFFFFFE⟩]
      [⟨.v 3 0, 0x28⟩] = true := by decide

/-- −1 × 2 + 3 × 4 + 10 (15 R292). -/
theorem test_dp4_signed :
    gives [0x470C1080] [⟨.v 1 0, 0x3FF⟩, ⟨.v 2 0, 0x402⟩, ⟨.v 3 0, 0xA⟩]
      [⟨.v 3 0, 0x14⟩] = true := by decide

/-- A zero divisor in a lane raises cause 0x12 with DETAIL 0x2 (15 R293). -/
theorem test_div_by_zero :
    traps [0x2A0C1082, 0x14000000] [⟨.v 1 0, 7⟩] = some (0x12, 0x2) := by decide

/-- All 32 bits of zero lead (15 R294). -/
theorem test_clz_zero :
    gives [0x300C90C0] [⟨.v 9 1, 0x10000⟩]
      [⟨.v 3 0, 0x20⟩, ⟨.v 3 1, 0xF⟩] = true := by decide

/-- |−2^31| wraps to itself (15 R294). -/
theorem test_abs_least :
    gives [0x300C9040] [⟨.v 9 0, 0x80000000⟩, ⟨.v 9 1, 0xFFFFFFFB⟩]
      [⟨.v 3 0, 0x80000000⟩, ⟨.v 3 1, 5⟩] = true := by decide

/-- −(−128) as i8 with SAT is 127 (15 R294). -/
theorem test_negExt_saturates :
    gives [0x300C9082, 0x00020000] [⟨.v 9 0, 0xFFFFFF80⟩]
      [⟨.v 3 0, 0x7F⟩] = true := by decide

/-- Bits are counted (15 R294). -/
theorem test_popc :
    gives [0x300C9100] [⟨.v 9 0, 0xF00F0001⟩]
      [⟨.v 3 0, 9⟩] = true := by decide

/-- Bit i goes to bit 31 − i (15 R294). -/
theorem test_brev :
    gives [0x300C9140] [⟨.v 9 0, 0x80000002⟩]
      [⟨.v 3 0, 0x40000001⟩] = true := by decide

/-- A count of 255 on a negative lane gives −1, on a positive one 0 (15 R295; 14 R269). -/
theorem test_sra_long :
    gives [0x3D0C1080] [⟨.v 1 0, 0x80000000⟩, ⟨.v 2 0, 0xFF⟩, ⟨.v 1 1, 5⟩, ⟨.v 2 1, 0xFF⟩]
      [⟨.v 3 0, 0xFFFFFFFF⟩, ⟨.v 3 1, 0⟩] = true := by decide

/-- The count 33 rotates by 1 (15 R295). -/
theorem test_rot_mod :
    gives [0x3E0C1080] [⟨.v 1 0, 0x80000001⟩, ⟨.v 2 0, 0x21⟩]
      [⟨.v 3 0, 3⟩] = true := by decide

/-- Four bits from bit 8 (15 R296). -/
theorem test_bfe :
    gives [0x410C1080] [⟨.v 1 0, 0xABCDE⟩, ⟨.v 2 0, 0x408⟩]
      [⟨.v 3 0, 0xC⟩] = true := by decide

/-- A field that would leave the word is cut (15 R296). -/
theorem test_bfi_edge :
    gives [0x420C1080] [⟨.v 1 0, 0xFFFFFFFF⟩, ⟨.v 2 0, 0x81C⟩, ⟨.v 3 0, 0⟩]
      [⟨.v 3 0, 0xF0000000⟩] = true := by decide

/-- Lanes with a = b set p3 (15 R297). -/
theorem test_cmp_writes_predicate :
    gives [0x430C1080] [⟨.v 1 1, 1⟩]
      [⟨.p 3 0, 1⟩, ⟨.p 3 1, 0⟩] = true := by decide

/-- A write to p0 is discarded (15 R297). -/
theorem test_cmp_p0 :
    gives [0x43001080] [⟨.v 1 0, 1⟩]
      [⟨.p 0 0, 1⟩] = true := by decide

/-- Form 10 selects by the predicate C (15 R298). -/
theorem test_selExt_predicate :
    gives [0x440C1082, 0x05000080] [⟨.v 1 0, 1⟩, ⟨.v 2 0, 2⟩, ⟨.v 1 1, 1⟩, ⟨.v 2 1, 2⟩, ⟨.p 2 1, 1⟩]
      [⟨.v 3 0, 2⟩, ⟨.v 3 1, 1⟩] = true := by decide

/-- Every lane takes the word (15 R298). -/
theorem test_movi :
    gives [0x460C0002, 0xDEADBEEF] []
      [⟨.v 3 0, 0xDEADBEEF⟩, ⟨.v 3 31, 0xDEADBEEF⟩] = true := by decide

/-- 1 + 2^−24 rounds to 1 (15 R299; 12 R242). -/
theorem test_fadd_ties_even :
    gives [0x310C1080] [⟨.v 1 0, 0x3F800000⟩, ⟨.v 2 0, 0x33800000⟩]
      [⟨.v 3 0, 0x3F800000⟩] = true := by decide

/-- ∞ − ∞ is the canonical NaN (15 R299; 12 R241). -/
theorem test_fsub_inf :
    gives [0x320C1080] [⟨.v 1 0, 0x7F800000⟩, ⟨.v 2 0, 0x7F800000⟩]
      [⟨.v 3 0, 0x7FC00000⟩] = true := by decide

/-- 1.5 × −2 (15 R299). -/
theorem test_fmul :
    gives [0x330C1080] [⟨.v 1 0, 0x3FC00000⟩, ⟨.v 2 0, 0xC0000000⟩]
      [⟨.v 3 0, 0xC0400000⟩] = true := by decide

/-- 1 + 2^−24 under rz, and −1 − 2^-24 rounds to −1 (15 R299). -/
theorem test_fma_rz :
    gives [0x34101082, 0x08040240] [⟨.v 1 0, 0x3F800000⟩, ⟨.v 2 0, 0x33800000⟩, ⟨.v 9 0, 0x3F800000⟩]
      [⟨.v 4 0, 0x3F800000⟩] = true := by decide

/-- (1 + 2^−12)^2 − 1 keeps 2^−24 (15 R299). -/
theorem test_fma_once :
    gives [0x34101080] [⟨.v 1 0, 0x3F800800⟩, ⟨.v 2 0, 0x3F800800⟩, ⟨.v 4 0, 0xBF800000⟩]
      [⟨.v 4 0, 0x3A000400⟩] = true := by decide

/-- ne holds with a NaN (15 R300). -/
theorem test_fcmp_nan :
    gives [0x370C1082, 0x18000000] [⟨.v 1 0, 0x7FC00000⟩]
      [⟨.p 3 0, 1⟩, ⟨.p 3 1, 0⟩] = true := by decide

/-- −0.25 rounds to −0 (15 R301). -/
theorem test_frnd_sign :
    gives [0x390C1000] [⟨.v 1 0, 0xBE800000⟩, ⟨.v 1 1, 0x40200000⟩]
      [⟨.v 3 0, 0x80000000⟩, ⟨.v 3 1, 0x40000000⟩] = true := by decide

/-- 2^31 as f32 saturates to the greatest i32 (15 R302). -/
theorem test_cvt_saturates :
    gives [0x380C1002, 0x04800000] [⟨.v 1 0, 0x4F000000⟩, ⟨.v 1 1, 0xBFC00000⟩]
      [⟨.v 3 0, 0x7FFFFFFF⟩, ⟨.v 3 1, 0xFFFFFFFE⟩] = true := by decide

/-- 1 ÷ −0 is −∞ (15 R303). -/
theorem test_rcp_zero :
    gives [0x3A0C1000] [⟨.v 1 0, 0x80000000⟩, ⟨.v 1 1, 0x40800000⟩]
      [⟨.v 3 0, 0xFF800000⟩, ⟨.v 3 1, 0x3E800000⟩] = true := by decide

/-- The root of −1 is a NaN, of 2 the nearest word (15 R303). -/
theorem test_sqrt_negative :
    gives [0x3A0C1080] [⟨.v 1 0, 0xBF800000⟩, ⟨.v 1 1, 0x40000000⟩]
      [⟨.v 3 0, 0x7FC00000⟩, ⟨.v 3 1, 0x3FB504F3⟩] = true := by decide +kernel

/-- 2^−1 (15 R303). -/
theorem test_exp2 :
    gives [0x3A0C10C0] [⟨.v 1 0, 0xBF800000⟩]
      [⟨.v 3 0, 0x3F000000⟩, ⟨.v 3 1, 0x3F800000⟩] = true := by decide +kernel

/-- log2 of 8, and of 0 (15 R303). -/
theorem test_log2 :
    gives [0x3A0C1100] [⟨.v 1 0, 0x41000000⟩]
      [⟨.v 3 0, 0x40400000⟩, ⟨.v 3 1, 0xFF800000⟩] = true := by decide +kernel

/-- Every lane reads lane 5 (15 R306). -/
theorem test_shfl_idx_imm :
    gives [0x490C1141] [⟨.v 1 5, 0x55⟩]
      [⟨.v 3 0, 0x55⟩, ⟨.v 3 31, 0x55⟩] = true := by decide

/-- The index is that of the lowest active lane (15 R307). -/
theorem test_bcast_lowest :
    gives [0x4D0C1080] [⟨.v 2 0, 4⟩, ⟨.v 1 4, 0x44⟩, ⟨.v 2 1, 9⟩]
      [⟨.v 3 1, 0x44⟩, ⟨.v 3 31, 0x44⟩] = true := by decide

/-- Lane 0 reads lane 31, an index beyond the team the fill (15 R305). -/
theorem test_perm_reverse :
    gives [0x480C1080] [⟨.v 2 0, 0x1F⟩, ⟨.v 1 31, 7⟩, ⟨.v 2 1, 0x20⟩, ⟨.v 3 1, 6⟩]
      [⟨.v 3 0, 7⟩, ⟨.v 3 1, 6⟩] = true := by decide

/-- Bits of the lanes whose predicate is true (15 R308). -/
theorem test_vote_ballot :
    gives [0x4A0C2000] [⟨.p 2 0, 1⟩, ⟨.p 2 31, 1⟩]
      [⟨.v 3 0, 0x80000001⟩, ⟨.v 3 7, 0x80000001⟩] = true := by decide

/-- The sum over the span goes to every lane (15 R309). -/
theorem test_red_add :
    gives [0x4C0C1000] [⟨.v 1 0, 0xFFFFFFFF⟩, ⟨.v 1 9, 0xB⟩]
      [⟨.v 3 0, 0xA⟩, ⟨.v 3 31, 0xA⟩] = true := by decide

/-- A lane takes the sum up to itself (15 R309). -/
theorem test_scan_inclusive :
    gives [0x4B0C1000] [⟨.v 1 0, 1⟩, ⟨.v 1 2, 4⟩]
      [⟨.v 3 0, 1⟩, ⟨.v 3 1, 1⟩, ⟨.v 3 2, 5⟩] = true := by decide

/-- Within a group, cluster B mod 2 supplies the element (15). -/
theorem test_xmov_half :
    gives [0x4F0C1040] [⟨.v 1 17, 5⟩]
      [⟨.v 3 1, 5⟩, ⟨.v 3 17, 5⟩] = true := by decide
/-! ### Memory, barriers and matrix -/

/-- The state after one step from `before`, changed first. -/
def stepped (ws : List Nat) (pre : List Write) (f : State → State) : Option State :=
  match step (f (before ws pre)) with
  | .next t => some t
  | _ => none

/-- Bytes placed in the scratchpad of core 0, where the context's grant begins at 0. -/
def withSpad (at_ : Nat) (bs : List Byte) (s : State) : State :=
  s.updCore 0 (fun co => { co with spad := co.spad.writeBytes at_ bs })

/-- Bytes of the scratchpad of core 0. -/
def spadAt (s : State) (a n : Nat) : List Byte := (s.core 0).spad.readBytes a n

/-- The lowest byte of a word stands at the lowest address (00 R4; 16 R316). -/
theorem test_ld_s :
    (stepped [0x50182002, 0x00200040] [] (withSpad 64 [0x78, 0x56, 0x34, 0x12])).map
      (fun t => (t.cc.readV 6 0, t.cc.readV 6 31)) = some (0x12345678, 0x12345678) := by decide

/-- A lane whose address is no multiple of the width raises cause 0x06 (08 R149; 10 R205). -/
theorem test_ld_s_misaligned : traps [0x50182002, 0x00200040] [⟨.v 2 3, 2⟩] = some (6, 0) := by decide

/-- An access past the grant raises cause 0x0E (07). -/
theorem test_ld_s_past : (traps [0x50182002, 0x00200000] [⟨.v 2 3, 4096⟩]).map Prod.fst = some 0x0E := by decide

/-- A word is stored lowest byte first, and nothing past it (16 R317). -/
theorem test_st_s :
    (stepped [0x51042002, 0x00200008] [⟨.v 1 31, 0x12345678⟩] (withSpad 12 [0x55])).map
      (fun t => spadAt t 8 5) = some [0x78, 0x56, 0x34, 0x12, 0x55] := by decide +kernel

/-- Lanes at one address perform in ascending order: lane 31 receives the sum of the 31 before it (08; 16 R320). -/
theorem test_atom_s :
    (stepped [0x52182042, 0x00200000] ((List.range 32).map (fun l => ⟨.v 1 l, 1⟩)) (withSpad 0 [5])).map
      (fun t => (t.cc.readV 6 31, spadAt t 0 4)) = some (36, [37, 0, 0, 0]) := by decide +kernel

/-- A barrier object as `binit` leaves it (16 R329). -/
theorem test_binit :
    (stepped [0x55004200] [⟨.s 4, 64⟩, ⟨.s 8, 3⟩, ⟨.s 9, 5⟩] (withSpad 64 (List.replicate 32 0xFF))).map
      (fun t => spadAt t 64 32)
      = some [0,0,0,0, 3,0,0,0, 0,0,0,0, 5,0,0,0, 5,0,0,0, 0,0,0,0, 0,0,0,0, 0,0,0,0] := by decide

/-- A counting step carries the count past two phases, and takes T_ADJ off once (16 R328). -/
theorem test_barrier_counting :
    Barrier.count { phase := 7, texp := 3, tcnt := 2, bbase := 0, bexp := 0, bcnt := 0, tadj := 1 } 4 0
      = ({ phase := 9, texp := 2, tcnt := 1, bbase := 0, bexp := 0, bcnt := 0, tadj := 0 }, 2) := by decide

/-- `mzero` waits in the matrix queue and clears its tile when it completes (17). -/
theorem test_mzero :
    ((stepped [0x5F040000] [] (fun s => s.updCc (fun k => k.setTile 1 (fun m n => if m = 5 ∧ n = 5 then 3 else 0)))).bind (fun t =>
      match exec (.matrixOpComplete 0) t with
      | .next u => some ((t.core 0).mxQ.length, t.cc.tile 1 5 5, (u.core 0).mxQ.length, u.cc.tile 1 5 5)
      | _ => none)) = some (1, 3, 0, 0) := by decide +kernel

/-! ### Control and system -/

/-- Every lane takes the branch: the flow stands at the target (14 R273). -/
theorem test_bra_taken :
    (stepped [0x98000002, 0x00000140] [] id).map (fun t => ((t.cc.flow 255).pc, t.cc.seams.length)) = some (0x140, 0) := by decide

/-- The lanes whose predicate is true are the fewer: they leave as a fragment and the seam entry names it (05 R98, R100). -/
theorem test_bra_diverges :
    (stepped [0x98006012, 0x00000140] [⟨.p 2 4, 1⟩] id).map (fun t => [(t.cc.flow 255).pc, maskOf (t.cc.flow 255).masks 0])
      = some [8, 0xFFFFFFEF] := by decide
theorem test_bra_diverges_seam :
    (stepped [0x98006012, 0x00000140] [⟨.p 2 4, 1⟩] id).map (fun t => t.cc.seams.map (fun e => (e.addr, e.owner)))
      = some [(0x180, 255)] := by decide
theorem test_bra_diverges_fragment :
    (stepped [0x98006012, 0x00000140] [⟨.p 2 4, 1⟩] id).map (fun t =>
      t.cc.seams.map (fun e => ((t.cc.flow e.created).pc, maskOf (t.cc.flow e.created).masks 0))) = some [(0x140, 0x10)] := by decide

/-- `call` pushes the address after its two words (14 R277). -/
theorem test_call :
    (stepped [0x9A000002, 0x00000200] [] id).map (fun t => ((t.cc.flow 255).pc, t.cc.ras.map RetEntry.addr))
      = some (0x200, [8]) := by decide

/-- A `ret` with no entry raises cause 0x0A with DETAIL 0x3 (14 R277). -/
theorem test_ret_empty : traps [0x9C000000] [] = some (0x0A, 3) := by decide

/-- `trap sa` raises cause 0x10 with the register as DETAIL, `brk` cause 0x01 with DETAIL 0x1 (18 R375). -/
theorem test_trap : traps [0xF9004000] [⟨.s 4, 77⟩] = some (0x10, 77) := by decide
theorem test_brk : traps [0xFA000000] [] = some (1, 1) := by decide

/-- `uiret` outside a handler raises cause 0x02 with DETAIL 0x32 (18 R376). -/
theorem test_uiret : traps [0xFB000000] [] = some (2, 0x32) := by decide

/-- `uimask sd, 0` gives the old mask, all ones at a start, and clears it (18 R377). -/
theorem test_uimask :
    (stepped [0x7C0C0001] [] id).map (fun t => (t.cc.readS 3, t.cc.uimask)) = some (0xFFFF, 0) := by decide

/-- LANEID gives each active lane its number (11 R232; 14 R272). -/
theorem test_sgets_laneid :
    (stepped [0x130C0000] [] id).map (fun t => (t.cc.readV 3 0, t.cc.readV 3 31)) = some (0, 31) := by decide

/-- An unassigned MAJOR raises cause 0x02 (13 R257). -/
theorem test_unassigned_major : (traps [0x7E000000] []).map Prod.fst = some 2 := by decide

/-- A `collapse` of a team alone on its core leaves the SIMT decoder (14 R283). -/
theorem test_collapse :
    (stepped [0xA1000000] [⟨.v 3 20, 9⟩] (fun s => s.updCore 0 (fun co => { co with claims := [] }))).map
      (fun t => (t.cc.mode, t.cc.clusters, t.cc.readV 3 20)) = some (.vliw, 2, 9) := by decide

/-! ### Events -/

/-- What an event leaves of the state after reset. -/
def event {α : Type} (i : Instr) (f : State → State) (g : State → α) : Option α :=
  match exec i (f State.reset) with
  | .next t => some (g t)
  | _ => none

/-- The power cap stays within 800 to 2000 W (01). -/
theorem test_power_cap :
    event (.powerCapWrite 5000) id (fun t => t.mgmt.powerCap) = some 2000
    ∧ event (.powerCapWrite 0) id (fun t => t.mgmt.powerCap) = some 800 := by decide

/-- WYUND_ID is written once (01; 02). -/
theorem test_wyund_id :
    event (.wyundIdWrite 5) id (fun t => t.att.wyundId) = some 5
    ∧ event (.wyundIdWrite 5) (fun s => { s with att := { s.att with wyundSet := true, wyundId := 9 } }) (fun t => t.att.wyundId)
      = some 9 := by decide

/-- A section's self test sets its bit of SECT_READY (01 R15). -/
theorem test_section_ready : event (.sectionSelfTestPass 31) id (fun t => t.mgmt.sectReady) = some 0x80000000 := by decide

/-- A valid code window that a start refers to keeps its contents (03 R48). -/
theorem test_code_window :
    event (.codeWinWrite 0 1 0x0000000000001041) id (fun t => SMap.get {} (t.core 0).codeWin 1)
      = some { refs := 0, part := 0, len := 1, base := 1, valid := true }
    ∧ event (.codeWinWrite 0 1 0) (fun s => s.updCore 0 (fun co => { co with codeWin := [(1, { refs := 1, part := 0, len := 1, base := 1, valid := true })] }))
      (fun t => (SMap.get {} (t.core 0).codeWin 1).valid) = some true := by decide

/-- A user interrupt raised for a live context of its partition waits in UIPEND (10 R210). -/
theorem test_ui_raise :
    event (.uiRaise 0 2 0 15) (fun s => s.setCtx 0 2 { live := true }) (fun t => (t.ctx 0 2).uipend) = some 0x8000
    ∧ event (.uiRaise 0 2 1 15) (fun s => s.setCtx 0 2 { live := true }) (fun t => (t.ctx 0 2).uipend) = some 0 := by decide

/-- The module without power takes no step until power returns (01 R10, R12). -/
theorem test_no_power :
    (match step { State.reset with mgmt := { State.reset.mgmt with powered := false } } with
      | .fault .noPower => true
      | _ => false) = true := by decide

/-- CRC-64 of ECMA-182: the check value of the standard's nine digits (10 R214). -/
theorem test_crc64 : crc64 [0x31, 0x32, 0x33, 0x34, 0x35, 0x36, 0x37, 0x38, 0x39] = 0x6C40DF5F0B497347 := by decide +kernel

/-! ### Memory in canonical form -/

/-- A zero written removes the entry, and an equal memory is equal data (07 R146). -/
theorem test_memory_canonical :
    (Memory.empty.writeBytes 3 [1, 2]).wf = true ∧ (Memory.empty.writeBytes 3 [1, 2]).writeBytes 3 [0, 0] = Memory.empty := by decide

/-! ### States that meet the hypotheses of the statements -/

theorem simtReady_of {s : State} {n : Info}
    (h : (s.mayIssue s.cur.core s.cur.ctx s.cur.flow && s.cc.badLoad.isNone && !s.cc.vliw && (encodingCause n s.cc.simtPlace).isNone
      && (landingTrap (padKind n) s.cf.landing s.cf.pc).isNone && !s.cc.passHeld (opd n) (s.cf.inGroup n).pass
      && !s.releaseHolds s.cc (opd n) && !(accessPass (opd n).major && s.groupParked s.cur.core s.cur.ctx (s.cf.inGroup n).pass)) = true) : SimtReady s n := by
  simp only [Bool.and_eq_true, Bool.not_eq_true', Option.isNone_iff_eq_none] at h
  obtain ⟨⟨⟨⟨⟨⟨⟨a, b⟩, c⟩, d⟩, e⟩, f⟩, r⟩, g⟩ := h
  exact ⟨a, b, c, d, fun _ => e, f, r, fun i => by simpa [i] using g⟩

theorem vliwReady_of {s : State} {n : Info}
    (h : (s.mayIssue s.cur.core s.cur.ctx s.cur.flow && s.cc.badLoad.isNone && s.cc.vliw && decide (s.cur.flow = 255) && !s.cc.refill
      && (s.cc.opCause s s.cf.pc s.cur.slot (.ok n)).isNone && (landingTrap (padKind n) s.cf.landing s.cf.pc).isNone
      && !s.cc.bundleHeld [opd n] && !s.releaseHolds s.cc (opd n) && stageGuard s.cc (opd n)
      && (s.cc.delay.isSome || (s.cc.loops.getLast?.all (fun en => decide (en.stop ≠ s.cf.pc))))) = true) : VliwReady s n := by
  simp only [Bool.and_eq_true, Bool.not_eq_true', Bool.or_eq_true, Option.isNone_iff_eq_none, decide_eq_true_eq] at h
  obtain ⟨⟨⟨⟨⟨⟨⟨⟨⟨⟨a, b⟩, c⟩, d⟩, e⟩, f⟩, g⟩, i⟩, r⟩, j⟩, k⟩ := h
  refine ⟨a, b, c, d, e, f, g, i, r, j, k.imp id fun k en hn => ?_⟩
  simpa [hn] using k

theorem room_of {s : State} {n : Info} (h : decide (s.cc.undo.length
    + (undoKeys s.cc (opd n) (!s.cc.vliw) (s.opEnv n).group (s.opEnv n).slot).length ≤ Config.undoMax) = true) : s.undoRoom n :=
  by simpa [State.undoRoom] using h

/-- A team of one group on core 0, its lanes on, about to issue. -/
def team : State := State.reset.placed (placedCtx false) []

/-- A thread of eight clusters on core 0, an op of a bundle about to issue in a slot. -/
def thread (slot : Nat) : State :=
  { State.reset.placed (placedCtx true) [] with cur := { core := 0, ctx := 0, flow := 255, slot := slot } }

/-- Fields of an op word: D, A and B. -/
def fields (d a b : Nat) : OpF := ⟨false, BitVec.ofNat 6 d, BitVec.ofNat 6 a, BitVec.ofNat 6 b, 0, false⟩

/-- The fields of an op that ends its stop group. -/
def last (d a b : Nat) : OpF := { fields d a b with s := true }

/-- Layout X with SUB, TYPE, TYPE2 and C, and layout M with SUB, SPACE, SCOPE, WIDTH and OFFSET. -/
def extX (sub ty ty2 c : Nat) : ExtX :=
  ⟨BitVec.ofNat 4 sub, BitVec.ofNat 4 ty, BitVec.ofNat 4 ty2, 0, false, false, 0, false, BitVec.ofNat 6 c, 0⟩
def extM (sub space scope width off : Nat) : ExtM :=
  ⟨BitVec.ofNat 4 sub, BitVec.ofNat 2 space, BitVec.ofNat 3 scope, BitVec.ofNat 3 width, false, 0, false, 0, false, BitVec.ofNat 12 off⟩

theorem meets_ScalarWordResults : ∃ (s : State) (i : Instr) (n : Info) (ws : List Write), WellFormed i = true ∧ info i = some n ∧
    scalarWord (s.opEnv n).k i = some ws ∧ Ready s n ∧ s.undoRoom n :=
  ⟨team, .sadd (fields 3 1 2), _, _, by decide, rfl, rfl, .inl (simtReady_of (by decide)), room_of (by decide)⟩

theorem meets_ScalarWordResults_thread : ∃ (s : State) (i : Instr) (n : Info) (ws : List Write), WellFormed i = true ∧ info i = some n ∧
    scalarWord (s.opEnv n).k i = some ws ∧ Ready s n ∧ s.undoRoom n :=
  ⟨thread 10, .sadd (fields 3 1 2), _, _, by decide, rfl, rfl, .inr (vliwReady_of (by decide)), room_of (by decide)⟩

theorem meets_ScalarTypedResults : ∃ (s : State) (i : Instr) (n : Info) (ws : List Write), WellFormed i = true ∧ info i = some n ∧
    scalarTyped (s.opEnv n).k i = some ws ∧ Ready s n ∧ s.undoRoom n :=
  ⟨team, .saddExt (fields 3 1 2) (extX 0 0 0 0), _, _, by decide, rfl, rfl, .inl (simtReady_of (by decide)), room_of (by decide)⟩

theorem meets_LaneWordResults : ∃ (s : State) (i : Instr) (n : Info) (f : OpF) (o : WordOp) (b : SrcB), WellFormed i = true ∧
    info i = some n ∧ laneWordOp i = some (f, o, b) ∧ Ready s n ∧ s.undoRoom n :=
  ⟨team, .add (fields 3 1 2), _, _, _, _, by decide, rfl, rfl, .inl (simtReady_of (by decide)), room_of (by decide)⟩

theorem meets_LaneWordResults_thread : ∃ (s : State) (i : Instr) (n : Info) (f : OpF) (o : WordOp) (b : SrcB), WellFormed i = true ∧
    info i = some n ∧ laneWordOp i = some (f, o, b) ∧ Ready s n ∧ s.undoRoom n :=
  ⟨thread 0, .addPort (fields 3 1 0x3C), _, _, _, _, by decide, rfl, rfl, .inr (vliwReady_of (by decide)), room_of (by decide)⟩

theorem meets_LaneTypedResults : ∃ (s : State) (i : Instr) (n : Info) (f : OpF) (x : ExtX) (v : Nat → Nat), WellFormed i = true ∧
    info i = some n ∧ (∀ l ∈ (s.opEnv n).lanes, laneTyped (s.opEnv n).k i l = some (f, x, v l)) ∧ (s.opEnv n).lanes ≠ [] ∧
    Ready s n ∧ s.undoRoom n :=
  ⟨team, .addExt (fields 3 1 2) (extX 0 0 0 0), _, fields 3 1 2, extX 0 0 0 0, fun _ => 0, by decide, rfl, by decide, by decide,
    .inl (simtReady_of (by decide)), room_of (by decide)⟩

theorem meets_LaneComparisons : ∃ (s : State) (i : Instr) (n : Info) (f : OpF) (v : Nat → Bool), WellFormed i = true ∧
    info i = some n ∧ (∀ l ∈ (s.opEnv n).lanes, laneCompare (s.opEnv n).k i l = some (f, v l)) ∧ (s.opEnv n).lanes ≠ [] ∧
    Ready s n ∧ s.undoRoom n :=
  ⟨team, .cmp (fields 3 1 2), _, fields 3 1 2, fun _ => true, by decide, rfl, by decide, by decide,
    .inl (simtReady_of (by decide)), room_of (by decide)⟩

theorem meets_LaneFloatResults :
    (∃ (s : State) (i : Instr) (n : Info) (f : OpF) (o : FloatOp) (x : Option ExtX) (port : Bool), WellFormed i = true ∧
      info i = some n ∧ laneFloatOp i = some (f, o, x, port) ∧ Ready s n ∧ s.undoRoom n)
    ∧ (∃ (s : State) (f : OpF) (x : ExtX) (n : Info), info (.cvt f x) = some n ∧ Ready s n ∧ s.undoRoom n)
    ∧ ∃ (s : State) (f : OpF) (imm : Word) (n : Info), info (.movi f imm) = some n ∧ Ready s n ∧ s.undoRoom n :=
  ⟨⟨team, .fadd (fields 3 1 2), _, _, _, _, _, by decide, rfl, rfl, .inl (simtReady_of (by decide)), room_of (by decide)⟩,
    ⟨team, fields 3 1 0, extX 0 4 8 0, _, rfl, .inl (simtReady_of (by decide)), room_of (by decide)⟩,
    ⟨team, fields 3 0 0, 7, _, rfl, .inl (simtReady_of (by decide)), room_of (by decide)⟩⟩

theorem meets_LaneGathers : ∃ (s : State) (i : Instr) (n : Info) (f : OpF) (x : Option ExtX) (port : Bool) (src : Nat → Option Nat),
    WellFormed i = true ∧ info i = some n ∧ (∀ l, gatherOf (s.opEnv n) i l = some (f, x, port, src l)) ∧ Ready s n ∧ s.undoRoom n :=
  ⟨team, .shflImm (fields 3 1 5), _, _, _, _, _, by decide, rfl, fun _ => rfl, .inl (simtReady_of (by decide)), room_of (by decide)⟩

theorem meets_LaneReductions :
    (∃ (s : State) (i : Instr) (n : Info) (f : OpF) (sub : Nat) (v : Nat → Bool), WellFormed i = true ∧ info i = some n ∧
      voteOf (s.opEnv n) i = some (f, sub, v) ∧ Ready s n ∧ s.undoRoom n)
    ∧ (∃ (s : State) (i : Instr) (n : Info) (f : OpF) (port : Bool) (ty : BitVec 4) (sub mode : Nat) (sat scans : Bool),
      WellFormed i = true ∧ info i = some n ∧ reduceOf i = some (f, port, ty, sub, mode, sat, scans) ∧ Ready s n ∧ s.undoRoom n)
    ∧ ∃ (s : State) (f : OpF) (n : Info), info (.xmov f) = some n ∧ Ready s n ∧ s.undoRoom n :=
  ⟨⟨team, .vote (fields 3 2 0), _, _, _, _, by decide, rfl, rfl, .inl (simtReady_of (by decide)), room_of (by decide)⟩,
    ⟨team, .red (fields 3 1 0), _, _, _, _, _, _, _, _, by decide, rfl, rfl, .inl (simtReady_of (by decide)), room_of (by decide)⟩,
    ⟨team, fields 3 1 1, _, rfl, .inl (simtReady_of (by decide)), room_of (by decide)⟩⟩

theorem meets_SampleResults : ∃ (s : State) (i : Instr) (n : Info) (f : OpF) (carry : Option (BitVec 6)), WellFormed i = true ∧
    info i = some n ∧ (i = .sample f ∧ carry = none ∨ ∃ x : ExtX, i = .sampleExt f x ∧ carry = (if x.sub = 1 then some x.c else none)) ∧
    Ready s n ∧ s.undoRoom n :=
  ⟨team, .sample (fields 4 1 2), _, fields 4 1 2, none, by decide, rfl, .inl ⟨rfl, rfl⟩, .inl (simtReady_of (by decide)), room_of (by decide)⟩

theorem meets_SampleResults_carry : ∃ (s : State) (i : Instr) (n : Info) (f : OpF) (carry : Option (BitVec 6)), WellFormed i = true ∧
    info i = some n ∧ (i = .sample f ∧ carry = none ∨ ∃ x : ExtX, i = .sampleExt f x ∧ carry = (if x.sub = 1 then some x.c else none)) ∧
    Ready s n ∧ s.undoRoom n :=
  ⟨team, .sampleExt (fields 4 1 2) (extX 1 8 0 8), _, fields 4 1 2, some 8, by decide, rfl, .inr ⟨_, rfl, rfl⟩,
    .inl (simtReady_of (by decide)), room_of (by decide)⟩

theorem meets_SpecialRegisterReads :
    (∃ (s : State) (f : OpF) (n : Info) (v : Word), info (.sgets f) = some n ∧ Ready s n ∧ s.undoRoom n ∧
      specialWord (s.opState n) (s.opEnv n) f.a.toNat = some v)
    ∧ (∃ (s : State) (f : OpF) (n : Info), info (.sgets f) = some n ∧ f.a.toNat ≤ 1 ∧ Ready s n ∧ s.undoRoom n)
    ∧ ∃ (s : State) (f : OpF) (n : Info), info (.sgets f) = some n ∧ f.a.toNat = 0x15 ∧ Ready s n ∧ s.undoRoom n ∧
      s.cc.loadLog.length < Config.loadLogMax :=
  ⟨⟨team, fields 3 0x20 0, _, _, rfl, .inl (simtReady_of (by decide)), room_of (by decide), rfl⟩,
    ⟨team, fields 3 1 0, _, rfl, by decide, .inl (simtReady_of (by decide)), room_of (by decide)⟩,
    ⟨team, fields 3 0x15 0, _, rfl, by decide, .inl (simtReady_of (by decide)), room_of (by decide), by decide⟩⟩

theorem meets_SpecialRegisterWrites : ∃ (s : State) (f : OpF) (n : Info) (k' : Ctx), info (.ssets f) = some n ∧ Ready s n ∧
    s.undoRoom n ∧ (f.d = 0x1A ∨ f.d = 0x1B → s.cc.spilled = 0 ∧ s.cc.stackSpilled = 0 ∧ s.cc.rasSpilled = 0) ∧
    withSetting s.cc s.cycle f.d.toNat ((s.opEnv n).k.readS f.a.toNat) = some k' :=
  ⟨team, fields 0x1B 3 0, _, _, rfl, .inl (simtReady_of (by decide)), room_of (by decide), by decide, rfl⟩

/-- A team with lane 0 alone on, and a page of its address space 0 mapped at address 0: the tables stand in frame 256, which
partition 0 owns. -/
def mapped : State :=
  let k : Ctx := { placedCtx false with flows := [(255, { masks := [(0, 1)] })] }
  let s := State.reset.placed k []
  let put : Nat → Nat → Memory → Memory := fun a v m => m.writeBytes a (leBytes 8 v)
  { s with
    mem := ((((((Memory.empty.write 256 0x80) |> put 0x1000000 0x1001001) |> put 0x1001000 0x1002001) |> put 0x1002000 0x1003001)
      |> put 0x1003000 0x1004001) |> put 0x1004000 0x1005007)
    mgmt := { s.mgmt with funcReady := 0xFFFFFFFFFFFFFFFF }
    aspaces := [(0, { root := 0x1000000, part := 0, valid := true })] }

/-- The accesses that the lanes of an instruction locate. -/
def located (s : State) (n : Info) (kind : AccKind) : State × Except Trap (List Acc) := (s.opEnv n).locateAll kind (s.opState n)

def accesses (s : State) (n : Info) (kind : AccKind) : List Acc :=
  match (located s n kind).2 with
  | .ok as => as
  | .error _ => []

theorem located_eq {s : State} {n : Info} {kind : AccKind}
    (h : (match (located s n kind).2 with
      | .ok _ => true
      | .error _ => false) = true) :
    (s.opEnv n).locateAll kind (s.opState n) = ((located s n kind).1, .ok (accesses s n kind)) := by
  unfold accesses
  split at h
  · next as e => exact Prod.ext rfl e
  · simp at h

/-- Every access is one piece of HBM. -/
def onePiece (as : List Acc) : Bool :=
  as.all (fun a => match a.spots with
    | [(.mem _ _, _)] => true
    | _ => false)

theorem onePiece_spec {as : List Acc} (h : onePiece as = true) : ∀ a ∈ as, ∃ pa va m, a.spots = [(.mem pa va, m)] := by
  intro a ha
  have := List.all_eq_true.mp h a ha
  split at this
  · next pa va m e => exact ⟨pa, va, m, e⟩
  · simp at this

theorem meets_ScratchpadLoads : ∃ (s : State) (i : Instr) (n : Info) (m : MemForm), WellFormed i = true ∧ info i = some n ∧
    loadForm i = some m ∧ m.space = 0 ∧ Ready s n ∧ s.undoRoom n ∧ NothingPending s n ∧
    ∀ l ∈ (s.opEnv n).lanes, m.inGrant (s.opEnv n).k l :=
  ⟨team, .ldExt (fields 4 2 0) (extM 0 0 0 4 0xF0), _, _, by decide, rfl, rfl, by decide, .inl (simtReady_of (by decide)),
    room_of (by decide), ⟨rfl, rfl, fun g h => by cases h; rfl⟩, by unfold MemForm.inGrant; decide⟩

theorem meets_GlobalLoadsIssue :
    (∃ (s s1 : State) (i : Instr) (n : Info) (m : MemForm) (as : List Acc), WellFormed i = true ∧
      info i = some n ∧ loadForm i = some m ∧ (m.space = 2 ∨ m.space = 3) ∧ Ready s n ∧ s.undoRoom n ∧ AllInMemory s n .load s1 as ∧
      s1.cc = (s.opState n).cc ∧ s1.sent = s.sent ∧ s.cc.loadLog.length + (s.opEnv n).lanes.length ≤ Config.loadLogMax)
    ∧ ∃ (s : State) (i : Instr) (n : Info) (m : MemForm) (peer : Nat → Nat × Nat), WellFormed i = true ∧ info i = some n ∧
      loadForm i = some m ∧ m.space = 1 ∧ Ready s n ∧ s.undoRoom n ∧ NothingPending s n ∧
      s.cc.loadLog.length + (s.opEnv n).lanes.length ≤ Config.loadLogMax ∧
      ∀ l ∈ (s.opEnv n).lanes, m.inPeer (s.opState n) (s.opEnv n).k l (peer l) :=
  ⟨⟨mapped, _, .ld (fields 4 2 0), _, _, _, by decide, rfl, rfl, by decide, .inl (simtReady_of (by decide)),
      room_of (by decide), ⟨located_eq (by decide +kernel), onePiece_spec (by decide +kernel), by decide +kernel,
        fun _ => ⟨by decide +kernel, by decide +kernel⟩⟩, by decide +kernel, by decide +kernel, by decide⟩,
    ⟨team, .ldExt (fields 4 2 0) (extM 0 1 0 4 0xF0), _, _, fun _ => (0, 0), by decide, rfl, rfl, by decide,
      .inl (simtReady_of (by decide)), room_of (by decide), ⟨rfl, rfl, fun g h => by cases h; rfl⟩, by decide,
      by unfold MemForm.inPeer; decide⟩⟩

theorem meets_ScratchpadStores : ∃ (s : State) (i : Instr) (n : Info) (m : MemForm), WellFormed i = true ∧ info i = some n ∧
    storeForm i = some m ∧ m.space = 0 ∧ Ready s n ∧ (∀ l ∈ (s.opEnv n).lanes, m.inGrant (s.opEnv n).k l) ∧
    s.cc.undo.length + (s.opEnv n).lanes.length * ((m.bytes + 3) / 4) ≤ Config.undoMax ∧ Out.isNext (exec i s) = true :=
  ⟨team, .stExt (fields 4 2 0) (extM 0 0 0 4 0xF0), _, _, by decide, rfl, rfl, by decide, .inl (simtReady_of (by decide)),
    by unfold MemForm.inGrant; decide, by decide, by decide +kernel⟩

theorem meets_GlobalStoresBuffer :
    (∃ (s s1 : State) (i : Instr) (n : Info) (m : MemForm) (as : List Acc), WellFormed i = true ∧
      info i = some n ∧ storeForm i = some m ∧ (m.space = 2 ∨ m.space = 3) ∧ Ready s n ∧ s.undoRoom n ∧ AllInMemory s n .store s1 as ∧
      s1.cc = (s.opState n).cc ∧ s.cc.tack.length + as.length ≤ Config.tackMax)
    ∧ ∃ (s : State) (i : Instr) (n : Info) (m : MemForm) (peer : Nat → Nat × Nat), WellFormed i = true ∧ info i = some n ∧
      storeForm i = some m ∧ m.space = 1 ∧ s.cc.task = none ∧ Ready s n ∧ s.undoRoom n ∧
      s.cc.tack.length + (s.opEnv n).lanes.length ≤ Config.tackMax ∧
      ∀ l ∈ (s.opEnv n).lanes, m.inPeer (s.opState n) (s.opEnv n).k l (peer l) :=
  ⟨⟨mapped, _, .st (fields 4 2 0), _, _, _, by decide, rfl, rfl, by decide, .inl (simtReady_of (by decide)),
      room_of (by decide), ⟨located_eq (by decide +kernel), onePiece_spec (by decide +kernel), by decide +kernel,
        fun h => absurd rfl h⟩, by decide +kernel, by decide +kernel⟩,
    ⟨team, .stExt (fields 4 2 0) (extM 0 1 0 4 0xF0), _, _, fun _ => (0, 0), by decide, rfl, rfl, by decide, by decide,
      .inl (simtReady_of (by decide)), room_of (by decide), by decide, by unfold MemForm.inPeer; decide⟩⟩

theorem meets_ScratchpadAtomics : ∃ (s : State) (i : Instr) (n : Info) (m : MemForm) (returns : Bool), WellFormed i = true ∧
    info i = some n ∧ atomForm i = some (m, returns) ∧ m.space = 0 ∧ Ready s n ∧ OwnStoresDone s ∧
    (∀ l ∈ (s.opEnv n).lanes, m.inGrant (s.opEnv n).k l) ∧
    s.cc.undo.length + (undoKeys s.cc (opd n) (!s.cc.vliw) (s.opEnv n).group (s.opEnv n).slot).length
      + 2 * (s.opEnv n).lanes.length ≤ Config.undoMax :=
  ⟨team, .atomExt (fields 4 2 6) (extM 0xA 0 1 2 0xFC), _, _, _, by decide, rfl, rfl, by decide, .inl (simtReady_of (by decide)),
    (fun t h => by cases h), by unfold MemForm.inGrant; decide, by decide⟩

theorem meets_GlobalAtomicsPerform_peer : ∃ (s : State) (i : Instr) (n : Info) (m : MemForm) (returns : Bool) (l : Nat)
    (p : Nat × Nat), WellFormed i = true ∧ info i = some n ∧ atomForm i = some (m, returns) ∧ m.space = 1 ∧ Ready s n ∧ Quiet s ∧
    Untraced s ∧ s.cc.task = none ∧ (s.opEnv n).lanes = [l] ∧ s.undoRoom n ∧ m.inPeer (s.opState n) (s.opEnv n).k l p :=
  ⟨mapped, .atomExt (fields 4 2 6) (extM 0 1 1 2 0xFC), _, _, _, 0, (0, 0), by decide, rfl, rfl, by decide,
    .inl (simtReady_of (by decide)), by unfold Quiet; decide, by unfold Untraced; decide, by decide, by decide, room_of (by decide),
    by unfold MemForm.inPeer; decide⟩

theorem meets_GlobalAtomicsPerform : ∃ (s s1 : State) (i : Instr) (n : Info) (m : MemForm) (returns : Bool) (l pa va : Nat),
    WellFormed i = true ∧ info i = some n ∧ atomForm i = some (m, returns) ∧ m.space = 2 ∧ SimtReady s n ∧ s.undoRoom n ∧ Quiet s ∧
    s.cc.task = none ∧ (s.core s.cur.core).trc.enable = false ∧ (s.opEnv n).lanes = [l] ∧ s1.cc = (s.opState n).cc ∧
    s1.core s.cur.core = { s1.core s.cur.core with trc := (s.core s.cur.core).trc } ∧
    AllInMemory s n .atomic s1 [{ lane := l, addr := va, spots := [(.mem pa va, m.bytes)] }] ∧
    s1.physCheck s.cc.part pa true = .ok ∧
    (pa + m.bytes ≤ s1.att.frameOwnerBase ∨ s1.att.frameOwnerBase + 12 * 2 ^ 20 ≤ pa) := by
  refine ⟨mapped, (located mapped ⟨0x52, 0, 0, fields 4 2 6, .none⟩ .atomic).1, .atom (fields 4 2 6), _, _, _, 0, 0x1005000, 0,
    by decide, rfl, rfl, by decide, simtReady_of (by decide), room_of (by decide), by unfold Quiet; decide, by decide, by decide,
    by decide, by decide +kernel, by decide +kernel, ⟨?_, onePiece_spec (by decide +kernel), by decide +kernel,
      fun _ => ⟨by decide +kernel, by decide +kernel⟩⟩, by decide +kernel, by decide +kernel⟩
  rw [located_eq (by decide +kernel)]
  exact congrArg _ (congrArg _ (by decide +kernel))

theorem meets_PrivateAddressesExported : ∃ (s : State) (f : OpF) (n : Info), info (.pexport f) = some n ∧ Ready s n ∧ s.undoRoom n ∧
    ∀ l ∈ (s.opEnv n).lanes, l < (s.opEnv n).k.windowLanes ∧
      ((s.opEnv n).k.readV f.a.toNat l).toNat < (s.opEnv n).k.privSz.toNat :=
  ⟨team.updCc (fun k => { k with privSz := 8 }), fields 4 2 0, _, rfl, .inl (simtReady_of (by decide)), room_of (by decide), by decide⟩

/-- A trap that an access met. -/
def trapOf (r : Except Trap (List Acc)) : Option Trap :=
  match r with
  | .ok _ => none
  | .error t => some t

theorem onlyWalked_of {s s1 : State} {n : Info} (h : s1 = s.opState n) : OnlyWalked s s1 n := by
  subst h
  obtain ⟨k, hk⟩ : ∃ k, s.opState n = s.setCtx s.cur.core s.cur.ctx k := by
    unfold State.opState
    split <;> exact ⟨_, rfl⟩
  have hc : (s.opState n).core s.cur.core = { s.core s.cur.core with ctxs := SMap.insert (s.core s.cur.core).ctxs s.cur.ctx k } := by
    rw [hk, State.core_setCtx]
  refine ⟨rfl, by rw [hk]; rfl, by rw [hk]; rfl, fun j => by rw [hk]; rfl, by rw [hc], by rw [hc], fun c => ?_⟩
  by_cases e : s.cur.core = c
  · rw [← e, hc]
  · rw [hk, State.setCtx, State.core_updCore_other _ _ e]

theorem refused_eq {s : State} {n : Info} {kind : AccKind} (h : (trapOf (located s n kind).2).isSome = true) :
    ∃ tr, (s.opEnv n).locateAll kind (s.opState n) = ((located s n kind).1, .error tr) ∧ trapOf (located s n kind).2 = some tr := by
  unfold trapOf at h ⊢
  split at h
  · simp at h
  · next tr e => exact ⟨tr, Prod.ext rfl e, rfl⟩

theorem meets_AccessTraps_misaligned : ∃ (s : State) (i : Instr) (n : Info) (m : MemForm) (kind : AccKind), WellFormed i = true ∧
    info i = some n ∧ AccessForm i m kind ∧ Ready s n ∧ Quiet s ∧ Untraced s ∧
    OnlyWalked s ((s.opEnv n).locateAll kind (s.opState n)).1 n ∧ ∃ l ∈ (s.opEnv n).lanes, m.addr (s.opEnv n).k l % m.bytes ≠ 0 :=
  ⟨team, .ldExt (fields 4 2 0) (extM 0 0 0 1 0xFFF), _, _, .load, by decide, rfl, .inl ⟨rfl, rfl⟩, .inl (simtReady_of (by decide)),
    by unfold Quiet; decide, by unfold Untraced; decide,
    onlyWalked_of (by decide +kernel), 31, by decide, by decide⟩

theorem meets_AccessTraps_outside : ∃ (s : State) (i : Instr) (n : Info) (m : MemForm) (kind : AccKind) (d : Nat),
    WellFormed i = true ∧ info i = some n ∧ AccessForm i m kind ∧ Ready s n ∧ Quiet s ∧ Untraced s ∧
    OnlyWalked s ((s.opEnv n).locateAll kind (s.opState n)).1 n ∧ (∀ l ∈ (s.opEnv n).lanes, m.addr (s.opEnv n).k l % m.bytes = 0) ∧
    (∀ tr, ((s.opEnv n).locateAll kind (s.opState n)).2 = .error tr → tr.cause ≠ 0x06) ∧
    (s.opEnv n).lanes.findSome? (fun l => m.outside (s.opState n) (s.opEnv n).k l) = some d := by
  refine ⟨team.updCc (fun k => { k with spadLen := 16 }), .stExt (fields 4 2 0) (extM 0 0 0 4 0xF0), _, _, .store, 1, by decide, rfl,
    .inr (.inl ⟨rfl, rfl⟩), .inl (simtReady_of (by decide)), by unfold Quiet; decide, by unfold Untraced; decide,
    onlyWalked_of (by decide +kernel), by decide, fun tr h => ?_, by decide +kernel⟩
  have e := congrArg trapOf h
  have c := congrArg (Option.map Trap.cause) e
  rw [show Option.map Trap.cause (trapOf _) = some 0x0E from by decide +kernel] at c
  simp only [trapOf, Option.map_some, Option.some.injEq] at c
  rw [← c]
  decide

theorem meets_AccessTraps_refused : ∃ (s s1 : State) (i : Instr) (n : Info) (m : MemForm) (kind : AccKind) (tr : Trap),
    WellFormed i = true ∧ info i = some n ∧ AccessForm i m kind ∧ Ready s n ∧ Quiet s ∧ Untraced s ∧
    (s.opEnv n).locateAll kind (s.opState n) = (s1, .error tr) ∧ OnlyWalked s s1 n ∧ s.cc.vliw = false ∧
    ((tr.cause = 0x07 ∨ tr.cause = 0x08) ∧ tr.detail = 0) ∧ (s.core s.cur.core).parked.length < 32 ∧ s.ringFull s.cur.core = false := by
  obtain ⟨tr, h, e⟩ := refused_eq (s := team) (n := ⟨0x50, 0, 0, fields 4 2 0, .none⟩) (kind := .load) (by decide +kernel)
  have c : Option.map (fun t : Trap => (t.cause, t.detail)) (some tr) = some (7, 0) := by rw [← e]; decide +kernel
  simp only [Option.map_some, Option.some.injEq, Prod.mk.injEq] at c
  exact ⟨team, _, .ld (fields 4 2 0), _, _, .load, tr, by decide, rfl, .inl ⟨rfl, rfl⟩, .inl (simtReady_of (by decide)),
    by unfold Quiet; decide, by unfold Untraced; decide, h, onlyWalked_of (by decide +kernel), by decide, ⟨.inl c.1, c.2⟩, by decide,
    by decide⟩

theorem meets_AccessTraps_stops : ∃ (s s1 : State) (i : Instr) (n : Info) (m : MemForm) (kind : AccKind) (tr : Trap),
    WellFormed i = true ∧ info i = some n ∧ AccessForm i m kind ∧ Ready s n ∧ Quiet s ∧ Untraced s ∧
    (s.opEnv n).locateAll kind (s.opState n) = (s1, .error tr) ∧ OnlyWalked s s1 n ∧
    ¬ ((tr.cause = 0x07 ∨ tr.cause = 0x08) ∧ tr.detail = 0) := by
  obtain ⟨tr, h, e⟩ := refused_eq (s := team) (n := ⟨0x50, 0, 2, fields 4 2 0, .m (extM 0 3 0 2 0)⟩) (kind := .load) (by decide +kernel)
  have c : Option.map (fun t : Trap => t.cause) (some tr) = some 0x0E := by rw [← e]; decide +kernel
  simp only [Option.map_some, Option.some.injEq] at c
  exact ⟨team, _, .ldExt (fields 4 2 0) (extM 0 3 0 2 0), _, _, .load, tr, by decide, rfl, .inl ⟨rfl, rfl⟩,
    .inl (simtReady_of (by decide)), by unfold Quiet; decide, by unfold Untraced; decide, h, onlyWalked_of (by decide +kernel),
    fun h => by rw [c] at h; exact absurd h.1 (by decide)⟩

theorem meets_NopsAndLandingPads : ∃ (s : State) (i : Instr) (n : Info), (∃ f, i = .nop f ∨ i = .lpadC f ∨ i = .lpadJ f) ∧
    info i = some n ∧ Ready s n ∧ s.undoRoom n :=
  ⟨team, .lpadJ (fields 0 0 0), _, ⟨_, .inr (.inr rfl)⟩, rfl, .inl (simtReady_of (by decide)), room_of (by decide)⟩

theorem meets_OrderingInstructions : ∃ (s : State) (i : Instr) (n : Info) (kind scope : Nat), WellFormed i = true ∧ info i = some n ∧
    orderForm i = some (kind, scope) ∧ Ready s n ∧ (s.opEnv n).first = true ∧ s.undoRoom n ∧ Quiet s ∧ Untraced s ∧
    NoneParked s ∧ s.cc.peerFailed = none :=
  ⟨team, .fence (fields 0 0 0), _, _, _, by decide, rfl, rfl, .inl (simtReady_of (by decide)), by decide, room_of (by decide),
    by unfold Quiet; decide, by unfold Untraced; decide, by unfold NoneParked; decide, by decide⟩

theorem meets_TackClosesTheInterval : ∃ (s : State) (f : OpF) (n : Info), info (.tack f) = some n ∧ Ready s n ∧
    (s.opEnv n).last = true ∧ Untraced s ∧ s.cc.task = none ∧ s.cc.held = [] ∧ s.cc.tack ≠ [] ∧
    ∀ st ∈ s.cc.tack, ∃ pa, st.dst = .mem pa ∧ s.physCheck s.cc.part pa true = .ok
      ∧ (pa + st.bytes.length ≤ s.att.frameOwnerBase ∨ s.att.frameOwnerBase + 12 * 2 ^ 20 ≤ pa) :=
  ⟨mapped.updCc (fun k => { k with tack := [⟨.mem 0x1005000, [1, 2, 3, 4], 0, 255⟩] }), last 0 0 0, _, rfl,
    .inl (simtReady_of (by decide)), by decide, by unfold Untraced; decide, by decide, by decide, by decide, fun st h =>
      ⟨0x1005000, by cases h with
        | head => exact ⟨rfl, by decide +kernel, by decide⟩
        | tail _ h => cases h⟩⟩

/-- A task of a grid with no write set and no other task, running in the team. -/
theorem meets_TackClosesTheInterval_task : ∃ (s : State) (f : OpF) (n : Info) (task : Nat), info (.tack f) = some n ∧ Ready s n ∧
    (s.opEnv n).last = true ∧ Untraced s ∧ s.cc.task = some task ∧ s.cc.held = [] ∧ s.cc.tack ≠ [] ∧
    (∀ st ∈ s.cc.tack, ∃ pa, st.dst = .mem pa ∧ s.physCheck s.cc.part pa true = .ok) ∧
    s.fullSlice task (s.cc.tack.flatMap (fun st => match st.dst with
      | .mem pa => wordsOf pa st.bytes.length
      | _ => [])) = none :=
  ⟨mapped.updCc (fun k => { k with task := some 1, tack := [⟨.mem 0x1005000, [1, 2, 3, 4], 0, 255⟩] }), last 0 0 0, _, 1, rfl,
    .inl (simtReady_of (by decide)), by decide, by unfold Untraced; decide, by decide, by decide, by decide, fun st h =>
      ⟨0x1005000, by cases h with
        | head => exact ⟨rfl, by decide +kernel⟩
        | tail _ h => cases h⟩, by decide +kernel⟩

theorem meets_BarrierObjectsBegin : ∃ (s : State) (i : Instr) (n : Info) (m : MemForm), WellFormed i = true ∧ info i = some n ∧
    objForm i = some (0, m) ∧ Ready s n ∧ (s.opEnv n).first = true ∧ s.cc.undo.length + 8 ≤ Config.undoMax ∧
    m.object (s.opEnv n).k % 32 = 0 ∧ m.object (s.opEnv n).k + 32 ≤ (s.opEnv n).k.spadLen :=
  ⟨team, .binitExt (fields 0 4 8) (extM 0 0 0 0 0x7E0), _, _, by decide, rfl, rfl, .inl (simtReady_of (by decide)), by decide,
    by decide, by decide, by decide⟩

theorem meets_BarrierArrivals : ∃ (s : State) (i : Instr) (n : Info) (kind : Nat) (m : MemForm) (c x off : Nat), WellFormed i = true ∧
    info i = some n ∧ objForm i = some (kind, m) ∧ (kind = 1 ∨ kind = 2) ∧ Ready s n ∧ (s.opEnv n).first = true ∧ s.undoRoom n ∧
    Quiet s ∧ Untraced s ∧ NoneParked s ∧ s.cc.peerFailed = none ∧ (m.space = 1 → s.cc.task = none) ∧
    ((s.opEnv n).k.readS m.f.b.toNat).toNat < 2 ^ 16 ∧ ObjectAt s (s.opEnv n).k m.space (m.object (s.opEnv n).k) c x off :=
  ⟨team.updCc (fun k => k.write ⟨.s 8, 0xFFFF⟩), .barrx (fields 3 4 8), _, _, _, 0, 0, 0, by decide, rfl, rfl, by decide,
    .inl (simtReady_of (by decide)), by decide, room_of (by decide), by unfold Quiet; decide, by unfold Untraced; decide,
    by unfold NoneParked; decide, by decide, by decide, by decide, by unfold ObjectAt; decide⟩

theorem meets_BarrierTests : ∃ (s : State) (f : OpF) (n : Info), info (.btest f) = some n ∧ Ready s n ∧ (s.opEnv n).first = true ∧
    s.undoRoom n ∧ NothingPending s n ∧ ((s.opEnv n).k.readS f.a.toNat).toNat % 32 = 0 ∧
    ((s.opEnv n).k.readS f.a.toNat).toNat + 32 ≤ (s.opEnv n).k.spadLen :=
  ⟨team.updCc (fun k => k.write ⟨.s 4, 0xFE0⟩), fields 3 4 8, _, rfl, .inl (simtReady_of (by decide)), by decide,
    room_of (by decide), ⟨rfl, rfl, fun g h => by cases h; rfl⟩, by decide, by decide⟩

/-- A phase that is over, and one that is not. -/
theorem meets_BarrierTests_phases :
    phaseOver { phase := 1, texp := 0, tcnt := 0, bbase := 0, bexp := 0, bcnt := 0, tadj := 0 } 0
    ∧ ¬ phaseOver { phase := 1, texp := 0, tcnt := 0, bbase := 0, bexp := 0, bcnt := 0, tadj := 0 } 1 := by
  unfold phaseOver; decide

theorem meets_BarrierWaits :
    (∃ (s : State) (i : Instr) (n : Info) (m : MemForm) (c x off : Nat), WellFormed i = true ∧ info i = some n ∧
      objForm i = some (3, m) ∧ Ready s n ∧ (s.opEnv n).first = true ∧ s.undoRoom n ∧ Quiet s ∧ Untraced s ∧
      NoneParked s ∧ s.cf.bwaitResult = none ∧ ObjectAt s (s.opEnv n).k m.space (m.object (s.opEnv n).k) c x off)
    ∧ ∃ (s : State) (c x f : Nat) (addr phase : Word) (dl : Option Word) (dst scope : Nat),
      ((s.ctx c x).flow f).wait = .bwait false addr phase dl dst scope ∧
      phaseOver (s.barrierAt c ((s.ctx c x).spadBase + addr.toNat)) phase ∧ ∀ p ∈ (s.core c).parked, p.ctx ≠ x :=
  ⟨⟨team, .bwaitExt (fields 3 4 8) (extM 1 0 1 0 32), _, _, 0, 0, 32, by decide, rfl, rfl, .inl (simtReady_of (by decide)),
      by decide, room_of (by decide), by unfold Quiet; decide, by unfold Untraced; decide, by unfold NoneParked; decide, by decide,
      by unfold ObjectAt; decide⟩,
    ⟨team.updCf (fun fl => { fl with wait := .bwait false 0 0xFFFFFFFF none 3 1 }), 0, 0, 255, 0, 0xFFFFFFFF, none, 3, 1,
      by decide, by unfold phaseOver; decide, by decide⟩⟩

theorem meets_TeamAndPatchBarriers :
    (∃ (s : State) (i : Instr) (n : Info) (patch : Bool) (scope : Nat), WellFormed i = true ∧ info i = some n ∧
      barForm i = some (patch, scope) ∧ Ready s n ∧ (s.opEnv n).first = true ∧ s.undoRoom n ∧ s.cf.bwaitResult = none ∧ Quiet s ∧
      Untraced s ∧ NoneParked s ∧ s.cc.peerFailed = none ∧ AloneInTeam s)
    ∧ (∃ (s : State) (i : Instr) (n : Info) (patch : Bool) (scope : Nat), WellFormed i = true ∧ info i = some n ∧
      barForm i = some (patch, scope) ∧ Ready s n ∧ (s.opEnv n).first = true ∧ s.undoRoom n ∧ s.cf.bwaitResult = some 0)
    ∧ ∃ (s : State) (c x : Nat) (patch : Bool), s.barrierDue c x patch = true :=
  ⟨⟨team, .tbar (fields 0 0 0), _, _, _, by decide, rfl, rfl, .inl (simtReady_of (by decide)), by decide, room_of (by decide),
      by decide, by unfold Quiet; decide, by unfold Untraced; decide, by unfold NoneParked; decide, by decide,
      by unfold AloneInTeam; decide⟩,
    ⟨{ (thread 8) with cores := (team.updCc (fun k => k)).cores }.updCc (fun k => { placedCtx true with
        flows := [(255, { masks := [(0, 1)], bwaitResult := some 0 })] }), .pbar (fields 0 0 0), _, _, _, by decide, rfl, rfl,
      .inr (vliwReady_of (by decide)), by decide, room_of (by decide), by decide⟩,
    ⟨team.updCf (fun fl => { fl with wait := .barrier false 1 }), 0, 0, false, by decide⟩⟩

/-- A layout word with base 0 and strides of 8 and 512 bytes. -/
def layout : LayoutWord := { base := 0, s0 := 8, s1 := 8, s2 := 8, swz := 0, orient := false }

/-- A queued operation of a kind on tile 1. -/
def queued (kind : MxKind) : MxOp :=
  { core := 0, ctx := 0, kind := kind, d := 1, a := 2, b := 3, ld := none, la := some layout, lb := none, off := 0, scalar := 0, sub := 0
    ty := 8, ty2 := 8, rnd := 0, sat := false, scales := [], batch := 0 }

/-- The team with an operation at the head of its core's matrix queue. -/
def queueing (o : MxOp) : State := team.updCore 0 (fun co => { co with mxQ := [o] })

theorem meets_MatrixOperationsQueue : ∃ (s : State) (i : Instr) (n : Info) (ts : List Nat) (os : List MxOperand), WellFormed i = true ∧
    info i = some n ∧ mxNames (s.opEnv n).k i = some (ts, os) ∧ Ready s n ∧ (s.opEnv n).first = true ∧
    (s.cc.vliw = true ∨ s.mxTeam s.cc = 0) ∧ s.undoRoom n ∧ Quiet s ∧ Untraced s ∧ (s.core s.cur.core).mxQ.length < 16 ∧
    (∀ p ∈ (s.core s.cur.core).mxQ, p.ctx ≠ s.cur.ctx) ∧ (s.core s.cur.core).tilesUse.length + ts.length ≤ 8 ∧
    s.cc.spilled = 0 ∧ ∀ o ∈ os, o.Fits s.cc.spadLen :=
  ⟨team, .mma (fields 7 8 12), _, _, _, by decide, rfl, rfl, .inl (simtReady_of (by decide)), by decide, by decide,
    room_of (by decide), by unfold Quiet; decide, by unfold Untraced; decide, by decide, by decide, by decide, by decide,
    by unfold MxOperand.Fits; decide +kernel⟩

theorem meets_MatrixOperationsQueue_thread : ∃ (s : State) (i : Instr) (n : Info) (ts : List Nat) (os : List MxOperand),
    WellFormed i = true ∧ info i = some n ∧ mxNames (s.opEnv n).k i = some (ts, os) ∧ Ready s n ∧ (s.opEnv n).first = true ∧
    (s.cc.vliw = true ∨ s.mxTeam s.cc = 0) ∧ s.undoRoom n ∧ Quiet s ∧ Untraced s ∧ (s.core s.cur.core).mxQ.length < 16 ∧
    (∀ p ∈ (s.core s.cur.core).mxQ, p.ctx ≠ s.cur.ctx) ∧ (s.core s.cur.core).tilesUse.length + ts.length ≤ 8 ∧
    s.cc.spilled = 0 ∧ ∀ o ∈ os, o.Fits s.cc.spadLen :=
  ⟨thread 12, .mzero (fields 1 0 0), _, _, _, by decide, rfl, rfl, .inr (vliwReady_of (by decide)), by decide, by decide,
    room_of (by decide), by unfold Quiet; decide, by unfold Untraced; decide, by decide, by decide, by decide, by decide,
    by intro o h; cases h⟩

theorem inGrant_of {o : MxOp} {len : Nat} {l : LayoutWord} (hk : o.kind = .mld ∨ o.kind = .mst) (ha : o.la = some l)
    (hb : o.lb = none) (hd : o.ld = none) (h : (MxOperand.mk l o.off false 8).Fits len) : InGrant o len := by
  refine ⟨fun l' e => ?_, fun l' e => by simp [hb] at e, fun l' e => by simp [hd] at e⟩
  obtain rfl : l = l' := by simpa [ha] using e
  rcases hk with hk | hk <;> exact ⟨by simp [hk], fun _ => h, by simp [hk]⟩

theorem meets_MatrixTileResults : ∃ (s : State) (c : Nat) (o : MxOp) (r : List MxOp), (s.core c).mxQ = o :: r ∧ o.core = c ∧
    (s.ctx c o.ctx).live = true ∧ (∃ p ∈ (s.ctx c o.ctx).flows, p.2.masks ≠ []) ∧ (s.core c).spad.wf = true ∧
    InGrant o (s.ctx c o.ctx).spadLen ∧ o.d < 8 ∧ o.a < 8 ∧ o.b < 8 ∧ (∀ p ∈ (s.ctx c o.ctx).tiles, p.1 < 32768) ∧
    (s.ctx c o.ctx).tiles.Pairwise (fun p q => p.1 < q.1) ∧
    (o.kind = .mld ∨ o.kind = .mma ∨ o.kind = .mmaq → o.la.isSome) ∧ (o.kind = .mma ∨ o.kind = .mmaq → o.lb.isSome) ∧
    ∃ m n v, mxElement (s.ctx c o.ctx) (s.core c).spad o m n = some v :=
  ⟨queueing (queued .mld), 0, queued .mld, [], rfl, rfl, by decide, by decide, by decide,
    inGrant_of (.inl rfl) rfl rfl rfl (by unfold MxOperand.Fits; decide +kernel), by decide, by decide, by decide, by decide,
    by decide, by decide, by decide, 63, 31, _, rfl⟩

theorem meets_MatrixScratchpadResults : ∃ (s : State) (c : Nat) (o : MxOp) (r : List MxOp) (m : Memory), (s.core c).mxQ = o :: r ∧
    o.core = c ∧ (s.ctx c o.ctx).live = true ∧ (∃ p ∈ (s.ctx c o.ctx).flows, p.2.masks ≠ []) ∧ (s.core c).spad.wf = true ∧
    InGrant o (s.ctx c o.ctx).spadLen ∧ (∀ x y, (s.ctx c o.ctx).tile o.d x y < 2 ^ 32) ∧
    mxStored (s.ctx c o.ctx) (s.core c).spad o = some m :=
  ⟨queueing (queued .mst), 0, queued .mst, [], _, rfl, rfl, by decide, by decide, by decide,
    inGrant_of (.inr rfl) rfl rfl rfl (by unfold MxOperand.Fits; decide +kernel), fun x y => BitVec.isLt _, rfl⟩

theorem meets_ScalesAndBatches :
    (∃ (s : State) (i : Instr) (n : Info) (f : OpF) (w : Nat) (off : Int), WellFormed i = true ∧ info i = some n ∧
      sclForm i = some (f, w, off) ∧ Ready s n ∧ (s.opEnv n).first = true ∧ s.undoRoom n ∧ NothingPending s n ∧
      ((((((s.opEnv n).k.readS f.a.toNat).toNat : Nat) : Int) + off) % 2 ^ 32).toNat % 2 ^ w = 0 ∧
      ((((((s.opEnv n).k.readS f.a.toNat).toNat : Nat) : Int) + off) % 2 ^ 32).toNat + 16 * 2 ^ w ≤ (s.opEnv n).k.spadLen)
    ∧ (∃ (s : State) (f : OpF) (n : Info), info (.mbatch f) = some n ∧ Ready s n ∧ (s.opEnv n).first = true ∧ s.undoRoom n)
    ∧ (∃ (s : State) (f : OpF) (n : Info), info (.mwait f) = some n ∧ Ready s n ∧ (s.opEnv n).first = true ∧ s.undoRoom n ∧
      ¬ notLater s.cc.batchNext (((s.opEnv n).k.readS f.a.toNat).setWidth 16).toNat ∧
      ∀ m ∈ openOf s, ¬ notLater m (((s.opEnv n).k.readS f.a.toNat).setWidth 16).toNat)
    ∧ ∃ (s : State) (f : OpF) (n : Info), info (.mwaitImm f) = some n ∧ Ready s n ∧ (s.opEnv n).first = true ∧ s.undoRoom n ∧
      (openOf s).length ≤ f.b.toNat :=
  ⟨⟨team, .sclExt (fields 1 4 3) (extM 0 0 0 1 0xFE0 |> fun m => { m with off := 0x7E0 }), _, _, _, _, by decide, rfl, rfl,
      .inl (simtReady_of (by decide)), by decide, room_of (by decide), ⟨rfl, rfl, fun g h => by cases h; rfl⟩, by decide, by decide⟩,
    ⟨team, fields 3 0 0, _, rfl, .inl (simtReady_of (by decide)), by decide, room_of (by decide)⟩,
    ⟨team.updCc (fun k => k.write ⟨.s 4, 0xFFFF⟩), fields 0 4 0, _, rfl, .inl (simtReady_of (by decide)), by decide,
      room_of (by decide), by unfold notLater; decide, by unfold notLater; decide⟩,
    ⟨team, fields 0 0 0, _, rfl, .inl (simtReady_of (by decide)), by decide, room_of (by decide), by decide⟩⟩

theorem meets_QueueStatus : ∃ (s : State) (f : OpF) (n : Info), info (.qstat f) = some n ∧ Ready s n ∧ (s.opEnv n).first = true ∧
    s.undoRoom n ∧ s.cc.eq.Pairwise (fun a b => a.1 < b.1) :=
  ⟨team, fields 3 4 0, _, rfl, .inl (simtReady_of (by decide)), by decide, room_of (by decide), by decide⟩

theorem meets_EngineCommandsIssue_noQueue : ∃ (s : State) (i : Instr) (n : Info), info i = some n ∧ Ready s n ∧
    (s.opEnv n).first = true ∧ s.undoRoom n ∧
    ((∃ f, i = .qfence f ∧ ((s.opEnv n).k.readS f.a.toNat).setWidth 4 = 0#4) ∨ ∃ f, i = .qfenceImm f ∧ f.b.setWidth 4 = 0#4) :=
  ⟨team, .qfence (fields 0 4 0), _, rfl, .inl (simtReady_of (by decide)), by decide, room_of (by decide), .inl ⟨_, rfl, by decide⟩⟩

/-- The team with the first bytes of its scratchpad given. -/
def described (bs : List Byte) : State := team.updCore 0 (fun co => { co with spad := co.spad.writeBytes 0 bs })

theorem meets_EngineCommandsIssue : ∃ (s : State) (i : Instr) (n : Info) (en : Entry), WellFormed i = true ∧ info i = some n ∧
    engineEntry s (s.opEnv n).k i = some en ∧ engineChecks (s.opState n) (s.opEnv n).k i ∧ Ready s n ∧
    (s.opEnv n).first = true ∧ s.undoRoom n ∧ NothingPending s n ∧ s.cc.held.length < Config.engMax ∧
    (closesInterval i → Quiet s ∧ Untraced s ∧ NoneParked s ∧ s.cc.peerFailed = none ∧ s.cc.task = none) :=
  ⟨team, .qfenceImm (fields 0 0 9), _, _, by decide, rfl, rfl, by unfold engineChecks; decide, .inl (simtReady_of (by decide)), by decide,
    room_of (by decide), ⟨rfl, rfl, fun g h => by cases h; rfl⟩, by decide, fun _ => ⟨by unfold Quiet; decide, by unfold Untraced; decide,
      by unfold NoneParked; decide, by decide, by decide⟩⟩

theorem meets_EngineCommandsIssue_send : ∃ (s : State) (i : Instr) (n : Info) (en : Entry), WellFormed i = true ∧ info i = some n ∧
    engineEntry s (s.opEnv n).k i = some en ∧ engineChecks (s.opState n) (s.opEnv n).k i ∧ closesInterval i ∧ Ready s n ∧
    (s.opEnv n).first = true ∧ s.undoRoom n ∧ NothingPending s n ∧ s.cc.held.length < Config.engMax ∧
    Quiet s ∧ Untraced s ∧ NoneParked s ∧ s.cc.peerFailed = none ∧ s.cc.task = none ∧ SMap.get [] s.cc.eq en.queue = [] ∧
    SMap.find? s.cc.eqStopped en.queue = none ∧ ∀ m, en.op ≠ .fence m :=
  ⟨team.updCc (fun k => k.write ⟨.s 4, 0xFE0⟩), .send (fields 0 4 6), _, _, by decide, rfl, rfl,
    ⟨by decide, by decide, by decide, by decide, by decide, fun o h => absurd (h.symm.trans (show _ = none by decide)) (by simp)⟩,
    .inr (.inl ⟨_, rfl⟩), .inl (simtReady_of (by decide)), by decide,
    room_of (by decide), ⟨rfl, rfl, fun g h => by cases h; rfl⟩, by decide, by unfold Quiet; decide, by unfold Untraced; decide,
      by unfold NoneParked; decide, by decide, by decide, by decide, by decide, fun m h => EngOp.noConfusion h⟩

/-- A copy whose descriptor is misaligned, one past the grant, and one with an element size of no row. -/
theorem meets_EngineCommandsIssue_copies :
    (∃ (s : State) (f : OpF) (n : Info), info (.cpy f) = some n ∧ Ready s n ∧ (s.opEnv n).first = true ∧ NothingPending s n ∧
      ((s.opEnv n).k.readS f.a.toNat).toNat % 32 ≠ 0)
    ∧ (∃ (s : State) (f : OpF) (n : Info), info (.cpy f) = some n ∧ Ready s n ∧ (s.opEnv n).first = true ∧ NothingPending s n ∧
      ((s.opEnv n).k.readS f.a.toNat).toNat % 32 = 0 ∧ (s.opEnv n).k.spadLen < ((s.opEnv n).k.readS f.a.toNat).toNat + 160)
    ∧ ∃ (s : State) (f : OpF) (n : Info), info (.cpy f) = some n ∧ Ready s n ∧ (s.opEnv n).first = true ∧ NothingPending s n ∧
      ((s.opEnv n).k.readS f.a.toNat).toNat % 32 = 0 ∧ ((s.opEnv n).k.readS f.a.toNat).toNat + 160 ≤ (s.opEnv n).k.spadLen ∧
      4 < fld (descBytes s (s.opEnv n).k ((s.opEnv n).k.readS f.a.toNat).toNat 160) 18 1 :=
  ⟨⟨team.updCc (fun k => k.write ⟨.s 4, 31⟩), fields 0 4 0, _, rfl, .inl (simtReady_of (by decide)), by decide,
      ⟨rfl, rfl, fun g h => by cases h; rfl⟩, by decide⟩,
    ⟨team.updCc (fun k => k.write ⟨.s 4, 0xF80⟩), fields 0 4 0, _, rfl, .inl (simtReady_of (by decide)), by decide,
      ⟨rfl, rfl, fun g h => by cases h; rfl⟩, by decide, by decide⟩,
    ⟨(described (List.replicate 18 0 ++ [5])).updCc (fun k => k.write ⟨.s 4, 0⟩), fields 0 4 0, _, rfl,
      .inl (simtReady_of (by decide)), by decide, ⟨rfl, rfl, fun g h => by cases h; rfl⟩, by decide, by decide, by decide +kernel⟩⟩

/-- A team in the last pass of an instruction. -/
theorem lastPass_of {s : State} {n : Info} (h1 : (s.opEnv n).last = true) (h2 : s.cf.masks = [(0, 0xFFFFFFFF)]) (h3 : s.cf.group = none)
    (h4 : ∀ l ∈ (s.opEnv n).lanes, l < 32) : LastPass s n := by
  refine ⟨h1, ?_, fun l h => ?_, fun g e => by simp [h3] at e⟩
  · rw [h2]; exact ⟨by simp, by simp⟩
  · simp only [judged, h3, Bool.or_false, List.contains_iff_mem] at h
    have : ∀ l, l < 32 → laneIn [(0, 0xFFFFFFFF)] l = true := by decide
    rw [h2]; exact this l (h4 l h)

/-- A branch of which some lanes take the way: predicate p2 of lane 4 is true. -/
def parted : State := team.updCc (fun k => k.write ⟨.p 2 4, 1⟩)

def guarded (d a b : Nat) : OpF := { last d a b with g := 2 }

theorem meets_SimtBranches : ∃ (s : State) (f : OpF) (imm : Word) (n : Info), WellFormed (.bra f imm) = true ∧
    info (.bra f imm) = some n ∧ SimtReady s n ∧ LastPass s n ∧ Untraced s ∧ takers s n ≠ [] ∧ stayers s n ≠ [] ∧
    s.cc.seams.length < 16 ∧ (s.core s.cur.core).freeFragment s.cur.ctx = some 0 :=
  ⟨parted, guarded 0 6 0, 0x140, _, by decide, rfl, simtReady_of (by decide), lastPass_of (by decide) rfl rfl (by decide),
    by unfold Untraced; decide, by decide +kernel, by decide +kernel, by decide, by decide⟩

theorem meets_SimtBranches_all : ∃ (s : State) (f : OpF) (imm : Word) (n : Info), WellFormed (.bra f imm) = true ∧
    info (.bra f imm) = some n ∧ SimtReady s n ∧ LastPass s n ∧ Untraced s ∧ takers s n ≠ [] ∧ stayers s n = [] :=
  ⟨team, last 0 0 0, 0x140, _, by decide, rfl, simtReady_of (by decide), lastPass_of (by decide) rfl rfl (by decide),
    by unfold Untraced; decide, by decide +kernel, by decide +kernel⟩

theorem meets_SimtBranches_none : ∃ (s : State) (f : OpF) (imm : Word) (n : Info), WellFormed (.bra f imm) = true ∧
    info (.bra f imm) = some n ∧ SimtReady s n ∧ LastPass s n ∧ Untraced s ∧ takers s n = [] :=
  ⟨team, guarded 0 6 0, 0x140, _, by decide, rfl, simtReady_of (by decide), lastPass_of (by decide) rfl rfl (by decide),
    by unfold Untraced; decide, by decide +kernel⟩

theorem meets_SimtIndirectBranches : ∃ (s : State) (f : OpF) (n : Info), info (.brx f) = some n ∧ SimtReady s n ∧ LastPass s n ∧
    Untraced s ∧ ((s.opEnv n).k.readS f.b.toNat).toNat < 2 ^ 18 ∧ ((s.opEnv n).k.readS f.b.toNat).toNat % 4 = 0 ∧
    (∀ l ∈ (s.opEnv n).lanes, ((s.opEnv n).k.readV f.a.toNat l).toNat % 4 = 0) ∧
    s.cc.seams.length + ((((List.range 1024).filter (laneIn s.cf.masks)).map (fun l =>
      if judged s n l then (s.opEnv n).k.readV f.a.toNat l else (s.opEnv n).addr + 4)).eraseDups).length ≤ 17 :=
  ⟨team.updCc (fun k => k.write ⟨.v 1 31, 0x100⟩), last 0 1 4, _, rfl, simtReady_of (by decide),
    lastPass_of (by decide) rfl rfl (by decide), by unfold Untraced; decide, by decide, by decide, by decide, by decide +kernel⟩

theorem meets_SimtCalls :
    (∃ (s : State) (f : OpF) (imm : Word) (n : Info), WellFormed (.call f imm) = true ∧ info (.call f imm) = some n ∧
      SimtReady s n ∧ (s.opEnv n).last = true ∧ RetRoom s.cc s.cur.flow)
    ∧ (∃ (s : State) (f : OpF) (n : Info) (a : Word), info (.callx f) = some n ∧ SimtReady s n ∧ LastPass s n ∧ Untraced s ∧
      RetRoom s.cc s.cur.flow ∧ (∃ l, laneIn s.cf.masks l = true) ∧
      (∀ l ∈ (s.opEnv n).lanes, ((s.opEnv n).k.readV f.a.toNat l).toNat % 4 = 0) ∧
      (∃ l, laneIn s.cf.masks l = true ∧ (s.opEnv n).k.readV f.a.toNat l = a) ∧
      ∀ l, laneIn s.cf.masks l = true → a.toNat ≤ ((s.opEnv n).k.readV f.a.toNat l).toNat)
    ∧ ∃ (s : State) (f : OpF) (n : Info) (e : RetEntry) (r : List RetEntry), info (.ret f) = some n ∧ SimtReady s n ∧
      (s.opEnv n).last = true ∧ Untraced s ∧ retStack s.cc s.cur.flow = e :: r ∧ e.addr.toNat % 4 = 0 :=
  ⟨⟨team, last 0 0 0, 0x140, _, by decide, rfl, simtReady_of (by decide), by decide, by unfold RetRoom; decide⟩,
    ⟨team.updCc (fun k => k.write ⟨.v 1 31, 0x100⟩), last 0 1 0, _, 0, rfl, simtReady_of (by decide),
      lastPass_of (by decide) rfl rfl (by decide), by unfold Untraced; decide, by unfold RetRoom; decide, ⟨31, by decide⟩, by decide,
      ⟨0, by decide, by decide⟩, fun l _ => Nat.zero_le _⟩,
    ⟨team.updCc (fun k => { k with ras := [{ addr := 0x40 }] }), last 0 0 0, _, { addr := 0x40 }, [], rfl, simtReady_of (by decide),
      by decide, by unfold Untraced; decide, by decide, by decide⟩⟩

/-- The team with a seam entry at its own address, a fragment numbered 0 waiting at the seam or still under way. -/
def seamed (w : Wait) : State :=
  team.updCc (fun k => { k with
    flows := [(0, { masks := [(0, 0xFF)], wait := w }), (255, { masks := [(0, 0xFFFFFF00)] })]
    seams := [{ addr := 0, owner := 255, created := 0, union := [(0, 0xFFFFFFFF)] }] })

theorem meets_SeamsYieldAndExit_seams :
    (∃ (s : State) (f : OpF) (n : Info), info (.seam f) = some n ∧ SimtReady s n ∧ (s.opEnv n).last = true ∧ Untraced s ∧
      s.cc.stackSpilled = 0 ∧ s.cc.seams.length ≤ 16 ∧ ∀ e, s.cc.innermost s.cur.flow = some e → e.addr ≠ (s.opEnv n).addr)
    ∧ ∀ w, (w = .seam ∨ w = .none) → ∃ (s : State) (f : OpF) (n : Info) (e : Seam) (other : Nat), info (.seam f) = some n ∧
      SimtReady s n ∧ (s.opEnv n).last = true ∧ Untraced s ∧ s.cc.stackSpilled = 0 ∧ s.cc.seams = [e] ∧ e.addr = (s.opEnv n).addr ∧
      e.deferred = .no ∧ e.created ≠ 0xFE ∧ (e.owner = s.cur.flow ∧ e.created = other) ∧ other ≠ s.cur.flow ∧ s.cf.masks ≠ [] ∧
      (s.cc.flow other).masks ≠ [] ∧ (s.cc.flow other).wait = w := by
  refine ⟨⟨team, last 0 0 0, _, rfl, simtReady_of (by decide), by decide, by unfold Untraced; decide, by decide, by decide,
    fun e h => ?_⟩, fun w h => ?_⟩
  · rw [show team.cc.innermost team.cur.flow = none by decide] at h; cases h
  · rcases h with rfl | rfl
    · exact ⟨seamed .seam, last 0 0 0, _, _, 0, rfl, simtReady_of (by decide), by decide, by unfold Untraced; decide, by decide, rfl,
        by decide, by decide, by decide, by decide, by decide, by decide, by decide, by decide⟩
    · exact ⟨seamed .none, last 0 0 0, _, _, 0, rfl, simtReady_of (by decide), by decide, by unfold Untraced; decide, by decide, rfl,
        by decide, by decide, by decide, by decide, by decide, by decide, by decide, by decide⟩

theorem meets_SeamsYieldAndExit_exits :
    (∃ (s : State) (f : OpF) (n : Info), info (.yield f) = some n ∧ Ready s n ∧ (s.opEnv n).last = true ∧ s.undoRoom n)
    ∧ (∃ (s : State) (f : OpF) (n : Info), info (.exit f) = some n ∧ SimtReady s n ∧ LastPass s n ∧ Quiet s ∧ Untraced s ∧
      NoneParked s ∧ stayers s n ≠ [])
    ∧ ∃ (s : State) (f : OpF) (n : Info), info (.exit f) = some n ∧ SimtReady s n ∧ LastPass s n ∧ stayers s n = [] ∧
      Quiet s ∧ Untraced s ∧ NoneParked s ∧ s.cur.flow = 255 ∧ (∀ p ∈ s.cc.flows, p.1 = 255) ∧ s.cc.seams = [] ∧
      s.cc.stackSpilled = 0 ∧ (∀ r ∈ s.cc.ras, r.service = none) ∧ s.cc.task = none ∧ (∀ q ∈ s.cc.eq, q.2 = []) ∧
      ∀ o ∈ (s.core s.cur.core).mxQ, o.ctx ≠ s.cur.ctx :=
  ⟨⟨team, last 0 0 0, _, rfl, .inl (simtReady_of (by decide)), by decide, room_of (by decide)⟩,
    ⟨parted, guarded 0 0 0, _, rfl, simtReady_of (by decide), lastPass_of (by decide) rfl rfl (by decide), by unfold Quiet; decide,
      by unfold Untraced; decide, by unfold NoneParked; decide, by decide +kernel⟩,
    ⟨team, last 0 0 0, _, rfl, simtReady_of (by decide), lastPass_of (by decide) rfl rfl (by decide), by decide +kernel,
      by unfold Quiet; decide, by unfold Untraced; decide, by unfold NoneParked; decide, by decide, by decide, by decide, by decide,
      by decide, by decide, by decide, by decide⟩⟩

theorem meets_DecoderChanges_collapse : ∃ (s : State) (i : Instr) (n : Info) (c b : Nat), info i = some n ∧
    ((∃ f, i = .collapse f ∧ c = 2) ∨ ∃ f, i = .collapseN f ∧ c = 2 ^ f.b.toNat) ∧ SimtReady s n ∧ (s.opEnv n).last = true ∧
    NoneParked s ∧ s.cur.flow = 255 ∧ s.cc.flows.length = 1 ∧ SMap.find? s.cc.flows 255 = some s.cf ∧ s.cc.seams = [] ∧
    s.cc.stackSpilled = 0 ∧ s.cc.handler = false ∧ s.cc.groups ≤ 1 ∧ (s.core s.cur.core).claims = [] ∧
    (s.core s.cur.core).eligibleBlock c = some b ∧
    (∀ x, b ≤ x → x < b + c → (s.core s.cur.core).bound x (some s.cur.ctx) = 0) ∧
    Ctx.blocksFor s.cc.nregs (16 * c) - s.cc.blocks ≤ (s.core s.cur.core).blocksFree := by
  refine ⟨team, .collapseN (last 0 0 2), _, 4, 0, rfl, .inr ⟨_, rfl, by decide⟩, simtReady_of (by decide), by decide,
    by unfold NoneParked; decide, by decide, by decide, by decide, by decide, by decide, by decide, by decide, by decide, by decide,
    fun x _ h => ?_, by decide⟩
  have : ∀ x, x < 4 → (team.core team.cur.core).bound x (some team.cur.ctx) = 0 := by decide
  exact this x (by omega)

theorem meets_DecoderChanges_expand : ∃ (s : State) (f : OpF) (n : Info) (a next : Word) (b : Bundle) (half : Bool) (mask : Word),
    info (.expand f) = some n ∧ VliwReady s n ∧ s.cc.loops = [] ∧ s.cc.stackSpilled = 0 ∧
    (s.opState n).fetchItem s.cur.core (s.opEnv n).k s.cf.pc = .ok (a, next, b) ∧ next.toNat % 4 = 0 ∧
    (mask, half) = s.cc.collapsed.getD (0xFFFFFFFF, false) ∧
    Ctx.blocksFor s.cc.nregs (if half then 16 else 32) ≤ s.cc.blocks + (s.core s.cur.core).blocksFree :=
  ⟨{ State.reset.placed (placedCtx true) [0x00, 0x88, 0x00, 0x00, 0x00, 0x22, 0x00, 0x00] with
      cur := { core := 0, ctx := 0, flow := 255, slot := 15 } }, fields 0 0 0, _, 0, 8, ⟨0x8000, [0x22000000]⟩, _, _, rfl,
    vliwReady_of (by decide +kernel), by decide, by decide, by decide +kernel, by decide, rfl, by decide⟩

theorem meets_VliwBranches :
    (∃ (s : State) (i : Instr) (n : Info), WellFormed i = true ∧ info i = some n ∧ VliwReady s n ∧ PlainBundle s ∧ s.undoRoom n ∧
      Untraced s ∧ ∃ f imm, i = .bra f imm ∧ braHolds (s.opEnv n).k f = true)
    ∧ (∃ (s : State) (i : Instr) (n : Info), WellFormed i = true ∧ info i = some n ∧ VliwReady s n ∧ PlainBundle s ∧ s.undoRoom n ∧
      Untraced s ∧ ∃ f imm, i = .bra f imm ∧ braHolds (s.opEnv n).k f = false)
    ∧ (∃ (s : State) (i : Instr) (n : Info), WellFormed i = true ∧ info i = some n ∧ VliwReady s n ∧ PlainBundle s ∧ s.undoRoom n ∧
      Untraced s ∧ ∃ f, i = .callx f ∧ s.cc.ras.length < 16 ∧ ((s.opEnv n).k.readS f.a.toNat).toNat % 4 = 0)
    ∧ (∃ (s : State) (i : Instr) (n : Info), WellFormed i = true ∧ info i = some n ∧ VliwReady s n ∧ PlainBundle s ∧ s.undoRoom n ∧
      Untraced s ∧ ∃ f e, i = .ret f ∧ s.cc.ras.getLast? = some e ∧ e.addr.toNat % 4 = 0)
    ∧ ∃ (s : State) (i : Instr) (n : Info), WellFormed i = true ∧ info i = some n ∧ VliwReady s n ∧ PlainBundle s ∧ s.undoRoom n ∧
      Untraced s ∧ ∃ f e, i = .lexit f ∧ s.cc.loops.getLast? = some e ∧ s.cc.stackSpilled = 0 ∧
      ((s.opState n).bundleAfter s.cur.core (s.opEnv n).k e.stop).toNat % 4 = 0 := by
  refine ⟨⟨thread 15, .bra (fields 0 0 0) 0x140, _, by decide, rfl, vliwReady_of (by decide), ?_, room_of (by decide),
      by unfold Untraced; decide, _, _, rfl, by decide⟩,
    ⟨thread 15, .bra (fields 0 4 1) 0x140, _, by decide, rfl, vliwReady_of (by decide), ?_, room_of (by decide),
      by unfold Untraced; decide, _, _, rfl, by decide⟩,
    ⟨thread 15, .callx (fields 0 4 0), _, by decide, rfl, vliwReady_of (by decide), ?_, room_of (by decide),
      by unfold Untraced; decide, _, rfl, by decide, by decide⟩,
    ⟨(thread 15).updCc (fun k => { k with ras := [{ addr := 0x40 }] }), .ret (fields 0 0 0), _, by decide, rfl,
      vliwReady_of (by decide), ?_, room_of (by decide), by unfold Untraced; decide, _, { addr := 0x40 }, rfl, by decide, by decide⟩,
    ⟨(thread 15).updCc (fun k => { k with loops := [⟨4, 0x40, 3, 1, false, 0, 0⟩] }), .lexit (fields 0 0 0), _, by decide, rfl,
      vliwReady_of (by decide), ?_, room_of (by decide), by unfold Untraced; decide, _, ⟨4, 0x40, 3, 1, false, 0, 0⟩, rfl, by decide,
      by decide, by decide +kernel⟩⟩
  all_goals unfold PlainBundle; decide

/-- A thread before a bundle of its own: a loop header in slot br, then bundles without ops. -/
def looping : State :=
  { State.reset.placed (placedCtx true) ([0x00, 0x88, 0x00, 0x00, 0x00, 0x1F, 0x02, 0x40, 0x00, 0x02, 0x20, 0x00] ++
      (List.replicate 6 [0x00, 0x80, 0x00, 0x00]).flatten) with
    cur := { core := 0, ctx := 0, flow := 255, slot := 15 } }

theorem meets_VliwLoops :
    (∃ (s : State) (f : OpF) (imm : Word) (n : Info), WellFormed (.loop f imm) = true ∧ info (.loop f imm) = some n ∧ VliwReady s n ∧
      PlainBundle s ∧ s.undoRoom n ∧ Untraced s ∧ s.cc.loops.length < 8 ∧ s.cc.stackSpilled = 0 ∧
      s.cf.pc < (s.opState n).bundleAfter s.cur.core (s.opEnv n).k s.cf.pc ∧
      (s.opState n).bundleAfter s.cur.core (s.opEnv n).k s.cf.pc ≤ imm &&& 0x3FFFF#32 ∧ (s.opEnv n).k.readS f.a.toNat ≠ 0)
    ∧ ∃ (s : State) (f : OpF) (n : Info), info (.ptload f) = some n ∧ VliwReady s n ∧ PlainBundle s ∧ s.undoRoom n ∧
      (s.opEnv n).k.readS f.b.toNat &&& 0xFC00FE00#32 = 0 ∧ 1 ≤ (((s.opEnv n).k.readS f.b.toNat).extractLsb' 16 10).toNat ∧
      (((s.opEnv n).k.readS f.b.toNat).extractLsb' 0 9).toNat + (((s.opEnv n).k.readS f.b.toNat).extractLsb' 16 10).toNat ≤ 512 ∧
      ((s.opEnv n).k.readS f.a.toNat).toNat % 32 = 0 ∧
      ((s.opEnv n).k.readS f.a.toNat).toNat + 32 * (((s.opEnv n).k.readS f.b.toNat).extractLsb' 16 10).toNat ≤ (s.opEnv n).k.spadLen ∧
      s.cc.undo.length + (((s.opEnv n).k.readS f.b.toNat).extractLsb' 16 10).toNat ≤ Config.undoMax :=
  ⟨⟨looping.updCc (fun k => k.write ⟨.s 4, 5⟩), fields 0 4 0, 0x02000020, _, by decide, rfl, vliwReady_of (by decide +kernel),
      by unfold PlainBundle; decide, room_of (by decide), by unfold Untraced; decide, by decide, by decide, by decide +kernel,
      by decide +kernel, by decide⟩,
    ⟨(thread 15).updCc (fun k => k.write ⟨.s 4, 0x000101FF⟩), fields 0 5 4, _, rfl, vliwReady_of (by decide +kernel),
      by unfold PlainBundle; decide, room_of (by decide), by decide, by decide, by decide, by decide, by decide, by decide⟩⟩

theorem bundleReady_of {s : State} {b : Bundle} {ops : List (Nat × Info)}
    (h : (s.mayIssue s.cur.core s.cur.ctx s.cur.flow && s.cc.badLoad.isNone && s.cc.vliw && decide (s.cur.flow = 255) && !s.cc.refill
      && s.cf.landing.isNone && (match checkBundle s s.cc s.cf.pc b with
        | .ok o => decide (o = ops)
        | .error _ => false) && !s.cc.bundleHeld (ops.map (fun p => opd p.2))) = true) : BundleReady s b ops := by
  simp only [Bool.and_eq_true, Bool.not_eq_true', Option.isNone_iff_eq_none, decide_eq_true_eq] at h
  obtain ⟨⟨⟨⟨⟨⟨⟨a, b'⟩, c⟩, d⟩, e⟩, f⟩, g⟩, i⟩ := h
  refine ⟨a, b', c, d, e, f, ?_, i⟩
  split at g
  · next o e' => rw [e', of_decide_eq_true g]
  · simp at g

theorem meets_BundlesIssue : ∃ (s : State) (i : Instr) (b : Bundle) (len : Nat) (xs : List SlotOp), bundleOf s.cc i = some (b, len) ∧
    BundleReady s b (xs.map (fun x => (x.slot, x.info))) ∧ PlainBundle s ∧ s.cc.flight = [] ∧ s.cc.undo.length ≤ Config.undoMax ∧
    xs.length = 2 ∧
    ∀ x ∈ xs, info x.instr = some x.info ∧ stageGuard s.cc (opd x.info) = true ∧ scalarWord s.cc x.instr = some x.writes := by
  refine ⟨thread 0, .vliwBundle ⟨0xC00, [0x010C1080, 0x0E101080]⟩, _, _,
    [⟨10, .sadd (fields 3 1 2), ⟨0x01, 0, 0, fields 3 1 2, .none⟩, [⟨.s 3, 0⟩]⟩,
      ⟨11, .ssel (fields 4 1 2), ⟨0x0E, 0, 0, fields 4 1 2, .none⟩, [⟨.s 4, 0⟩]⟩], rfl, bundleReady_of (by decide +kernel),
    by unfold PlainBundle; decide, by decide, by decide, rfl, ?_⟩
  intro x h
  simp only [List.mem_cons, List.not_mem_nil, or_false] at h
  rcases h with rfl | rfl <;> decide

theorem meets_BundleBoundaries :
    (∃ (s : State) (d : Delay), BundleReady s ⟨0, []⟩ [] ∧ Untraced s ∧ s.cc.stopPending = false ∧ s.cc.cooling = false ∧
      s.cc.undo.length ≤ Config.undoMax ∧ s.cc.delay = some d ∧ d.left ≤ 1)
    ∧ (∃ (s : State) (d : Delay), BundleReady s ⟨0, []⟩ [] ∧ Untraced s ∧ s.cc.stopPending = false ∧ s.cc.cooling = false ∧
      s.cc.undo.length ≤ Config.undoMax ∧ s.cc.delay = some d ∧ 1 < d.left)
    ∧ ∃ (s : State) (e : LoopEntry) (r : List LoopEntry), BundleReady s ⟨0, []⟩ [] ∧ Untraced s ∧ s.cc.stopPending = false ∧ s.cc.cooling = false ∧
      s.cc.undo.length ≤ Config.undoMax ∧ s.cc.delay = none ∧ s.cc.loops = r ++ [e] ∧ e.stop = s.cf.pc ∧ e.drain = false ∧
      s.cc.stackSpilled = 0 ∧ e.stages ≤ 8 :=
  ⟨⟨(thread 0).updCc (fun k => { k with delay := some { left := 1, target := 0x40 } }), _, bundleReady_of (by decide),
      by unfold Untraced; decide, by decide, by decide, by decide, rfl, by decide⟩,
    ⟨(thread 0).updCc (fun k => { k with delay := some { left := 2, target := 0x40 } }), _, bundleReady_of (by decide),
      by unfold Untraced; decide, by decide, by decide, by decide, rfl, by decide⟩,
    ⟨(thread 0).updCc (fun k => { k with loops := [⟨0, 0, 3, 8, false, 0, 0⟩] }), _, [], bundleReady_of (by decide),
      by unfold Untraced; decide, by decide, by decide, by decide, by decide, rfl, by decide, by decide, by decide, by decide⟩⟩

/-- A grid of one packet whose fields are zero but for the given bytes. -/
def gridWith (kind : Nat) (at_ : List (Nat × Nat)) : Grid :=
  { queue := 0, number := 0, vf := 0, part := 0
    pkt := ⟨(List.range 256).map (fun i => if i = 0 then BitVec.ofNat 8 kind else
      BitVec.ofNat 8 (((at_.find? (fun p => p.1 == i)).map Prod.snd).getD 0))⟩ }

/-- The team as the run of task 1 of grid 1, a task whose box has eight points on its one axis. -/
def tasked : State :=
  let s := team.updCc (fun k => { k with task := some 1, grid := 1 })
  { s with
    grids := [(1, gridWith 1 [(1, 1), (64, 1), (80, 1), (81, 0xE4)])]
    tasks := { s.tasks with next := 2, list := [(1, { grid := 1, stamp := 1, box := [(0, 7)], mapIdx := 0, state := .running 0 0, lastCore := 0 })] } }

theorem meets_TaskInstructions :
    (∃ (s : State) (f : OpF) (n : Info) (id : Nat), info (.tend f) = some n ∧ Ready s n ∧ (s.opEnv n).last = true ∧
      s.cc.task = some id ∧ NoneParked s ∧ Quiet s ∧ Untraced s)
    ∧ (∃ (s : State) (i : Instr) (n : Info) (id : Nat) (x : Task) (g : Grid), WellFormed i = true ∧ info i = some n ∧
      abortForm i = some false ∧ Ready s n ∧ (s.opEnv n).first = true ∧ s.cc.task = some id ∧ s.task? id = some x ∧
      s.grid? x.grid = some g ∧ id ≠ s.tasks.next)
    ∧ (∃ (s : State) (i : Instr) (n : Info) (id : Nat) (x : Task) (g : Grid) (lo hi : List (Nat × Nat)), WellFormed i = true ∧
      info i = some n ∧ abortForm i = some true ∧ Ready s n ∧ (s.opEnv n).first = true ∧ s.cc.task = some id ∧ s.task? id = some x ∧
      s.grid? x.grid = some g ∧ id ≠ s.tasks.next ∧ splitBox g.pkt x.box = some (lo, hi))
    ∧ ∃ (s : State) (i : Instr) (n : Info), info i = some n ∧ ((∃ f, i = .tend f) ∨ ∃ f, i = .tabort f) ∧ Ready s n ∧
      (s.opEnv n).first = true ∧ s.cc.task = none :=
  ⟨⟨tasked, last 0 0 0, _, _, rfl, .inl (simtReady_of (by decide)), by decide, rfl, by unfold NoneParked; decide,
      by unfold Quiet; decide, by unfold Untraced; decide⟩,
    ⟨tasked, .tabort (last 0 0 0), _, _, _, _, by decide, rfl, rfl, .inl (simtReady_of (by decide)), by decide, rfl, rfl, rfl, by decide⟩,
    ⟨tasked, .tabortExt (last 0 0 0) (extX 1 0 0 0), _, _, _, _, _, _, by decide, rfl, rfl, .inl (simtReady_of (by decide)), by decide,
      rfl, rfl, rfl, by decide, rfl⟩,
    ⟨team, .tend (last 0 0 0), _, rfl, .inl ⟨_, rfl⟩, .inl (simtReady_of (by decide)), by decide, by decide⟩⟩

/-- The team of a grid whose packet lets it grow to 12 blocks and 8,192 bytes. -/
def growing : State :=
  { team.updCc (fun k => { k with grid := 1 }) with grids := [(1, gridWith 1 [(24, 12), (29, 32)])] }

theorem meets_GrantsGrow :
    (∃ (s : State) (i : Instr) (n : Info) (regs : Bool) (target : Nat) (d : BitVec 6), WellFormed i = true ∧ info i = some n ∧
      growForm (s.opEnv n).k i = some (regs, target, d) ∧ Ready s n ∧ (s.opEnv n).first = true ∧ s.undoRoom n ∧
      target ≤ (if regs then s.cc.blocks else s.cc.spadLen))
    ∧ (∃ (s : State) (i : Instr) (n : Info) (target : Nat) (d : BitVec 6), WellFormed i = true ∧ info i = some n ∧
      growForm (s.opEnv n).k i = some (true, target, d) ∧ Ready s n ∧ (s.opEnv n).first = true ∧ s.undoRoom n ∧
      s.cc.blocks < target ∧ target ≤ s.growLimit s.cur.core s.cc true ∧ target ≤ 256 ∧
      target - s.cc.blocks ≤ (s.core s.cur.core).blocksFree)
    ∧ ∃ (s : State) (i : Instr) (n : Info) (target : Nat) (d : BitVec 6), WellFormed i = true ∧ info i = some n ∧
      growForm (s.opEnv n).k i = some (false, target, d) ∧ Ready s n ∧ (s.opEnv n).first = true ∧ s.undoRoom n ∧
      s.cc.spadLen < target ∧ target ≤ s.growLimit s.cur.core s.cc false ∧ target < 2 ^ 32 ∧ (s.core s.cur.core).spad.wf = true ∧
      (s.core s.cur.core).runFree (some s.cur.ctx) s.cc.spadBase target = true :=
  ⟨⟨growing, .vgrowImm (fields 3 0 8), _, _, _, _, by decide, rfl, rfl, .inl (simtReady_of (by decide)), by decide, room_of (by decide),
      by decide⟩,
    ⟨growing, .vgrowImm (fields 3 0 12), _, _, _, by decide, rfl, rfl, .inl (simtReady_of (by decide)), by decide, room_of (by decide),
      by decide, by decide, by decide, by decide⟩,
    ⟨growing, .sgrowImm (fields 3 0 2), _, _, _, by decide, rfl, rfl, .inl (simtReady_of (by decide)), by decide, room_of (by decide),
      by decide, by decide, by decide, by decide, by decide⟩⟩

theorem meets_ServiceCallsAndTraps :
    (∃ (s : State) (f : OpF) (imm : Word) (n : Info), WellFormed (.svc f imm) = true ∧ info (.svc f imm) = some n ∧ Ready s n ∧
      (s.opEnv n).first = true ∧ s.cc.task = none ∧ Quiet s ∧ Untraced s ∧ NoneParked s ∧ s.cc.peerFailed = none)
    ∧ (∃ (s : State) (f : OpF) (imm : Word) (n : Info), WellFormed (.svc f imm) = true ∧ info (.svc f imm) = some n ∧ Ready s n ∧
      (s.opEnv n).first = true ∧ s.cc.task.isSome)
    ∧ (∃ (s : State) (i : Instr) (n : Info) (cause detail : Nat), WellFormed i = true ∧ info i = some n ∧
      trapForm (s.opEnv n).k i = some (cause, detail) ∧ Ready s n ∧ s.cc.vliw = true)
    ∧ (∃ (s : State) (i : Instr) (n : Info) (cause detail : Nat), WellFormed i = true ∧ info i = some n ∧
      trapForm (s.opEnv n).k i = some (cause, detail) ∧ Ready s n ∧ s.cc.vliw = false ∧ (s.opEnv n).lanes ≠ [])
    ∧ ∃ (s : State) (i : Instr) (n : Info) (cause detail : Nat), WellFormed i = true ∧ info i = some n ∧
      trapForm (s.opEnv n).k i = some (cause, detail) ∧ Ready s n ∧ s.cc.vliw = false ∧ (s.opEnv n).lanes = [] ∧ s.undoRoom n :=
  ⟨⟨team, last 0 8 0, 0x101, _, by decide, rfl, .inl (simtReady_of (by decide)), by decide, by decide, by unfold Quiet; decide,
      by unfold Untraced; decide, by unfold NoneParked; decide, by decide⟩,
    ⟨tasked, last 0 8 0, 0x101, _, by decide, rfl, .inl (simtReady_of (by decide)), by decide, by decide⟩,
    ⟨thread 15, .brk (fields 0 0 0), _, _, _, by decide, rfl, rfl, .inr (vliwReady_of (by decide)), by decide⟩,
    ⟨team, .trap (last 0 4 0), _, _, _, by decide, rfl, rfl, .inl (simtReady_of (by decide)), by decide, by decide⟩,
    ⟨team, .brk (guarded 0 0 0), _, _, _, by decide, rfl, rfl, .inl (simtReady_of (by decide)), by decide, by decide, room_of (by decide)⟩⟩

theorem meets_UserInterruptsAndMarkers :
    (∃ (s : State) (f : OpF) (n : Info), info (.uiret f) = some n ∧ Ready s n ∧ (s.opEnv n).last = true ∧ Untraced s ∧
      s.cc.inHandler = true ∧ ∀ p ∈ s.cc.flows, p.1 ≠ s.cur.flow → p.2.masks = [] ∨ p.2.wait = .handler)
    ∧ (∃ (s : State) (f : OpF) (n : Info), info (.uiret f) = some n ∧ Ready s n ∧ s.cc.inHandler = false)
    ∧ (∃ (s : State) (i : Instr) (n : Info) (d : BitVec 6) (v : BitVec 16), WellFormed i = true ∧ info i = some n ∧
      maskValue (s.opEnv n).k i = some (d, v) ∧ Ready s n ∧ (s.opEnv n).first = true ∧ s.undoRoom n)
    ∧ ∀ b : Bool, ∃ (s : State) (i : Instr) (n : Info) (v : Word), WellFormed i = true ∧ info i = some n ∧
      markValue (s.opEnv n).k i = some v ∧ Ready s n ∧ (s.opEnv n).first = true ∧ s.undoRoom n ∧ s.traced s.cur.core s.cur.ctx = b := by
  refine ⟨⟨team.updCc (fun k => { k with inHandler := true, handlerFlow := 255, uipc := 0x40 }), last 0 0 0, _, rfl,
      .inl (simtReady_of (by decide)), by decide, by unfold Untraced; decide, by decide, by decide⟩,
    ⟨team, last 0 0 0, _, rfl, .inl (simtReady_of (by decide)), by decide⟩,
    ⟨team, .uimaskImm (fields 3 0 1), _, _, _, by decide, rfl, rfl, .inl (simtReady_of (by decide)), by decide, room_of (by decide)⟩,
    fun b => ?_⟩
  cases b
  · exact ⟨team, .trcImm (fields 0 0 7), _, _, by decide, rfl, rfl, .inl (simtReady_of (by decide)), by decide, room_of (by decide),
      by decide⟩
  · exact ⟨team.updCore 0 (fun co => { co with trc := { co.trc with enable := true, mask := 0xFFFFF } }), .trcImm (fields 0 0 7), _, _,
      by decide, rfl, rfl, .inl (simtReady_of (by decide)), by decide, room_of (by decide), by decide⟩

/-! ### Encodings, steps, reset -/

theorem meets_OpWordsDecodeAndEncodeAgree : ∃ (i : Instr) (n : Info), WellFormed i = true ∧ info i = some n :=
  ⟨.sampleExt ⟨true, 63, 63, 63, 7, true⟩ ⟨1, 15, 15, 3, true, true, 7, true, 63, 0⟩, _, by decide, rfl⟩

theorem meets_BundlesDecodeAndEncodeAgree : ∃ b : Bundle, WellFormed (.vliwBundle b) = true :=
  ⟨⟨0x8001, [0x98006012, 0x140, 0]⟩, by decide⟩

/-- A flow inside a stop group, and one before a group of its own. -/
theorem meets_StepsRunWhatIsDecoded_simt :
    (∃ (s : State) (c x f : Nat) (q : List (Nat × Nat × Nat)) (i : Instr) (n : Info) (g : StopGroup) (o : GroupOp), s.inputs = [] ∧
      s.mgmt.powered = true ∧ s.issueQ = (c, x, f) :: q ∧ s.mayIssue c x f = true ∧ WellFormed i = true ∧ info i = some n ∧
      (s.ctx c x).vliw = false ∧ ((s.ctx c x).flow f).group = some g ∧ g.ops[g.pos]? = some o ∧ o.op = n)
    ∧ ∃ (s : State) (c x f : Nat) (q : List (Nat × Nat × Nat)) (i : Instr) (n : Info) (r : List Byte), s.inputs = [] ∧
      s.mgmt.powered = true ∧ s.issueQ = (c, x, f) :: q ∧ s.mayIssue c x f = true ∧ WellFormed i = true ∧ info i = some n ∧
      (s.ctx c x).vliw = false ∧ ((s.ctx c x).flow f).group = none ∧ ((s.ctx c x).flow f).landing = none ∧
      decodeSimt ((issuing s c x f q).codeBytes c (s.ctx c x).window ((s.ctx c x).flow f).pc.toNat 8) = .ok (n, r) ∧
      encodingCause n (s.ctx c x).simtPlace = none ∧ n.f.s = true :=
  ⟨⟨team.updCf (fun fl => { fl with group := some { ops := [⟨0, ⟨0x01, 0, 0, fields 3 1 2, .none⟩⟩], pass := 0, pos := 0, first := 0 } }),
      0, 0, 255, [], .sadd (fields 3 1 2), _, _, _, by decide, by decide, by decide, by decide, by decide, rfl, by decide, rfl, rfl, rfl⟩,
    ⟨State.reset.placed (placedCtx false) [0x80, 0x10, 0x0C, 0x81], 0, 0, 255, [], .sadd (last 3 1 2), _, [0, 0, 0, 0], by decide,
      by decide, by decide, by decide, by decide, rfl, by decide, by decide, by decide, by decide +kernel, by decide, by decide⟩⟩

/-- A thread before a pattern reference, a bundle without ops, and a bundle of one op. -/
theorem meets_StepsRunWhatIsDecoded_vliw :
    ∀ bs : List Byte, (bs = [0xA0, 0xC0] ∨ bs = [0x00, 0x80, 0x00, 0x00] ∨ bs = [0x00, 0x80, 0x00, 0x40, 0x0C, 0x01, 0x80, 0x10]) →
    ∃ (s : State) (c x f : Nat) (q : List (Nat × Nat × Nat)), s.inputs = [] ∧ s.mgmt.powered = true ∧
      s.issueQ = (c, x, f) :: q ∧ s.mayIssue c x f = true ∧ (s.ctx c x).vliw = true ∧ (s.ctx c x).refill = false ∧
      ((s.ctx c x).flow f).landing = none ∧
      (match decodeVliw ((issuing s c x f q).codeBytes c (s.ctx c x).window
          ((issuing s c x f q).skipPads c (s.ctx c x).window ((s.ctx c x).flow f).pc padFuel).toNat 132) with
        | .ok (.reference r, _) => bs.length == 2 && r == 5
        | .ok (.bundle b, _) => decide (b = if bs.length = 4 then ⟨0, []⟩ else ⟨4, [0x010C1080]⟩)
        | _ => false) = true := by
  intro bs h
  refine ⟨State.reset.placed (placedCtx true) bs, 0, 0, 255, [], ?_⟩
  rcases h with rfl | rfl | rfl
  all_goals exact ⟨by decide, by decide, by decide, by decide, by decide, by decide, by decide, by decide +kernel⟩

theorem meets_StepsRunWhatIsDecoded_op :
    bundleOps [2] [0x010C1080] = [(2, .ok ⟨0x01, 0, 0, fields 3 1 2, .none⟩)] ∧ WellFormed (.sadd (fields 3 1 2)) = true :=
  ⟨rfl, by decide⟩

/-- A state that keeps the invariant and takes a step. -/
theorem meets_StepsKeepInv : ∃ s t : State, s.Inv ∧ step s = .next t := by
  refine ⟨State.reset.withFetchWord 32 0x80000000, _, by unfold State.Inv; decide, rfl⟩


theorem meets_StepsRunWhatIsDecoded_events :
    (∃ (s : State) (i : Instr) (rest : List Instr), s.inputs = i :: rest ∧ s.mgmt.powered = true)
    ∧ (∃ (s : State) (i : Instr) (rest : List Instr), s.inputs = i :: rest ∧ s.mgmt.powered = false ∧ i ≠ .deviceReset)
    ∧ ∃ s : State, s.inputs = [] ∧ s.mgmt.powered = false :=
  ⟨⟨{ State.reset with inputs := [.thermal95] }, _, _, rfl, by decide⟩,
    ⟨{ State.reset with inputs := [.thermal95], mgmt := { State.reset.mgmt with powered := false } }, _, _, rfl, rfl, by decide⟩,
    ⟨{ State.reset with mgmt := { State.reset.mgmt with powered := false } }, rfl, rfl⟩⟩
/-! ### Events -/

/-- The state after reset with other management registers, and with another attachment. -/
def withMgmt (f : Mgmt → Mgmt) : State := { State.reset with mgmt := f State.reset.mgmt }
def withAtt (f : Attach → Attach) : State := { State.reset with att := f State.reset.att }

/-- An attached boot with every function ready. -/
def attached (f : Attach → Attach) : State :=
  { withMgmt (fun m => { m with bootMode := 1, funcReady := 0xFFFFFFFFFFFFFFFF }) with att := f State.reset.att }

/-- A context that stands under rollback on core 3 of the state after reset. -/
def standing : State :=
  State.reset.updCore 3 (fun co => { co with ctxs := [(2, { live := true })], rolled := [(2, ⟨{}, ⟨[]⟩, []⟩)] })

theorem meets_ManagementEvents_thermal :
    (∃ s : State, s.mgmt.halted = true)
    ∧ (∃ s : State, s.mgmt.halted = false ∧ ∀ c x, ¬ liveOn s c x)
    ∧ (∃ s : State, s.mgmt.halted = false ∧ s.mgmt.halting = false ∧ (∃ c x, liveOn s c x) ∧
      ∀ c x, liveOn s c x → s.coolReady c x = false)
    ∧ ∃ (s : State) (c x : Nat), s.mgmt.halted = true ∧ s.mgmt.saved = [(c, x, none)] ∧ (s.core c).trc.enable = false :=
  ⟨⟨withMgmt (fun m => { m with halted := true }), rfl⟩,
    ⟨State.reset, rfl, fun c x h => by obtain ⟨co, k, h, _⟩ := h; simp [State.reset] at h⟩,
    ⟨standing, rfl, rfl, ⟨3, 2, _, _, List.mem_singleton.2 rfl, List.mem_singleton.2 rfl, rfl⟩, fun c x h => by
      obtain ⟨co, k, a, b, _⟩ := h
      have e := Prod.mk.inj (List.mem_singleton.1 (show (c, co) ∈ [(3, standing.core 3)] from a))
      obtain ⟨rfl, rfl⟩ := e
      have e := Prod.mk.inj (List.mem_singleton.1 (show (x, k) ∈ [(2, standing.ctx 3 2)] from b))
      obtain ⟨rfl, _⟩ := e
      decide⟩,
    ⟨withMgmt (fun m => { m with halted := true, saved := [(3, 2, none)] }), 3, 2, rfl, rfl, by decide⟩⟩

theorem meets_ManagementEvents_images :
    (∃ (s : State) (k : ImageKind) (ver : Nat), fusedOf s (kindIndex k) ≤ ver)
    ∧ (∃ (s : State) (k : ImageKind) (ver : Nat), ver < fusedOf s (kindIndex k))
    ∧ (∃ s : State, s.mgmt.writing = none) ∧ (∃ (s : State) (k : ImageKind), s.mgmt.writing = some k)
    ∧ (∃ s : State, bootable (imageOf s 0) (fusedOf s 0)) ∧ (∃ s : State, ¬ bootable (activated (imageOf s 0)) (fusedOf s 0))
    ∧ (∃ s : State, managed s ∧ s.mgmt.bootMode ≠ 1 ∧ ¬ bootable (imageOf s 2) (fusedOf s 2))
    ∧ (∃ s : State, managed s ∧ 1 ∉ s.mgmt.failed ∧ bootable (imageOf s 1) (fusedOf s 1))
    ∧ ∃ s : State, managed s ∧ 1 ∉ s.mgmt.failed ∧ 1 ∉ s.mgmt.measured ∧ ¬ bootable (imageOf s 1) (fusedOf s 1) :=
  ⟨⟨State.reset, .supervisor, 0, by decide⟩, ⟨withMgmt (fun m => { m with fusedMin := [(1, 5)] }), .supervisor, 4, by decide⟩,
    ⟨State.reset, rfl⟩, ⟨withMgmt (fun m => { m with writing := some .supervisor }), .supervisor, rfl⟩,
    ⟨State.reset, by unfold bootable; decide⟩, ⟨withMgmt (fun m => { m with fusedMin := [(0, 5)] }), by unfold bootable; decide⟩,
    ⟨withMgmt (fun m => { m with fusedMin := [(2, 5)] }), by unfold managed; decide, by decide, by unfold bootable; decide⟩,
    ⟨State.reset, by unfold managed; decide, by decide, by unfold bootable; decide⟩,
    ⟨withMgmt (fun m => { m with images := [(1, { okA := false })] }), by unfold managed; decide, by decide, by decide,
      by unfold bootable; decide⟩⟩

theorem meets_ManagementEvents_links :
    (∃ (i : Instr) (m : SpdmMsg) (c : SpdmContent), spdmMessage i = some (m, c))
    ∧ (∃ (s : State) (i : Instr) (b : Nat), readyBit s i = some b ∧ managed s ∧ (b = 36 → bootable (imageOf s 2) (fusedOf s 2)))
    ∧ (∃ (s : State) (i : Instr), readyBit s i = some 36 ∧ managed s ∧ bootable (imageOf s 2) (fusedOf s 2))
    ∧ (∃ (s : State) (p : Nat) (peer : BitVec 14), managed s ∧ p < 18 ∧ s.att.wyundSet = true ∧ peer.toNat = s.att.wyundId)
    ∧ (∃ s : State, s.att.wyundSet = false) ∧ ∃ s : State, s.att.wyundSet = true :=
  ⟨⟨.challenge, _, _, rfl⟩, ⟨State.reset, .hbmStackReady 11, 11, by decide, by unfold managed; decide, by simp⟩,
    ⟨State.reset, .hostComplexRelease true, by decide, by unfold managed; decide, by unfold bootable; decide⟩,
    ⟨withAtt (fun a => { a with wyundSet := true, wyundId := 9 }), 17, 9, by unfold managed; decide, by decide, rfl, by decide⟩,
    ⟨State.reset, rfl⟩, ⟨withAtt (fun a => { a with wyundSet := true }), rfl⟩⟩

theorem meets_AttachmentEvents_partitions :
    (∃ (s : State) (p : Nat), s.Inv ∧ p < 32 ∧ ∀ f, f < Config.frames → ownerOf s f ≠ some p)
    ∧ (∃ (s : State) (p : Nat), s.Inv ∧ p < 32 ∧ ∃ f, f < Config.frames ∧ ownerOf s f = some p)
    ∧ (∃ (s : State) (p : Nat), (partOf s p).resetBusy = true) ∧ (∃ (s : State) (p : Nat), (partOf s p).resetBusy = false)
    ∧ ∃ (s : State) (p : Nat), s.Inv ∧ p < 32 ∧ p ∈ s.att.partResets ∧ ∀ v ∈ s.att.vfs, v.2.part = p → v.2.resetBusy = false :=
  ⟨⟨State.reset, 31, by unfold State.Inv; decide, by decide, fun f _ h => by
      have e : State.reset.mem.read (State.reset.att.frameOwnerBase + f) = 0 := rfl
      simp [ownerOf, e] at h⟩,
    ⟨mapped, 0, by unfold State.Inv; decide, by decide, 256, by decide, by decide⟩,
    ⟨withAtt (fun a => { a with parts := [(31, { resetBusy := true })] }), 31, by decide⟩, ⟨State.reset, 31, by decide⟩,
    ⟨withAtt (fun a => { a with partResets := [31], vfs := [(3, { part := 31 })] }), 31, by unfold State.Inv; decide, by decide, by decide,
      by decide⟩⟩

theorem meets_AttachmentEvents_functions :
    (∃ (s : State) (f : Nat) (v : Dword), (vfOf s f).enable = false ∧ ¬ bindRefused s f (boundVf (vfOf s f) v))
    ∧ (∃ (s : State) (f : Nat) (v : Dword), (vfOf s f).enable = false ∧ bindRefused s f (boundVf (vfOf s f) v))
    ∧ (∃ (s : State) (f : Nat), (vfOf s f).enable = true) ∧ (∃ (s : State) (f : Nat), (vfOf s f).resetBusy = false)
    ∧ (∃ (s : State) (f : Nat), (vfOf s f).resetBusy = true ∧ f ∈ s.att.vfUnbind ∧ ∀ p ∈ s.svcEntries f, p.2.state ≠ 2)
    ∧ (∃ (s : State) (n : Nat) (d : LogicalDev), SMap.find? s.att.lds n = some d)
    ∧ (∃ (s : State) (p : Nat), p < 2 ∧ cxlTrained s p) ∧ (∃ (s : State) (p : Nat), p < 2 ∧ ¬ cxlTrained s p)
    ∧ (∃ (s : State) (n : Nat), (slotOf s n).state ≠ 0 ∧ (slotOf s n).state ≠ 3)
    ∧ (∃ (s : State) (n : Nat), (slotOf s n).state = 0) ∧ ∃ (s : State) (n : Nat), (slotOf s n).state = 3 :=
  ⟨⟨State.reset, 383, 0x100000, by decide, by unfold bindRefused; decide⟩,
    ⟨State.reset, 383, 0x110000, by decide, by unfold bindRefused; decide⟩,
    ⟨withAtt (fun a => { a with vfs := [(383, { enable := true })] }), 383, by decide⟩, ⟨State.reset, 383, by decide⟩,
    ⟨withAtt (fun a => { a with vfs := [(383, { resetBusy := true })], vfUnbind := [383] }), 383, by decide, by decide, by decide⟩,
    ⟨withAtt (fun a => { a with lds := [(15, ⟨1, 0, true, []⟩)] }), 15, _, rfl⟩,
    ⟨attached id, 1, by decide, by unfold cxlTrained; decide⟩, ⟨State.reset, 1, by decide, by unfold cxlTrained; decide⟩,
    ⟨withAtt (fun a => { a with batch := [(1023, { state := 1 })] }), 1023, by decide, by decide⟩, ⟨State.reset, 1023, by decide⟩,
    ⟨withAtt (fun a => { a with batch := [(1023, { state := 3 })] }), 1023, by decide⟩⟩

theorem meets_AttachmentEvents_darn :
    (∃ (s : State) (u : DarnUnit), (∀ p ∈ s.cores, p.2.retiring = false) ∧ (recentVerdicts s (unitKey u)).length < 2 ∧
      ∀ n, n < 256 → s.physOf n ≠ unitCore u)
    ∧ (∃ (s : State) (u : DarnUnit) (c n : Nat), (∀ p ∈ s.cores, p.2.retiring = false) ∧
      2 ≤ (recentVerdicts s (unitKey u)).length ∧ u = .matrixRow c n ∧ SMap.get 0 s.mgmt.rowsUsed c < 4)
    ∧ (∃ (s : State) (u : DarnUnit) (c n : Nat), (∀ p ∈ s.cores, p.2.retiring = false) ∧ u = .sramBank c n ∧
      SMap.get 0 s.mgmt.banksUsed c = 0)
    ∧ ∃ (s : State) (u : DarnUnit) (c : Nat), (∀ p ∈ s.cores, p.2.retiring = false) ∧ u = .core c ∧ ∀ n, n < 256 → s.physOf n ≠ c :=
  ⟨⟨State.reset, .core 263, by decide, by decide, by decide +kernel⟩,
    ⟨withMgmt (fun m => { m with timeUs := 5, transients := [(unitKey (.matrixRow 7 3), [1, 2])] }), .matrixRow 7 3, 7, 3, by decide,
      by decide, rfl, by decide⟩,
    ⟨State.reset, .sramBank 263 5, 263, 5, by decide, rfl, by decide⟩, ⟨State.reset, .core 263, 263, by decide, rfl, by decide +kernel⟩⟩

/-- A logical device with one window of a frame, on a trained port. -/
def deviced (up : Bool) : State := attached (fun a => { a with lds := [(15, ⟨1, 0, up, [(7, ⟨0, 0, 0x10000⟩)]⟩)] })

theorem meets_AttachmentEvents_windows :
    (∃ (s : State) (ld w off : Nat) (r : MemReq) (d : LogicalDev) (h : HdmWindow), SMap.find? s.att.lds ld = some d ∧
      SMap.find? d.hdm w = some h ∧ d.up = true ∧ cxlTrained s d.port ∧ off + requestLength r ≤ h.size)
    ∧ (∃ (s : State) (ld w : Nat) (d : LogicalDev) (h : HdmWindow), SMap.find? s.att.lds ld = some d ∧
      SMap.find? d.hdm w = some h ∧ d.up = false)
    ∧ (∃ (s : State) (ld w : Nat) (d : LogicalDev) (h : HdmWindow), SMap.find? s.att.lds ld = some d ∧
      SMap.find? d.hdm w = some h ∧ ¬ cxlTrained s d.port)
    ∧ ∃ (s : State) (ld w off : Nat) (r : MemReq) (d : LogicalDev) (h : HdmWindow), SMap.find? s.att.lds ld = some d ∧
      SMap.find? d.hdm w = some h ∧ h.size < off + requestLength r :=
  ⟨⟨deviced true, 15, 7, 0xFFF8, .read 8, _, _, rfl, rfl, rfl, by unfold cxlTrained; decide, by decide⟩,
    ⟨deviced false, 15, 7, _, _, rfl, rfl, rfl⟩,
    ⟨withAtt (fun _ => (deviced true).att), 15, 7, _, _, rfl, rfl, by unfold cxlTrained; decide⟩,
    ⟨deviced true, 15, 7, 0xFFF9, .read 8, _, _, rfl, rfl, by decide⟩⟩

theorem mapped_open (pa n : Nat) (h : 256 ≤ pa / 65536 ∧ (pa + n - 1) / 65536 ≤ 256) :
    ∀ f, inRun pa n 65536 f → frameOpen mapped 0 f := fun f e => by
  obtain rfl : f = 256 := by simp only [inRun] at e; omega
  exact ⟨by decide, by decide, by decide⟩

/-- The forms of a request that an open run answers: a read, a write, a peer's atomic, and an atomic of another party. -/
theorem meets_AttachmentEvents_answers :
    (∃ (s : State) (pa n : Nat), pa + n ≤ Config.regSpace ∧ 0 < n ∧ (∀ f, inRun pa n 65536 f → frameOpen s 0 f) ∧
      ∀ l, inRun pa n 128 l → l ∉ s.poison)
    ∧ (∃ (s : State) (pa : Nat) (bs : List Byte), pa + bs.length ≤ Config.regSpace ∧ 0 < bs.length ∧
      (∀ f, inRun pa bs.length 65536 f → frameOpen s 0 f) ∧ offTable s pa bs.length)
    ∧ (∃ (s : State) (pa sub n b cmp : Nat), pa + n ≤ Config.regSpace ∧ 0 < n ∧ (∀ f, inRun pa n 65536 f → frameOpen s 0 f) ∧
      atomicFits pa sub n b cmp ∧ offTable s pa n ∧ pa / 128 ∉ s.poison)
    ∧ ∃ (s : State) (pa : Nat) (r : MemReq), pa + requestLength r ≤ Config.regSpace ∧ 0 < requestLength r ∧
      offTable s pa 1 ∧ ownerOf s (pa / 65536) ≠ some 0 :=
  ⟨⟨mapped, 0x100FFF0, 16, by decide, by decide, mapped_open _ _ (by decide), by simp [mapped, State.placed, State.reset]⟩,
    ⟨mapped, 0x100FFF0, List.replicate 16 7, by decide, by decide, mapped_open _ _ (by decide), by unfold offTable; decide⟩,
    ⟨mapped, 0x1006000, 10, 4, 0x3F800000, 0, by decide, by decide, mapped_open _ _ (by decide), by unfold atomicFits; decide,
      by unfold offTable; decide, by decide⟩,
    ⟨mapped, 0x1010000, .read 16, by decide, by decide, by unfold offTable; decide, by decide⟩⟩

/-- A peer reached through a trained port, with a grant for partition 3 of device 9. -/
def peered (gs : SMap PeerGrant) : State := attached (fun a => { a with portPeer := [(17, 9)], grants := gs })

theorem meets_AttachmentEvents_peers :
    (∃ (s : State) (dev : BitVec 14) (rp : Nat) (g : Nat × PeerGrant), peerThere s dev.toNat ∧
      List.find? (fun (g : Nat × PeerGrant) => g.2.valid && g.2.dev == dev.toNat && g.2.rpart == rp) s.att.grants = some g)
    ∧ (∃ (s : State) (dev : BitVec 14) (rp : Nat), peerThere s dev.toNat ∧
      ∀ g ∈ s.att.grants, g.2.valid = true → g.2.dev = dev.toNat → g.2.rpart ≠ rp)
    ∧ (∃ (s : State) (n : Nat) (q : QueuePair), SMap.find? s.att.qps n = some q ∧ q.error = false ∧ q.kind = 0)
    ∧ (∃ (s : State) (n : Nat) (q : QueuePair), SMap.find? s.att.qps n = some q ∧ q.error = false ∧ q.kind = 1)
    ∧ (∃ (s : State) (n : Nat) (q : QueuePair), SMap.find? s.att.qps n = some q ∧ q.error = false ∧ q.kind = 2)
    ∧ ∃ (s : State) (n : Nat) (q : QueuePair), SMap.find? s.att.qps n = some q ∧ q.error = true :=
  ⟨⟨peered [(255, ⟨9, 3, 0, true⟩)], 9, 3, _, ⟨_, List.mem_singleton.2 rfl, rfl, by decide, by decide⟩, rfl⟩,
    ⟨peered [(255, ⟨9, 3, 0, true⟩)], 9, 4, ⟨_, List.mem_singleton.2 rfl, rfl, by decide, by decide⟩, by decide⟩,
    ⟨withAtt (fun a => { a with qps := [(65535, { kind := 0, vf := 3 })] }), 65535, _, rfl, by decide, by decide⟩,
    ⟨withAtt (fun a => { a with qps := [(65535, { kind := 1, vf := 3 })] }), 65535, _, rfl, by decide, by decide⟩,
    ⟨withAtt (fun a => { a with qps := [(65535, { kind := 2, vf := 3 })] }), 65535, _, rfl, by decide, by decide⟩,
    ⟨withAtt (fun a => { a with qps := [(65535, { kind := 1, vf := 3, error := true })] }), 65535, _, rfl, by decide⟩⟩

/-- The team with a load of device 9 outstanding, and with a store to it that is not acknowledged. -/
def reading : State :=
  team.updCc (fun k => { k with loads := [{ tag := 1, writes := [], trap := none, slot := 8, peer := some (9, { cause := 7, fault := 0x40 }) }] })

def writing : State :=
  { reading.updCc (fun k => { k with sent := [5] }) with sent := [⟨5, .peer 9 0x1000, [1], 0x40, none, 255, 0⟩] }

/-- The team with a copy that has translated a page of a peer device. -/
def copying : State := team.updCc (fun k =>
  { k with eq := [(1, [{ id := 3, queue := 1, op := .gather .gat ⟨0x1000, 4, [0], 4, 0, 4, 0, 0, 0, 0, 0⟩, site := 0, notify := none }])]
           engPages := [⟨3, 1, false, 0, some 9⟩] })

theorem meets_AttachmentEvents_naks :
    (∃ (s : State) (p dev : Nat), SMap.find? s.att.portPeer p = some dev ∧
      ∃ q ∈ s.att.portPeer, q.2 = dev ∧ (s.att.portFailed ||| (1#18 <<< p)).getLsbD q.1 = false)
    ∧ (∃ (s : State) (p dev c x pa : Nat) (e : SentStore), SMap.find? s.att.portPeer p = some dev ∧
      (∀ q ∈ s.att.portPeer, q.2 = dev → (s.att.portFailed ||| (1#18 <<< p)).getLsbD q.1 = true) ∧ e ∈ s.sent ∧
      e.dst = .peer dev pa ∧ e.tag ∈ (s.ctx c x).sent)
    ∧ (∃ (s : State) (c x : Nat) (pa : Dword) (e : SentStore), (s.ctx c x).live = true ∧
      (peerStores s c x).find? (fun e => e.va == pa) = some e)
    ∧ (∃ (s : State) (c x : Nat) (pa : Dword) (l : Load), (s.ctx c x).live = true ∧
      (peerStores s c x).find? (fun e => e.va == pa) = none ∧ nakked (s.ctx c x) pa l)
    ∧ (∃ (s : State) (c x q : Nat) (pa : Dword) (e : EngCmd) (r : List EngCmd), (s.ctx c x).live = true ∧
      (peerStores s c x).find? (fun e => e.va == pa) = none ∧
      (∀ l ∈ peerLoads (s.ctx c x), ∀ d f, l.peer = some (d, f) → f.fault ≠ pa) ∧ (s.ctx c x).nakQueue pa = some q ∧
      SMap.get [] (s.ctx c x).eq q = e :: r)
    ∧ ∃ (s : State) (c x : Nat) (pa : Dword), (s.ctx c x).live = true ∧ peerLoads (s.ctx c x) = [] ∧ peerStores s c x = [] ∧
      (s.ctx c x).nakQueue pa = none ∧ SMap.get [] (s.ctx c x).eq 2 = [] :=
  ⟨⟨withAtt (fun a => { a with portPeer := [(16, 9), (17, 9)] }), 17, 9, by decide, by decide⟩,
    ⟨{ writing with att := { writing.att with portPeer := [(16, 9), (17, 9)], portFailed := 0x10000 } }, 17, 9, 0, 0, 0x1000, _,
      by decide, by decide, List.mem_singleton.2 rfl, rfl, by decide⟩,
    ⟨writing, 0, 0, 0x40, _, by decide, rfl⟩, ⟨reading, 0, 0, 0x80, _, by decide, by decide, .inr ⟨by decide, by decide, rfl⟩⟩,
    ⟨copying, 0, 0, 1, 0x1040, _, _, by decide, by decide, fun l h => absurd (show l ∈ [] from h) List.not_mem_nil, by decide, rfl⟩,
    ⟨team, 0, 0, 0x40, by decide, by decide, by decide, by decide, by decide⟩⟩
/-- A plain packet of one team of one group: version 1, code object 1, its registers and patch, one map entry, and its map
and record at virtual address 0. -/
def plain (more : List (Nat × Nat)) : Grid :=
  gridWith 1 (more ++ [(2, 1), (4, 1), (15, 1), (16, 8), (18, 0x11), (19, 1), (24, 8), (82, 1), (84, 1)])

/-- Queue 0 as the cache holds it: of the host complex, sixteen entries, one packet to dispatch. -/
def cachedQueue : QueueEntry :=
  ⟨0x1008000, 4, 2, true, false, false, [], 0, 3, 1, 0, 0, 0⟩

/-- VF 3 with queues 0 to 15 of partition 0. -/
def boundPf : VfBind := { qcount := 16, qbase := 0, owner := 0, part := 0, enable := true }

/-- A device at work: the pages of `mapped`, VF 3 with queues 0 to 15 of partition 0, queue 0 cached with its ring at 0x1008000 and
the given packet first in it, and code object 1 on core 0. -/
def atWork (g : Grid) : State :=
  { State.reset with
    mem := mapped.mem.writeBytes 0x1008000 g.pkt.bytes
    mgmt := { mapped.mgmt with sectReady := 0xFFFFFFFF }
    aspaces := mapped.aspaces
    att := { State.reset.att with vfs := [(3, boundPf)]
                                  partCores := [(0, 1)], partQtable := [(0, 0x1009000)] }
    codeObjs := [{ handle := 1, part := 0, places := [(0, 0)], bytes := 4096 }]
    cores := [(0, { codeWin := [(0, { refs := 0, part := 0, len := 1, base := 0, valid := true })] })]
    qc := { State.reset.qc with cache := [(0, cachedQueue)] } }

/-- The same with a grid of its own, not yet started, with core 0 in its map. -/
def gridded (g : Grid) : State := { atWork g with grids := [(1, { g with map := [0] })] }

/-- The entry of queue 5 as the queue table holds it, enabled, of the host complex. -/
def tabled (st : Nat) : State :=
  let s := atWork (plain [])
  { s with mem := s.mem.writeBytes (0x1009000 + 64 * 5) (leBytes 8 0x100A000 ++ [4, 2, BitVec.ofNat 8 st, 0, 0, 0, 3, 0]) }

theorem host_holds (v : Nat) : regionHolds .hostComplex v := fun w h => by cases h

theorem meets_QueueAndGridEvents_bells :
    (∃ s : State, ¬ ctlReady s) ∧ (∃ (s : State) (q : Nat), ctlReady s ∧ s.queueVf q = none)
    ∧ (∃ (s : State) (src : DoorbellSource) (q v : Nat) (tail : Word) (b : VfBind) (e : QueueEntry), ctlReady s ∧
      s.queueVf q = some (v, b) ∧ regionHolds src v ∧ s.cached q = some e ∧ bellAccepted e b src tail)
    ∧ (∃ (s : State) (src : DoorbellSource) (q v : Nat) (b : VfBind), ctlReady s ∧ s.queueVf q = some (v, b) ∧ ¬ regionHolds src v)
    ∧ (∃ (s : State) (src : DoorbellSource) (q v : Nat) (tail : Word) (b : VfBind) (e : QueueEntry), ctlReady s ∧
      s.queueVf q = some (v, b) ∧ regionHolds src v ∧ s.cached q = some e ∧ ¬ bellAccepted e b src tail)
    ∧ ∃ (s : State) (src : DoorbellSource) (q v : Nat) (tail : Word) (b : VfBind) (e : QueueEntry), ctlReady s ∧
      s.queueVf q = some (v, b) ∧ regionHolds src v ∧ s.cached q = none ∧ s.tableEntry b.part q = some e ∧
      s.physCheck b.part (s.entryAddr b.part q) true = .ok ∧ offTable s (s.entryAddr b.part q) 64 ∧ bellAccepted e b src tail :=
  ⟨⟨State.reset, by unfold ctlReady; decide⟩, ⟨atWork (plain []), 16, by unfold ctlReady; decide +kernel, by decide +kernel⟩,
    ⟨atWork (plain []), .hostComplex, 0, 3, 16, boundPf, cachedQueue, by unfold ctlReady; decide +kernel, by decide +kernel,
      host_holds 3, by decide +kernel, by unfold bellAccepted comesFrom; decide⟩,
    ⟨atWork (plain []), .cxl 4, 0, 3, boundPf, by unfold ctlReady; decide +kernel, by decide +kernel,
      fun h => absurd (h 4 rfl) (by decide)⟩,
    ⟨atWork (plain []), .hostComplex, 0, 3, 17, boundPf, cachedQueue, by unfold ctlReady; decide +kernel, by decide +kernel,
      host_holds 3, by decide +kernel, by unfold bellAccepted comesFrom; decide⟩,
    ⟨tabled 1, .hostComplex, 5, 3, 16, boundPf, { cachedQueue with ringBase := 0x100A000, tail := 0 },
      by unfold ctlReady; decide +kernel, by decide +kernel, host_holds 3, by decide +kernel, by decide +kernel, by decide +kernel,
      by unfold offTable; decide +kernel, by unfold bellAccepted comesFrom; decide⟩⟩

theorem meets_QueueAndGridEvents_residence :
    (∃ s : State, s.nextPartition = none) ∧ (∃ s : State, s.nextPartition = some 0)
    ∧ (∃ (s : State) (q : Nat), s.cached q = none)
    ∧ (∃ (s : State) (q n : Nat) (e : QueueEntry) (r : List Nat), s.cached q = some e ∧
      s.pendingQueues s.qc.resident = n :: r)
    ∧ ∃ (s : State) (q : Nat), s.dispatchable q = false :=
  ⟨⟨State.reset, by decide⟩, ⟨tabled 3, by decide +kernel⟩, ⟨State.reset, 0, by decide⟩,
    ⟨tabled 3, 0, 5, _, [], rfl, by decide +kernel⟩, ⟨State.reset, 0, by decide⟩⟩

theorem meets_QueueAndGridEvents_dispatch : ∀ code : Option Nat, (code = none ∨ code = some 2) →
    ∃ (s : State) (q v : Nat) (b : VfBind) (e : QueueEntry), s.dispatchable q = true ∧ s.queueVf q = some (v, b) ∧
      s.cached q = some e ∧ s.rangeCheck b.part (e.ringBase + e.head % 2 ^ e.log2 * 256) 256 false = none ∧
      Packet.kind ⟨s.mem.readBytes (e.ringBase + e.head % 2 ^ e.log2 * 256) 256⟩ = 1 ∧
      (({ s with qc := { s.qc with rr := q + 1 } } : State).readTables ⟨s.mem.readBytes (e.ringBase + e.head % 2 ^ e.log2 * 256) 256⟩ b.part).1.packetFault
        ⟨s.mem.readBytes (e.ringBase + e.head % 2 ^ e.log2 * 256) 256⟩ b.part
        (({ s with qc := { s.qc with rr := q + 1 } } : State).readTables ⟨s.mem.readBytes (e.ringBase + e.head % 2 ^ e.log2 * 256) 256⟩ b.part).2 = code := by
  intro code h
  rcases h with rfl | rfl
  · exact ⟨atWork (plain []), 0, _, _, _, by decide, rfl, rfl, by decide +kernel, by decide +kernel, by decide +kernel⟩
  · exact ⟨atWork (plain [(2, 0)]), 0, _, _, _, by decide, rfl, rfl, by decide +kernel, by decide +kernel, by decide +kernel⟩

/-- A grid whose one team has exited. -/
def exitedGrid : Grid := { plain [] with waiting := false, exited := [0], map := [0] }
def exited : State := gridded exitedGrid

theorem meets_QueueAndGridEvents_ends :
    (∃ (s : State) (id : Nat) (g : Grid), SMap.find? s.grids id = some g ∧ g.pkt.kind = 2 ∧ g.waiting = true ∧ g.done = false ∧
      s.priorEnded g = true)
    ∧ (∃ (s : State) (id : Nat) (g : Grid), SMap.find? s.grids id = some g ∧ s.priorEnded g = false)
    ∧ (∃ (s : State) (id : Nat) (g : Grid), SMap.find? s.grids id = some g ∧ s.gridOver id = false)
    ∧ ∃ (s : State) (id : Nat) (g : Grid) (s1 : State) (pa : Nat), SMap.find? s.grids id = some g ∧ s.gridOver id = true ∧
      g.pkt.complAddr % 128 = 0 ∧ g.pkt.cbarValid = false ∧ s.walkFor g.pkt.asid g.pkt.complAddr true = (s1, .ok ⟨pa, none⟩) ∧
      s1.physCheck g.part pa true = .ok ∧ offTable s1 pa 128 := by
  refine ⟨⟨{ State.reset with grids := [(1, gridWith 2 [])] }, 1, _, rfl, by decide, by decide, by decide, by decide⟩,
    ⟨{ State.reset with grids := [(1, gridWith 2 []), (2, { gridWith 2 [] with number := 1 })] }, 2, _, rfl, by decide⟩,
    ⟨gridded (plain []), 1, _, rfl, by decide +kernel⟩, ?_⟩
  have h : (match (exited.walkFor 0 0 true).2 with
    | .ok p => decide (p = ⟨0x1005000, none⟩)
    | .error _ => false) = true := by decide +kernel
  have e : exited.walkFor exitedGrid.pkt.asid exitedGrid.pkt.complAddr true = ((exited.walkFor 0 0 true).1, .ok ⟨0x1005000, none⟩) := by
    rw [show exitedGrid.pkt.asid = 0 by decide +kernel, show exitedGrid.pkt.complAddr = 0 by decide +kernel]
    split at h
    · next p q => rw [← of_decide_eq_true h, ← q]
    · cases h
  exact ⟨exited, 1, exitedGrid, (exited.walkFor 0 0 true).1, 0x1005000, by decide +kernel, by decide +kernel,
    by decide +kernel, by decide +kernel, e, by decide +kernel, by unfold offTable; decide +kernel⟩

/-- A restartable packet of one task of a box of eight points. -/
def tasky : Grid := plain [(1, 1), (32, 1), (40, 1), (48, 8), (64, 1), (80, 1), (81, 0)]

theorem meets_QueueAndGridEvents_starts :
    (∃ (s : State) (id k x run w b : Nat) (g : Grid), SMap.find? s.grids id = some g ∧ opens s g ∧ g.pkt.restartable = false ∧
      g.restarts = [] ∧ g.nextTeams = [k] ∧ g.slotsFree [k] = true ∧ roomAt s g (g.map.getD (k % g.pkt.mapCount) 0) x run w b)
    ∧ (∃ (s : State) (id : Nat) (g : Grid), SMap.find? s.grids id = some g ∧ opens s g ∧ g.pkt.restartable = false ∧
      g.restarts = [] ∧ s.placeAll id g g.nextTeams = none)
    ∧ (∃ (s : State) (id x run w b : Nat) (g : Grid), SMap.find? s.grids id = some g ∧ opens s g ∧ g.pkt.restartable = true ∧
      g.started < g.pkt.mapCount ∧ s.oldestWaits (g.map.getD g.started 0) id = false ∧ noneGrows s (g.map.getD g.started 0) ∧ roomAt s g (g.map.getD g.started 0) x run w b)
    ∧ (∃ (s : State) (c : Nat), s.pendingOn c = [])
    ∧ ∃ (s : State) (c num x run w b : Nat) (y : Task) (g : Grid) (r : List Nat)
      (later : List (Nat × Task × Grid)), s.pendingOn c = (num, y, g) :: later ∧
      s.task? num = some y ∧ g.pkt.mode ≤ 1 ∧ s.taskCores g y = c :: r ∧ noneGrows s c ∧ roomAt s g c x run w b := by
  refine ⟨⟨gridded (plain []), 1, 0, 0, 0, 0, 0, { plain [] with map := [0] }, by decide +kernel, by unfold opens; decide +kernel,
      by decide +kernel, by decide, by decide +kernel, by decide +kernel, by unfold roomAt; decide +kernel⟩,
    ⟨{ gridded (plain []) with codeObjs := [] }, 1, { plain [] with map := [0] }, by decide +kernel, by unfold opens; decide +kernel,
      by decide +kernel, by decide, ?_⟩,
    ⟨gridded tasky, 1, 0, 0, 0, 0, { tasky with map := [0] }, by decide +kernel, by unfold opens; decide +kernel, by decide +kernel,
      by decide +kernel, by decide +kernel, by unfold noneGrows; decide +kernel, by unfold roomAt; decide +kernel⟩,
    ⟨State.reset, 0, by decide⟩,
    ⟨{ gridded { tasky with started := 1, waiting := false } with tasks :=
        { State.reset.tasks with next := 2, list := [(1, { grid := 1, stamp := 1, box := [(0, 7)], mapIdx := 0, lastCore := 0 })] } },
      0, 1, 0, 0, 0, 0, { grid := 1, stamp := 1, box := [(0, 7)], mapIdx := 0, lastCore := 0 },
      { tasky with started := 1, waiting := false, map := [0] }, [], [], by decide +kernel, by decide +kernel, by decide +kernel,
      by decide +kernel, by unfold noneGrows; decide +kernel, by unfold roomAt; decide +kernel⟩⟩
  exact Option.isNone_iff_eq_none.mp (by decide +kernel)

/-- A core with one entry of its active-message port open for partition 0. -/
def ported (more : Core → Core) : State :=
  let s := atWork (plain [])
  { s with
    att := { s.att with qps := [(9, { kind := 2, vf := 3 })] }
    cores := [(0, more { amPort := [(1, { zoneSize := 16, zoneBase := 0, window := 0, asid := 0, part := 0, hregs := 8, valid := true })] })] }

/-- The header of a message for entry 1 of core 0, with a payload of four bytes. -/
def message (kind : Byte) : List Byte := [kind, 1, 4, 0] ++ List.replicate 28 0 ++ [1, 2, 3, 4]

theorem meets_QueueAndGridEvents_messages :
    (∃ (s : State) (c x b : Nat) (m : Message) (r : List Message), (s.core c).messages = m :: r ∧ m.sender = none ∧ s.mgmt.halting = false ∧ 16 ≤ x ∧ x < 20 ∧
      SMap.find? (s.core c).ctxs x = none ∧ (∀ y, 16 ≤ y → y < x → SMap.find? (s.core c).ctxs y ≠ none) ∧
      (s.core c).chooseSlice false none = some b ∧
      (s.core c).blocksUsed + (SMap.get {} (s.core c).amPort m.entry).hregs ≤ Config.blocks)
    ∧ (∃ (s : State) (c : Nat), (s.core c).messages = [])
    ∧ (∃ (s : State) (n : Nat) (q : QueuePair), SMap.find? s.att.qps n = some q ∧ q.error = true)
    ∧ (∃ (s : State) (n : Nat) (q : QueuePair) (bs : List Byte), SMap.find? s.att.qps n = some q ∧ q.kind = 2 ∧ q.error = false ∧
      32 ≤ bs.length ∧ 32 + fieldAt bs 2 2 ≤ bs.length ∧ bs.length ≤ 4096 ∧ s.messageStatus (vfOf s q.vf).part bs ≠ 0)
    ∧ (∃ (s : State) (n : Nat) (q : QueuePair) (bs : List Byte), SMap.find? s.att.qps n = some q ∧ q.kind = 2 ∧ q.error = false ∧
      32 ≤ bs.length ∧ 32 + fieldAt bs 2 2 ≤ bs.length ∧ bs.length ≤ 4096 ∧ s.messageStatus (vfOf s q.vf).part bs = 0 ∧
      (s.core (fieldAt bs 12 2)).handlersFree ≠ 0)
    ∧ ∃ (s : State) (n : Nat) (q : QueuePair) (bs : List Byte), SMap.find? s.att.qps n = some q ∧ q.kind = 2 ∧ q.error = false ∧
      32 ≤ bs.length ∧ 32 + fieldAt bs 2 2 ≤ bs.length ∧ bs.length ≤ 4096 ∧ s.messageStatus (vfOf s q.vf).part bs = 0 ∧
      (s.core (fieldAt bs 12 2)).handlersFree = 0 :=
  let m : Message := { entry := 1, handler := 0, dest := 0, len := 0, arg := [], vf := 3 }
  ⟨⟨ported (fun co => { co with messages := [m] }), 0, 16, 0, m, [], by decide, by decide, by decide, by decide, by decide, by decide,
      fun y h h' => absurd h' (by omega), by decide, by decide⟩,
    ⟨State.reset, 0, by decide⟩,
    ⟨withAtt (fun a => { a with qps := [(9, { kind := 2, vf := 3, error := true })] }), 9, _, rfl, rfl⟩,
    ⟨ported id, 9, _, message 2, rfl, by decide, by decide, by decide, by decide, by decide, by decide⟩,
    ⟨ported id, 9, _, message 1, rfl, by decide, by decide, by decide, by decide, by decide, by decide, by decide⟩,
    ⟨ported (fun co => { co with messages := [m, m, m, m] }), 9, _, message 1, rfl, by decide, by decide, by decide, by decide, by decide,
      by decide, by decide⟩⟩

/-- The task's flow has ended. -/
def ended : State := tasked.updCf (fun fl => { fl with wait := .ended })

theorem meets_ScheduleAndTaskEvents_scheduling :
    (∃ (s : State) (c x f : Nat), (s.ctx c x).live = true ∧ 256 ≤ ((s.ctx c x).flow f).ready ∧ ((s.ctx c x).flow f).boost = none)
    ∧ (∃ (s : State) (c x f : Nat), ((s.ctx c x).flow f).ready < 256) ∧ (∃ (s : State) (c x f : Nat), ((s.ctx c x).flow f).boost ≠ none)
    ∧ (∀ held, (held = true ∨ held = false) → ∃ (s : State) (c b : Nat) (q : Claim), (s.core c).claims = [q] ∧ q.granted = false ∧
      q.ctx = none ∧ (if held then q.block = some b ∧ (s.core c).blockFree q.clusters b = true
        else (∀ d, q.block = some d → (s.core c).blockFree q.clusters d = false) ∧ (s.core c).eligibleBlock q.clusters = some b) ∧
      (∀ p ∈ (s.core c).ctxs, ∀ n ∈ p.2.clusterList, n < b ∨ b + q.clusters ≤ n) ∧
      ∀ p ∈ (s.core c).ctxs, ∀ r ∈ (s.core c).ctxs, p.1 = r.1 → p = r)
    ∧ ∃ (s : State) (c : Nat), (s.core c).claims = [] :=
  ⟨⟨team.updCf (fun fl => { fl with ready := 256 }), 0, 0, 255, by decide, by decide, by decide⟩, ⟨team, 0, 0, 255, by decide⟩,
    ⟨team.updCf (fun fl => { fl with boost := some 3 }), 0, 0, 255, by decide⟩,
    fun held h => by
      rcases h with rfl | rfl
      · exact ⟨team.updCore 0 (fun co => { co with claims := [{ ctx := none, grid := 1, team := 0, clusters := 4, block := some 4 }] }), 0, 4,
          _, rfl, by decide, by decide, by decide, by decide, by decide⟩
      · exact ⟨State.reset.updCore 0 (fun co => { co with claims := [{ ctx := none, grid := 1, team := 0, clusters := 4, block := none }] }), 0, 0,
          _, rfl, by decide, by decide, ⟨fun d h => by simp at h, by decide⟩, by decide, by decide⟩,
    ⟨State.reset, 0, by decide⟩⟩

/-- The task's entry, an abort due. -/
def aborting : Task :=
  { grid := 1, stamp := 1, box := [(0, 7)], mapIdx := 0, state := .running 0 0, lastCore := 0, abortDue := some 1 }

theorem meets_ScheduleAndTaskEvents_ends :
    (∃ (s : State) (c x id : Nat) (y : Task) (g : Grid), s.commitReady c x = true ∧ (s.ctx c x).task = some id ∧
      s.task? id = some y ∧ SMap.find? s.grids (s.ctx c x).grid = some g ∧ (s.ctx c x).tack = [] ∧ (s.ctx c x).loads = [] ∧
      (s.core c).trc.enable = false ∧ s.tasks.spec ≠ [] ∧ ∀ e ∈ s.tasks.spec, e.task = id → offTable s (e.pa * 4) 4)
    ∧ (∃ (s : State) (c x id cause : Nat) (y : Task), s.abortFor c x = some (id, y) ∧ y.abortDue = some cause ∧
      (∀ a b, y.state ≠ .saved a b) ∧ (s.ctx c x).task = some id ∧ s.task? id = some y)
    ∧ ∃ (s : State) (c x : Nat), s.abortFor c x = none :=
  ⟨⟨{ ended with tasks := { ended.tasks with spec := [⟨1, 0x1000000, 7⟩] } }, 0, 0, 1, _, _, by decide, rfl, rfl, rfl, by decide,
      by decide, by decide, by decide, by unfold offTable; decide⟩,
    ⟨{ tasked with tasks := { tasked.tasks with list := [(1, aborting)] } }, 0, 0, 1, 1, aborting, rfl, rfl, by simp [aborting], rfl, rfl⟩,
    ⟨State.reset, 0, 0, by decide⟩⟩

/-- The task with a budget event. -/
def budgeted (box : List (Nat × Nat)) : State :=
  let s := tasked.updCc (fun k => { k with budgetEvent := some (7, 255) })
  { s with tasks := { s.tasks with list := [(1, { grid := 1, stamp := 1, box := box, mapIdx := 0, state := .running 0 0, lastCore := 0 })] } }

theorem meets_ScheduleAndTaskEvents_budgets :
    (∀ box, (box = [(0, 7)] ∨ box = [(3, 3)]) → ∃ (s : State) (c x id code f : Nat) (y : Task) (g : Grid), (s.ctx c x).live = true ∧
      (s.ctx c x).stopped = none ∧ s.trapOwed c x = false ∧ (s.ctx c x).task = some id ∧ (s.ctx c x).budgetEvent = some (code, f) ∧ s.task? id = some y ∧
      s.grid? y.grid = some g ∧ id ≠ s.tasks.next ∧ (splitBox g.pkt y.box).isSome = decide (box = [(0, 7)]))
    ∧ (∃ (s : State) (c x : Nat) (g : Grid), (s.ctx c x).live = true ∧ (s.ctx c x).task ≠ none ∧ (s.ctx c x).budgetEvent = none ∧
      SMap.find? s.grids (s.ctx c x).grid = some g ∧ 0 < g.pkt.cycleBudget ∧ g.pkt.cycleBudget ≤ (s.ctx c x).taskCycles)
    ∧ (∃ (s : State) (c x : Nat) (g : Grid), (s.ctx c x).live = true ∧ (s.ctx c x).task ≠ none ∧ (s.ctx c x).budgetEvent = none ∧
      SMap.find? s.grids (s.ctx c x).grid = some g ∧ (s.ctx c x).taskCycles < g.pkt.cycleBudget)
    ∧ (∃ (s : State) (c x : Nat), (s.ctx c x).live = true ∧ (s.ctx c x).age < 65536)
    ∧ ∃ (s : State) (c x : Nat), (s.ctx c x).live = true ∧ 65536 ≤ (s.ctx c x).age := by
  refine ⟨fun box h => ?_, ?_, ?_, ⟨team, 0, 0, by decide, by decide⟩,
    ⟨team.updCc (fun k => { k with age := 65536 }), 0, 0, by decide, by decide⟩⟩
  · rcases h with rfl | rfl
    · exact ⟨budgeted [(0, 7)], 0, 0, 1, 7, 255, _, _, by decide, by decide, by decide, by decide, by decide, rfl, rfl, by decide, by decide +kernel⟩
    · exact ⟨budgeted [(3, 3)], 0, 0, 1, 7, 255, _, _, by decide, by decide, by decide, by decide, by decide, rfl, rfl, by decide, by decide +kernel⟩
  · exact ⟨{ tasked.updCc (fun k => { k with taskCycles := 5 }) with grids := [(1, gridWith 1 [(40, 5)])] }, 0, 0, _, by decide, by decide,
      by decide, rfl, by decide +kernel, by decide +kernel⟩
  · exact ⟨{ tasked with grids := [(1, gridWith 1 [(40, 5)])] }, 0, 0, _, by decide, by decide, by decide, rfl, by decide +kernel⟩

/-! ### Engines -/

/-- A command of queue q. -/
def command (q : Nat) (op : EngOp) : EngCmd := { id := 1, queue := q, op := op, site := 0x40, notify := none }

/-- The team with queues of commands. -/
def engaged (qs : List (Nat × List EngCmd)) : State := team.updCc (fun k => { k with eq := qs })

/-- A gather of one row. -/
def gathered : GatherDesc := ⟨0, 4, [2], 4, 0, 4, 0, 0, 0, 0, 0⟩

/-- A copy of one word from offset 0 to offset 8. -/
def oneWordCopy : CopyDesc := { src := 0, dst := 8, sspace := 0, dspace := 0, elem := 2, dims := [(1, 4, 4)] }

theorem meets_EngineAndInterruptEvents_heads :
    (∃ (s : State) (c x q : Nat) (cmd : EngCmd) (m : BitVec 4), headOf s c x q cmd ∧ cmd.op = .fence m ∧ staysOn s c x ∧
      ∀ j, j < 4 → m.getLsbD j = true → ∃ h, headOf s c x j h ∧ h.id = cmd.id)
    ∧ (∃ (s : State) (c x q : Nat) (cmd : EngCmd) (m : BitVec 4), headOf s c x q cmd ∧ cmd.op = .fence m ∧ staysOn s c x ∧
      ∃ j, j < 4 ∧ m.getLsbD j = true ∧ ∀ h, headOf s c x j h → h.id ≠ cmd.id)
    ∧ ∃ (s : State) (c x q : Nat) (cmd : EngCmd) (d : CopyDesc), headOf s c x q cmd ∧ cmd.op = .copy d false ∧ staysOn s c x ∧
      (s.ctx c x).task = none ∧ cmd.done = 0 ∧ d.sspace = 0 ∧ d.dspace = 0 ∧ d.count false = 1 ∧ d.elem ≤ 3 ∧
      d.src < 2 ^ 32 ∧ d.dst < 2 ^ 32 ∧ d.dst % 2 ^ d.elem = 0 := by
  refine ⟨⟨engaged [(0, [command 0 (.fence 3)]), (1, [command 0 (.fence 3)])], 0, 0, 0, command 0 (.fence 3), 3, ⟨by decide, [], rfl⟩,
      rfl, by unfold staysOn; decide, fun j hj h => ?_⟩,
    ⟨engaged [(0, [command 0 (.fence 3)])], 0, 0, 0, command 0 (.fence 3), 3, ⟨by decide, [], rfl⟩,
      rfl, by unfold staysOn; decide, 1, by decide, by decide, fun h hh => ?_⟩,
    ⟨engaged [(0, [command 0 (.copy oneWordCopy false)])], 0, 0, 0, command 0 (.copy oneWordCopy false), oneWordCopy,
      ⟨by decide, [], rfl⟩, rfl, by unfold staysOn; decide, by decide, by decide, by decide, by decide, by decide, by decide, by decide,
      by decide, by decide⟩⟩
  · have : j = 0 ∨ j = 1 := by revert h; revert j; decide
    rcases this with rfl | rfl
    · exact ⟨command 0 (.fence 3), ⟨by decide, [], rfl⟩, rfl⟩
    · exact ⟨command 0 (.fence 3), ⟨by decide, [], rfl⟩, rfl⟩
  · obtain ⟨_, r, hr⟩ := hh
    exact absurd (hr.symm.trans (show _ = [] by decide)) (by simp)

/-- The context of `mapped` with a gather of one row of four bytes, the entry with index 2 of a table at 0. -/
def gathering : State :=
  mapped.updCc (fun k => { k with eq := [(1, [command 1 (.gather .gat gathered)])] })

theorem meets_EngineAndInterruptEvents_gathers :
    ∃ (s s1 : State) (c x q j pa : Nat) (cmd : EngCmd) (d : GatherDesc), headOf s c x q cmd ∧ cmd.op = .gather .gat d ∧
      staysOn s c x ∧ (s.ctx c x).task = none ∧ (s.ctx c x).engPages = [] ∧ cmd.done = 0 ∧ cmd.old = [] ∧ cmd.notify = none ∧
      d.idx = [j] ∧ d.rowBytes = 4 ∧ d.local_ + 4 ≤ 2 ^ 32 ∧
      s.translate c (s.ctx c x).asid (spaceAddr 2 ((d.table + j * d.tstride : Nat) : Int)) false = (s1, .ok ⟨pa, none⟩) ∧
      pa < Config.regSpace ∧ s1.physCheck (s.ctx c x).part pa false = .ok := by
  have h : (match (gathering.translate 0 0 (spaceAddr 2 ((gathered.table + 2 * gathered.tstride : Nat) : Int)) false).2 with
    | .ok p => decide (p = ⟨0x1005008, none⟩)
    | .error _ => false) = true := by decide +kernel
  have e : gathering.translate 0 (gathering.ctx 0 0).asid (spaceAddr 2 ((gathered.table + 2 * gathered.tstride : Nat) : Int)) false =
      ((gathering.translate 0 0 (spaceAddr 2 ((gathered.table + 2 * gathered.tstride : Nat) : Int)) false).1, .ok ⟨0x1005008, none⟩) := by
    rw [show (gathering.ctx 0 0).asid = 0 by decide]
    split at h
    · next p q => rw [← of_decide_eq_true h, ← q]
    · cases h
  exact ⟨gathering, _, 0, 0, 1, 2, 0x1005008, command 1 (.gather .gat gathered), gathered, ⟨by decide, [], rfl⟩, rfl,
    by unfold staysOn; decide, by decide, by decide, rfl, rfl, rfl, rfl, rfl, by decide, e, by decide, by decide +kernel⟩

/-- The team of `ported`, a message or a launch at the head of its queue 3. -/
def sending (more : Core → Core) (kind : Byte) : State :=
  let k : Ctx := { placedCtx false with eq := [(3, [{ command 3 (.send 0 64) with msg := message kind }])] }
  ported (fun co => more { co with ctxs := [(0, k)] })

theorem meets_EngineAndInterruptEvents_sends :
    ∀ kind : Byte, (kind = 1 ∨ kind = 2) → ∃ (s : State) (c x : Nat) (cmd : EngCmd) (off compl : Nat), headOf s c x 3 cmd ∧
      cmd.op = .send off compl ∧ cmd.queue = 3 ∧ staysOn s c x ∧ cmd.done = 0 ∧ cmd.notify = none ∧
      (s.messageStatus (s.ctx c x).part cmd.msg = 0 ↔ kind = 1) ∧ (s.core (fieldAt cmd.msg 12 2)).handlersFree ≠ 0 := by
  intro kind h
  rcases h with rfl | rfl
  · exact ⟨sending id 1, 0, 0, { command 3 (.send 0 64) with msg := message 1 }, 0, 64, ⟨by decide, [], rfl⟩, rfl, rfl,
      by unfold staysOn; decide, rfl, rfl, by decide, by decide⟩
  · exact ⟨sending id 2, 0, 0, { command 3 (.send 0 64) with msg := message 2 }, 0, 64, ⟨by decide, [], rfl⟩, rfl, rfl,
      by unfold staysOn; decide, rfl, rfl, by decide, by decide⟩

theorem meets_EngineAndInterruptEvents_send_waits :
    ∃ (s : State) (c x : Nat) (cmd : EngCmd) (off compl : Nat), headOf s c x 3 cmd ∧
      cmd.op = .send off compl ∧ cmd.queue = 3 ∧ staysOn s c x ∧ cmd.done = 0 ∧ cmd.notify = none ∧
      s.messageStatus (s.ctx c x).part cmd.msg = 0 ∧ (s.core (fieldAt cmd.msg 12 2)).handlersFree = 0 :=
  let m : Message := { entry := 1, handler := 0, dest := 0, len := 0, arg := [], vf := 3 }
  ⟨sending (fun co => { co with messages := [m, m, m, m] }) 1, 0, 0, { command 3 (.send 0 64) with msg := message 1 }, 0, 64,
    ⟨by decide, [], rfl⟩, rfl, rfl, by unfold staysOn; decide, rfl, rfl, by decide, by decide⟩

/-- A context of VF 3 with a packet to append to the VF's queue i, which the cache holds with a source and a tail; the VF under
reset or not. -/
def launching (i source tail : Nat) (busy : Bool) : State :=
  let k : Ctx := { placedCtx false with vf := 3, eq := [(3, [{ command 3 (.launch i 0 64) with msg := [1] }])] }
  let s := ported (fun co => { co with ctxs := [(0, k)] })
  { s with qc := { s.qc with cache := [(0, { cachedQueue with source := source, tail := tail })] }
           att := { s.att with vfs := [(3, { boundPf with resetBusy := busy })] } }

theorem meets_EngineAndInterruptEvents_launches :
    ∀ i source tail busy, ((i, source, tail, busy) = (16, 3, 0, false) ∨ (i, source, tail, busy) = (0, 2, 0, false)
        ∨ (i, source, tail, busy) = (0, 3, 0, true) ∨ (i, source, tail, busy) = (0, 3, 16, false)
        ∨ (i, source, tail, busy) = (0, 3, 15, false)) →
    ∃ (s : State) (c x addr compl : Nat) (cmd : EngCmd), headOf s c x 3 cmd ∧ cmd.op = .launch i addr compl ∧ cmd.queue = 3 ∧
      staysOn s c x ∧ cmd.msg ≠ [] ∧ cmd.notify = none ∧ (vfOf s (s.ctx c x).vf).resetBusy = busy ∧
      ((vfOf s (s.ctx c x).vf).qcount ≤ i ∨ i < (vfOf s (s.ctx c x).vf).qcount ∧
        ∃ e, s.cached ((vfOf s (s.ctx c x).vf).qbase + i) = some e ∧ e.source = source ∧
        e.tail = tail ∧ e.enabled = true ∧ s.physCheck (vfOf s (s.ctx c x).vf).part (e.ringBase + e.tail % 2 ^ e.log2 * 256) true = .ok ∧
        offTable s (e.ringBase + e.tail % 2 ^ e.log2 * 256) cmd.msg.length) := by
  intro i source tail busy h
  refine ⟨launching i source tail busy, 0, 0, 0, 64, { command 3 (.launch i 0 64) with msg := [1] }, ⟨rfl, [], rfl⟩, rfl, rfl, ?_, by simp,
    rfl, ?_, ?_⟩
  · exact ⟨(255, _), .head _, by simp⟩
  · rfl
  · rcases h with h | h | h | h | h <;> (simp only [Prod.mk.injEq] at h; obtain ⟨rfl, rfl, rfl, rfl⟩ := h)
    · exact .inl (by decide +kernel)
    all_goals exact .inr ⟨by decide +kernel, _, rfl, rfl, rfl, rfl, by decide +kernel, by unfold offTable; decide +kernel⟩

/-- The context of `mapped` in a collective of itself alone. -/
def collecting : State :=
  mapped.updCc (fun k => { k with eq := [(2, [command 2 (.coll 2 4
    { src := 0, dst := 0, count := 0, tag := 7, ndev := 1, rank := 0, red := 0, root := 0, list := 0, status := 44 })])] })

theorem meets_EngineAndInterruptEvents_collectives :
    (∃ (s : State) (c x : Nat), s.membersOf c x = [])
    ∧ ∃ (s : State) (c x : Nat) (m : Member), s.membersOf c x = [m] ∧ m.core = c ∧ m.ctx = x ∧ m.d.ndev = 1 ∧ m.d.rank = 0 ∧
      s.rankHolds m = true ∧ s.localRanks m = [0] ∧ s.nextFault c x 2 = none ∧ m.cmd.done = 0 ∧ staysOn s c x := by
  refine ⟨⟨State.reset, 0, 0, by decide⟩, collecting, 0, 0, (collecting.membersOf 0 0).headD ⟨0, 0, command 2 (.fence 0), 0, 0,
    ⟨0, 0, 0, 0, 0, 0, 0, 0, 0, 0⟩, []⟩, by decide +kernel, by decide +kernel, by decide +kernel, by decide +kernel, by decide +kernel,
    by decide +kernel, by decide +kernel, by decide +kernel, by decide +kernel, by unfold staysOn; decide +kernel⟩

theorem meets_EngineAndInterruptEvents_faults :
    (∃ (s : State) (c x q : Nat), s.nextFault c x q = none)
    ∧ ∃ (s : State) (c x q : Nat) (cmd : EngCmd), (s.nextFault c x q).isSome = true ∧ headOf s c x q cmd :=
  ⟨⟨State.reset, 0, 0, 0, by decide⟩,
    ⟨engaged [(0, [command 0 (.copy { oneWordCopy with sspace := 2 } false)])], 0, 0, 0, _, by decide +kernel, ⟨by decide, _, rfl⟩⟩⟩

theorem meets_EngineAndInterruptEvents_arrivals :
    (∃ (s : State) (c x : Nat) (l : Load), (s.ctx c x).loads.find? (fun l => l.trap.isNone) = some l)
    ∧ (∃ (s : State) (c w part : Nat), (SMap.get {} (s.core c).barWin w).part ≠ part)
    ∧ (∃ (s : State) (c w part : Nat), (SMap.get {} (s.core c).barWin w).part = part ∧ (SMap.get {} (s.core c).barWin w).valid = false)
    ∧ (∃ (s : State) (c w part : Nat) (v : Dword), (SMap.get {} (s.core c).barWin w).part = part ∧
      (SMap.get {} (s.core c).barWin w).valid = true ∧ s.objectLive c part (v.extractLsb' 0 16).toNat = false)
    ∧ (∃ (s : State) (c w part : Nat) (v : Dword), (SMap.get {} (s.core c).barWin w).part = part ∧
      (SMap.get {} (s.core c).barWin w).valid = true ∧ v.extractLsb' 42 22 = 0 ∧ s.objectLive c part (v.extractLsb' 0 16).toNat = true)
    ∧ (∃ (s : State) (c x part : Nat), (s.ctx c x).live = true ∧ (s.ctx c x).part = part)
    ∧ (∃ (s : State) (c x : Nat), s.uiDue c x = false)
    ∧ ∀ vec : Word, (vec = 0 ∨ vec = 0x40) → ∃ (s : State) (c x n : Nat), s.uiDue c x = true ∧ n < 16 ∧
      (s.ctx c x).uipend.getLsbD n = true ∧ (s.ctx c x).uimask.getLsbD n = false ∧
      (∀ i, i < n → (s.ctx c x).uipend.getLsbD i = false ∨ (s.ctx c x).uimask.getLsbD i = true) ∧ (s.core c).trc.enable = false ∧
      (s.ctx c x).uivec = vec ∧ s.ringFull c = false := by
  let open_ : State := team.updCore 0 (fun co => { co with barWin := [(3, { valid := true })] })
  refine ⟨⟨team.updCc (fun k => { k with loads := [{ tag := 1, writes := [⟨.v 3 0, 7⟩], trap := none, slot := 8 }] }), 0, 0, _, rfl⟩,
    ⟨State.reset, 0, 3, 1, by decide⟩, ⟨State.reset, 0, 3, 0, by decide, by decide⟩,
    ⟨open_, 0, 3, 0, 128, by decide, by decide, by decide⟩, ⟨open_, 0, 3, 0, 127, by decide, by decide, by decide, by decide⟩,
    ⟨team, 0, 0, 0, by decide, by decide⟩, ⟨State.reset, 0, 0, by decide⟩, fun vec h => ?_⟩
  rcases h with rfl | rfl
  · exact ⟨team.updCc (fun k => { k with uipend := 0x8001, uimask := 0x7FFF }), 0, 0, 15, by decide, by decide, by decide, by decide,
      by decide, by decide, by decide, by decide⟩
  · exact ⟨team.updCc (fun k => { k with uipend := 0x8001, uimask := 0, uivec := 0x40 }), 0, 0, 0, by decide, by decide, by decide,
      by decide, by decide, by decide, by decide, by decide⟩

/-- A user interrupt is due, and a trap of another context already waits for a slot of the section's queue. -/
theorem meets_EngineAndInterruptEvents_full : ∃ (s : State) (c x : Nat), s.uiDue c x = true ∧ (s.ctx c x).uipend.getLsbD 0 = true ∧
    (s.ctx c x).uimask.getLsbD 0 = false ∧ (s.core c).trc.enable = false ∧ (s.ctx c x).uivec = 0 ∧ s.ringFull c = true :=
  ⟨{ team.updCc (fun k => { k with uipend := 1, uimask := 0 }) with sects := [(0, { owed := [.stop 0 1 255 { cause := 7 }] })] },
    0, 0, by decide, by decide, by decide, by decide, by decide, by decide⟩

/-! ### Sections, commands, registers and errors -/

/-- A record of a trap on flow 255 with a cause, a detail and the resume bit. -/
def record (cause detail : Nat) (flags : BitVec 8) : TrapRecord :=
  { cause := cause, flags := flags, context := 0, firstSlot := 0, slots := 0, lwb := 0, pass := 0, codeAddr := 0, window := 0, core := 0
    part := 0, groupValid := 0, lanes := 0, fault := 0, age := 0, fragment := 255, detail := detail, time := 0 }

/-- The team stopped at a trap. -/
def halted (cause detail : Nat) (flags : BitVec 8) : State :=
  team.updCc (fun k => { k with stopped := some (record cause detail flags) })

theorem halted_stopped {cause detail : Nat} {flags : BitVec 8} (h : cause ≠ 0x15) :
    stoppedAt (halted cause detail flags) 0 0 (record cause detail flags) := ⟨rfl, rfl, rfl, h⟩

/-- `mapped`, its page for reading alone. -/
def readOnly : State := { mapped with mem := mapped.mem.writeBytes 0x1004000 (leBytes 8 0x1005003) }

/-- A stopped context of `mapped` with a save area in the frame that partition 0 owns, and the machine that has saved it
(its header alone is written out). -/
def parking : State :=
  let s := { mapped with mem := mapped.mem.write 257 0x80 }
  let s := s.updCc (fun k => { k with stopped := some (record 0x17 0 2), spadLen := 0, blocks := 0, nregs := 0 })
  s.updCore 0 (fun co => { co with ctxSave := [(0, 0x1010000)] })
def parkedState : State :=
  let k : Ctx := { parking.ctx 0 0 with stopped := none, home := 0 }
  { parking with
    cores := [(0, { ctxSave := [(0, 0x1010000)], codeWin := [(0, { refs := 0, part := 0, len := 1, base := 0, valid := true })] })]
    parkedCtxs := [(0x1010000, k)]
    mem := parking.mem.writeBytes 0x1010000 (k.saveHeader 0 0) }

/-- The team before a stop that waits for a slot of the trap queue. -/
def owing : State := { team with sects := [(0, { owed := [.stop 0 0 255 { cause := 0x17 }] })] }

/-- The same machine with an uncorrectable error in the save area. -/
def spoiltState : State := { parkedState with poison := [0x1010000 / 128 + 2] }

/-- Reading a part of bytes that were read is reading the part. -/
theorem part_readBytes (m : Memory) (a n off k : Nat) (h : off + k ≤ n) :
    ((m.readBytes a n).drop off).take k = m.readBytes (a + off) k := by
  induction off generalizing a n with
  | zero =>
    induction k generalizing a n with
    | zero => rfl
    | succ k ih =>
      obtain ⟨n, rfl⟩ : ∃ j, n = j + 1 := ⟨n - 1, by omega⟩
      simpa [Memory.readBytes] using ih (a + 1) n (by omega)
  | succ off ih =>
    obtain ⟨n, rfl⟩ : ∃ j, n = j + 1 := ⟨n - 1, by omega⟩
    rw [show a + (off + 1) = a + 1 + off by omega, ← ih (a + 1) n (by omega)]
    rfl

theorem fieldAt_readBytes (m : Memory) (a n off k : Nat) (h : off + k ≤ n) :
    fieldAt (m.readBytes a n) off k = leNat (m.readBytes (a + off) k) := by rw [fieldAt, part_readBytes _ _ _ _ _ h]

theorem zeroRun_readBytes (m : Memory) (a n off k : Nat) (h : off + k ≤ n) :
    zeroRun (m.readBytes a n) off k = (m.readBytes (a + off) k).all (fun b => b == 0) := by rw [zeroRun, part_readBytes _ _ _ _ _ h]

/-- The shape of the area of `parking`, and its bytes. -/
def parkedShape : SaveShape := ⟨0xC600, 0xC600, 0xC600, 0xC600, 0xC600, 0xC600, 0xCA00, 0xCA00, 0xCA00⟩
def parkedCtx : Ctx := { parking.ctx 0 0 with stopped := none, home := 0 }
def parkedBytes : List Byte := parkedState.mem.readBytes 0x1010000 0xCA00

theorem parked_field (off k : Nat) (h : off + k ≤ 0xCA00) :
    fieldAt parkedBytes off k = leNat (parkedState.mem.readBytes (0x1010000 + off) k) := fieldAt_readBytes _ _ _ _ _ h

theorem parked_shape : saveShape parkedBytes = parkedShape := by
  unfold saveShape
  rw [parked_field 4 1 (by decide), parked_field 5 1 (by decide), parked_field 6 1 (by decide), parked_field 40 1 (by decide),
    parked_field 41 1 (by decide), parked_field 8 2 (by decide), parked_field 12 4 (by decide)]
  decide +kernel

/-- What stands behind the header of the area is zero. -/
theorem parked_behind (a : Nat) (h : 0x1010100 ≤ a) : parkedState.mem.read a = 0 := by
  have keys : ∀ p ∈ parkedState.mem.cells, p.1 < 0x1010100 := by decide +kernel
  have none_ : ∀ m : SMap Byte, (∀ p ∈ m, p.1 < a) → SMap.find? m a = none := fun m => by
    induction m with
    | nil => exact fun _ => rfl
    | cons p r ih =>
      intro hm
      have := hm p (by simp)
      simp [SMap.find?, show p.1 ≠ a by omega, ih (fun q hq => hm q (by simp [hq]))]
  simp [Memory.read, SMap.get, none_ _ (fun p hp => Nat.lt_of_lt_of_le (keys p hp) h)]

theorem parked_run (a n : Nat) (h : 0x1010100 ≤ a) : (parkedState.mem.readBytes a n).all (fun b => b == 0) = true := by
  induction n generalizing a with
  | zero => rfl
  | succ n ih => rw [Memory.readBytes, List.all_cons, parked_behind a h, ih (a + 1) (by omega)]; rfl

theorem parked_preds : (recordsAt parkedBytes 0xC200 1 0x400).all (fun r => fieldAt r 0 1 < 128) = true := by
  simp only [recordsAt, List.all_map, List.all_eq_true, List.mem_range, Function.comp]
  intro i hi
  refine decide_eq_true (Nat.lt_of_le_of_lt (Nat.le_of_eq (?_ : _ = 0)) (by decide))
  rw [parkedBytes, part_readBytes _ _ _ _ _ (by omega), Memory.readBytes, parked_behind _ (by omega)]
  rfl

theorem parked_zero : parkedCtx.unassignedZero parkedShape parkedBytes = true := by
  have z : ∀ off k, off + k ≤ 0xCA00 → zeroRun parkedBytes off k = (parkedState.mem.readBytes (0x1010000 + off) k).all (fun b => b == 0) :=
    fun off k h => zeroRun_readBytes _ _ _ _ _ h
  have f : ∀ off n v, off + n ≤ 0xCA00 → leNat (parkedState.mem.readBytes (0x1010000 + off) n) = v → fieldAt parkedBytes off n = v :=
    fun off n v h e => (parked_field off n h).trans e
  unfold Ctx.unassignedZero
  rw [parked_preds, f 0x240 4 0 (by decide) (by decide +kernel), f 10 2 0 (by decide) (by decide +kernel),
    f 0x239 1 0 (by decide) (by decide +kernel), f 4 1 0 (by decide) (by decide +kernel), f 5 1 0 (by decide) (by decide +kernel),
    f 6 1 0 (by decide) (by decide +kernel), f 40 1 0 (by decide) (by decide +kernel), f 41 1 0 (by decide) (by decide +kernel),
    show parkedCtx.nregs = 0 by decide, show parkedCtx.laneCount = 32 by decide, Nat.zero_mul,
    z 0x21A 2 (by decide), z 0x21E 2 (by decide), z 0x23A 2 (by decide), z 0x246 0xBA (by decide),
    z (0x380 + 4 * 0) (0x80 - 4 * 0) (by decide), z (0xA00 + 80 * 0) (0x7800 - 80 * 0) (by decide),
    z (0xC200 + 32) (0x400 - 32) (by decide), z _ _ (by decide), parked_run _ _ (by decide), parked_run _ _ (by decide),
    parked_run _ _ (by decide), parked_run _ _ (by decide), parked_run _ _ (by decide), parked_run _ _ (by decide),
    parked_run _ _ (by decide), parked_run _ _ (by decide)]
  decide +kernel

theorem parked_window : (parkedState.core 0).windowOk parkedCtx parkedBytes = true := by
  unfold Core.windowOk
  rw [parked_shape, parked_field 20 1 (by decide), savedPcs, parked_field 16 4 (by decide)]
  decide +kernel

theorem parked_returns : (parkedState.restoreFrom 0 0 (SMap.get 0 (parkedState.core 0).ctxSave 0)).isSome = true := by
  have e : SMap.get 0 (parkedState.core 0).ctxSave 0 = 0x1010000 := by decide
  have k : SMap.find? parkedState.parkedCtxs 0x1010000 = some parkedCtx := rfl
  have sh : saveShape (parkedState.mem.readBytes 0x1010000 256) = parkedShape := by decide +kernel
  have fits : (!parkedState.fitsBack 0 0 parkedCtx || (parkedState.rangeCheck parkedCtx.part 0x1010000 parkedShape.stop true).isSome) = false := by
    decide +kernel
  have good : (parkedState.rangeCheck parkedCtx.part 0x1010000 parkedShape.stop false).isSome = false := by decide +kernel
  have head : parkedCtx.headerOk (parkedState.mem.readBytes 0x1010000 256) = true := by decide +kernel
  have seat : (parkedState.core 0).seatFor parkedCtx = some 0 := by decide +kernel
  have zone : (parkedState.core 0).zoneFor parkedCtx = some 0 := by decide +kernel
  have none_ : fieldAt parkedBytes 4 1 = 0 := by rw [parked_field 4 1 (by decide)]; decide +kernel
  have frags : ({ parkedCtx.reload parkedBytes with window := fieldAt parkedBytes 20 1 } : Ctx).fragments = [] := by
    simp [Ctx.fragments, Ctx.reload, Ctx.reloadFrags, none_, recordsAt]
  unfold State.restoreFrom
  simp only [e, k, sh, fits, good, head, seat, zone, Bool.false_eq_true, if_false]
  rw [show parkedState.mem.readBytes 0x1010000 parkedShape.stop = parkedBytes from rfl, parked_zero, parked_window]
  simp [Ctx.seatFragments, frags]

theorem spoilt_returns : (spoiltState.restoreFrom 0 0 (SMap.get 0 (spoiltState.core 0).ctxSave 0)).isSome = true := by decide +kernel

/-- A machine whose section 0 has a trap waiting for a slot of its queue. -/
def full (s : State) : State := { s with sects := [(0, { owed := [.stop 0 1 255 { cause := 7 }] })] }

theorem meets_SectionAndCommandEvents_section :
    (∀ w e : Bool, ∃ (s : State) (sec asid va ea en l : Nat), va < 2 ^ 57 ∧ (s.core (8 * sec)).l1tlb = [] ∧ (s.sect sec).tlb = [] ∧
      (s.sect sec).walkCache = [] ∧
      (SMap.get {} s.aspaces asid).valid = true ∧
      s.walk (SMap.get {} s.aspaces asid).part va 4 (SMap.get {} s.aspaces asid).root = .ok (ea, en, l) ∧ en.testBit 4 = false ∧
      offTable s ea 8 ∧ en.testBit 2 = e ∧ (w = true → w = true))
    ∧ (∀ size, (size = 4 ∨ size = 7) → ∃ s : State, (size ≤ 4 ∨ size = 7) ∧ ∀ p ∈ s.cores, ∀ q ∈ p.2.ctxs, q.2.tack = [])
    ∧ (∃ (s : State) (sec : Nat), (s.sect sec).inval = none)
    ∧ (∃ (s : State) (sec : Nat) (i : Inval), (s.sect sec).inval = some i ∧ ∃ e ∈ s.sent, storedUnder e i)
    ∧ (∃ (s : State) (sec : Nat) (i : Inval), (s.sect sec).inval = some i ∧ ∀ e ∈ s.sent, ¬ storedUnder e i)
    ∧ (∃ (s : State) (sec : Nat) (v : Word) (rs : List TrapRecord), (s.sect sec).owed = rs.map OwedTrap.record ∧ rs ≠ [] ∧
      (∀ r ∈ rs, r.core / 8 = sec) ∧ ((s.sect sec).trapQ.drop (v - (s.sect sec).trapHead).toNat).length + rs.length ≤ Config.trapMax)
    ∧ ∃ (s : State) (sec : Nat) (v : Word) (c x f : Nat) (w : Trap), (s.sect sec).owed = [OwedTrap.stop c x f w] ∧ c / 8 = sec ∧
      (s.ctx c x).live = true ∧ ((s.sect sec).trapQ.drop (v - (s.sect sec).trapHead).toNat).length < Config.trapMax := by
  refine ⟨fun w e => ?_, fun size h => ⟨State.reset, by omega, by decide⟩, ⟨State.reset, 0, by decide⟩,
    ⟨{ writing with sects := [(0, { inval := some ⟨0, 0x40, 0⟩ })] }, 0, _, rfl, _, List.mem_singleton.2 rfl, by
      refine ⟨fun c x a h => ?_, by decide⟩
      cases h⟩,
    ⟨{ writing with sects := [(0, { inval := some ⟨0, 0x1000, 0⟩ })] }, 0, _, rfl, fun e h => by
      obtain rfl := List.mem_singleton.1 h
      exact fun g => absurd g.2 (by decide)⟩,
    ⟨{ State.reset with sects := [(0, { owed := [.record (record 7 0 0)] })] }, 0, 1, [record 7 0 0], rfl, by decide, by decide, by decide⟩,
    ⟨owing, 0, 1, 0, 0, 255, { cause := 0x17 }, rfl, by decide, by decide, by decide⟩⟩
  cases e
  · exact ⟨readOnly, 0, 0, 0, 0x1004000, 0x1005003, 0, by decide, by decide +kernel, by decide +kernel, by decide +kernel,
      by decide +kernel, by decide +kernel, by decide, by unfold offTable; decide +kernel, by decide, id⟩
  · exact ⟨mapped, 0, 0, 0, 0x1004000, 0x1005007, 0, by decide, by decide +kernel, by decide +kernel, by decide +kernel,
      by decide +kernel, by decide +kernel, by decide, by unfold offTable; decide +kernel, by decide, id⟩

theorem meets_SectionAndCommandEvents_stops :
    (∃ (s : State) (c x : Nat) (i : Instr), needsStop c x i ∧ nothingStopped s c x)
    ∧ (∃ (s : State) (c x : Nat) (r : TrapRecord), stoppedAt s c x r ∧ r.flags.getLsbD 1 = true)
    ∧ (∃ (s : State) (c x : Nat) (r : TrapRecord), stoppedAt s c x r ∧ (s.ctx c x).handler = false ∧ r.flags.getLsbD 1 = false)
    ∧ (∀ a, (a = (0x13, 0) ∨ a = (0x17, 0) ∨ a = (0x01, 2)) → ∃ (s : State) (c x : Nat) (r : TrapRecord), stoppedAt s c x r ∧
      (r.cause, r.detail) = a)
    ∧ (∃ (s : State) (c x : Nat) (r : TrapRecord), stoppedAt s c x r ∧
      ¬ (r.cause = 0x13 ∨ r.cause = 0x17 ∨ r.cause = 0x01 ∧ r.detail = 2) ∧ (s.ctx c x).mode ≠ .vliw ∧
      ((s.ctx c x).flow r.flow).group = none)
    ∧ (∃ (s : State) (c x id : Nat) (y : Task) (r : TrapRecord), stoppedAt s c x r ∧ (s.ctx c x).task = some id ∧
      s.task? id = some y ∧ s.oldestUnfinished id = false)
    ∧ (∃ (s : State) (c x : Nat) (r : TrapRecord) (g : Grid), stoppedAt s c x r ∧ (s.ctx c x).idem = true ∧ (s.ctx c x).task = none ∧
      (s.ctx c x).handler = false ∧ SMap.find? s.grids (s.ctx c x).grid = some g)
    ∧ ∃ (s : State) (c x f : Nat) (r : TrapRecord), stoppedAt s c x r ∧ (SMap.find? (s.ctx c x).flows f).isSome := by
  refine ⟨⟨State.reset, 255, 19, .replay 255 19, .inl rfl, by unfold nothingStopped; decide⟩,
    ⟨halted 7 0 2, 0, 0, _, halted_stopped (by decide), by decide⟩, ⟨halted 7 0 0, 0, 0, _, halted_stopped (by decide), by decide, by decide⟩,
    fun a h => ?_, ⟨halted 0x01 1 0, 0, 0, _, halted_stopped (by decide), by decide, by decide, by decide⟩, ?_, ?_,
    ⟨halted 7 0 0, 0, 0, 255, _, halted_stopped (by decide), by decide⟩⟩
  · rcases h with rfl | rfl | rfl
    · exact ⟨halted 0x13 0 0, 0, 0, _, halted_stopped (by decide), rfl⟩
    · exact ⟨halted 0x17 0 0, 0, 0, _, halted_stopped (by decide), rfl⟩
    · exact ⟨halted 0x01 2 0, 0, 0, _, halted_stopped (by decide), rfl⟩
  · let s := tasked.updCc (fun k => { k with stopped := some (record 7 0 0) })
    let y : Task := { grid := 1, stamp := 1, box := [(0, 7)], mapIdx := 0, state := .running 0 0, lastCore := 0 }
    exact ⟨{ s with tasks := { s.tasks with list := [(0, { y with stamp := 0 }), (1, y)] } }, 0, 0, 1, y, record 7 0 0,
      ⟨rfl, rfl, rfl, by decide⟩, rfl, rfl, by decide⟩
  · let s := team.updCc (fun k => { k with grid := 1, idem := true, stopped := some (record 7 0 0) })
    exact ⟨{ s with grids := [(1, gridWith 1 [])] }, 0, 0, record 7 0 0, gridWith 1 [], ⟨rfl, rfl, rfl, by decide⟩, rfl, rfl, rfl, rfl⟩

theorem length_padTo (n : Nat) (bs : List Byte) : (padTo n bs).length = max n bs.length := by
  simp only [padTo, List.length_append, List.length_replicate]; omega

/-- The length of the image of `parking`. -/
theorem parking_length : ((parking.ctx 0 0).saveBytes ((parking.core 0).parked.filter (fun p => p.ctx == 0)) (parking.ageOf (parking.ctx 0 0))
    ((parking.core 0).spad.readBytes (parking.ctx 0 0).spadBase (parking.ctx 0 0).spadLen)).length = 0xCA00 := by
  have patterns : (parking.ctx 0 0).savePatterns.length = 16384 := by
    have e : (parking.ctx 0 0).pats = [] := by decide
    simp only [Ctx.savePatterns, e, List.length_flatMap]
    decide +kernel
  have scales : ((List.range 4).flatMap (fun g => (List.range 64).flatMap (fun e => leBytes 4 ((parking.ctx 0 0).readScale g e).toNat))).length = 1024 := by
    decide +kernel
  simp only [Ctx.saveBytes, List.length_append, length_padTo, patterns, scales]
  rw [show ((parking.ctx 0 0).saveHeader ((parking.core 0).parked.filter (fun p => p.ctx == 0)).length (parking.ageOf (parking.ctx 0 0))).length = 256
      by decide +kernel,
    show ((List.range 64).flatMap (fun n => leBytes 4 ((parking.ctx 0 0).readS n).toNat)).length = 256 by decide +kernel,
    show (parking.ctx 0 0).saveSettings.length = 256 by decide +kernel, show (parking.ctx 0 0).savePorts.length = 1536 by decide +kernel,
    show (parking.ctx 0 0).savePreds.length = 1024 by decide +kernel]
  decide +kernel

theorem meets_SectionAndCommandEvents_saves :
    (∃ (s : State) (c x : Nat) (r : TrapRecord), stoppedAt s c x r ∧
      (if (s.ctx c x).intervalEmpty then s else s.closeInterval c x).parkWaits c x = true)
    ∧ (∃ (s : State) (c x : Nat) (r : TrapRecord), stoppedAt s c x r ∧ (s.ctx c x).intervalEmpty = true ∧ s.parkWaits c x = false ∧ r.cause ≠ 0x11 ∧
      (∀ p ∈ (s.core c).tilesUse, p.1 ≠ x) ∧ (s.core c).trc.enable = false ∧ (s.ctx c x).task = none ∧
      s.rangeCheck (s.ctx c x).part (SMap.get 0 (s.core c).ctxSave x) ((s.ctx c x).saveBytes ((s.core c).parked.filter (fun p => p.ctx == x))
        (s.ageOf (s.ctx c x)) ((s.core c).spad.readBytes (s.ctx c x).spadBase (s.ctx c x).spadLen)).length true = none)
    ∧ (∃ (s : State) (c x : Nat), s.restoreFrom c x (SMap.get 0 (s.core c).ctxSave x) = none)
    ∧ (∀ good, (good = true ∨ good = false) → ∃ (s : State) (c x : Nat) (u : State) (k : Ctx),
      s.restoreFrom c x (SMap.get 0 (s.core c).ctxSave x) = some u ∧ SMap.find? s.parkedCtxs (SMap.get 0 (s.core c).ctxSave x) = some k ∧
      (s.rangeCheck k.part (SMap.get 0 (s.core c).ctxSave x)
        (saveShape (s.mem.readBytes (SMap.get 0 (s.core c).ctxSave x) 256)).stop false).isNone = good ∧ k.live = true ∧ k.stopped = none ∧ s.trapOwed c x = false)
    ∧ (∃ (s : State) (c x f : Nat), s.stepDue c x f = false)
    ∧ (∃ (s : State) (c x f : Nat), s.stepDue c x f = true ∧ s.ringFull c = false)
    ∧ (∃ (s : State) (c x f : Nat), s.stepDue c x f = true ∧ s.ringFull c = true)
    ∧ (∃ (s : State) (c x : Nat), (s.ctx c x).live = false)
    ∧ (∃ (s : State) (c x : Nat), (s.ctx c x).live = true ∧ (s.ctx c x).stopped = none ∧ (s.ctx c x).stopPending = false ∧
      (s.ctx c x).eqStopped = [])
    ∧ (∃ (s : State) (c x : Nat), s.stopDue c x = false) ∧ (∃ (s : State) (c x : Nat), s.stopDue c x = true ∧ s.ringFull c = false)
    ∧ (∃ (s : State) (c x : Nat), s.stopDue c x = true ∧ s.ringFull c = true)
    ∧ ∀ n : BitVec 4, (n = 0 ∨ n = 0xB) → ∃ v : Dword, v.extractLsb' 0 4 = n ∧ (v.extractLsb' 0 4 = 0 ∨ 0xB ≤ (v.extractLsb' 0 4).toNat) := by
  refine ⟨⟨(halted 7 0 0).updCc (fun k => { k with eq := [(0, [command 0 (.fence 1)])] }), 0, 0, record 7 0 0,
      ⟨rfl, rfl, rfl, by decide⟩, by decide⟩,
    ⟨parking, 0, 0, record 0x17 0 2, ⟨rfl, rfl, rfl, by decide⟩, by decide, by decide, by decide, by decide, by decide, by decide, by
      rw [parking_length]; decide +kernel⟩, ⟨State.reset, 0, 0, rfl⟩, fun good h => ?_, ⟨State.reset, 0, 0, 0, by decide⟩,
    ⟨team.updCc (fun k => { k with stepping := some 255, stepped := true }), 0, 0, 255, by decide, by decide⟩,
    ⟨full (team.updCc (fun k => { k with stepping := some 255, stepped := true })), 0, 0, 255, by decide, by decide⟩, ⟨State.reset, 0, 0, by decide⟩,
    ⟨team, 0, 0, by decide, by decide, by decide, by decide⟩, ⟨State.reset, 0, 0, by decide⟩,
    ⟨team.updCc (fun k => { k with stopPending := true }), 0, 0, by decide, by decide⟩,
    ⟨full (team.updCc (fun k => { k with stopPending := true })), 0, 0, by decide, by decide⟩, fun n h => ?_⟩
  · rcases h with rfl | rfl
    · exact ⟨parkedState, 0, 0, _, _, (Option.some_get parked_returns).symm, rfl, by decide +kernel, by decide, by decide, by decide⟩
    · exact ⟨spoiltState, 0, 0, _, _, (Option.some_get spoilt_returns).symm, rfl, by decide +kernel, by decide, by decide, by decide⟩
  · rcases h with rfl | rfl
    · exact ⟨0, by decide, by decide⟩
    · exact ⟨0xB, by decide, by decide⟩

/-- The state after reset with another core 0. -/
def coreWith (f : Core → Core) : State := State.reset.updCore 0 f

theorem meets_RegisterAndErrorEvents_stores :
    (∀ refs, (refs = 0 ∨ refs = 1) → ∃ (s : State) (c n : Nat), n < 16 ∧ (SMap.get {} (s.core c).codeWin n).valid = true ∧
      (SMap.get {} (s.core c).codeWin n).refs = refs)
    ∧ (∃ (s : State) (c n : Nat) (v : Dword), n < 16 ∧ (SMap.get {} (s.core c).codeWin n).valid = false ∧ v.getLsbD 0 = true ∧
      (v.extractLsb' 6 6).toNat + (v.extractLsb' 12 7).toNat = 65)
    ∧ (∃ (s : State) (c n : Nat) (v : Dword), n < 16 ∧ (SMap.get {} (s.core c).codeWin n).valid = false ∧ v.getLsbD 0 = true ∧
      1 ≤ (v.extractLsb' 12 7).toNat ∧ (v.extractLsb' 6 6).toNat + (v.extractLsb' 12 7).toNat = 64 ∧ ∀ p ∈ (s.core c).codeWin, p.1 ≠ n →
        p.2.valid = true → p.2.base + p.2.len ≤ (v.extractLsb' 6 6).toNat)
    ∧ (∃ (s : State) (c a : Nat), a < 0x40000 ∧ ∀ p ∈ (s.core c).codeWin, ¬ inWindow p.2 a)
    ∧ (∃ (s : State) (c a : Nat), a < 0x40000 ∧ ∃ p ∈ (s.core c).codeWin, inWindow p.2 a)
    ∧ (∃ (s : State) (c : Nat), (s.core c).ctxs ≠ [])
    ∧ (∃ (s : State) (c : Nat), (s.core c).ctxs = [] ∧ (∀ p ∈ s.parkedCtxs, p.2.home ≠ c) ∧ ∀ p ∈ (s.core c).amPort, p.2.valid = false)
    ∧ (∃ (s : State) (c : Nat), (s.core c).sramBusy = false) ∧ ∃ (s : State) (c : Nat), (s.core c).sramBusy = true :=
  ⟨fun refs h => ⟨team.updCore 0 (fun co => { co with codeWin := [(0, { refs := refs, part := 0, len := 1, base := 0, valid := true })] }),
      0, 0, by decide, rfl, rfl⟩, ⟨team, 0, 15, 0x2FC1, by decide, by decide, by decide, by decide⟩, ⟨team, 0, 15, 0x1FC1, by decide, by decide, by decide, by decide, by decide, by decide⟩,
    ⟨team, 0, 4096, by decide, by unfold inWindow; decide⟩, ⟨team, 0, 4095, by decide, by unfold inWindow; decide⟩,
    ⟨team, 0, by decide⟩, ⟨State.reset, 0, by decide, by decide, by decide⟩, ⟨State.reset, 0, by decide⟩,
    ⟨coreWith (fun co => { co with sramBusy := true }), 0, by decide⟩⟩

/-- A rerun of one register write. -/
def rerunOf (v : Word) : Rerun := ⟨1, [.register 0x83 v], 0, true, false⟩

theorem meets_RegisterAndErrorEvents_errors :
    (∃ (s : State) (c x : Nat) (l : ErrLocation), (l = .log ∨ l = .checkpoint) ∧ (s.ctx c x).live = true ∧ (s.ctx c x).stopped = none ∧
      s.trapOwed c x = false)
    ∧ (∃ (s : State) (c x : Nat) (l : ErrLocation) (q : Checkpoint), (l = .coreState ∨ l = .matrix) ∧ (s.ctx c x).live = true ∧
      SMap.find? (s.core c).rolled x = none ∧ SMap.find? (s.core c).ckpt x = some q ∧
      ∀ o ∈ (s.core c).mxQ, o.ctx = x → o.closed = true ∨ o.storesSpad = false)
    ∧ (∃ (s : State) (c x : Nat), SMap.find? (s.core c).rolled x = none)
    ∧ ∀ agree, (agree = true ∨ agree = false) → ∃ (s : State) (c x : Nat) (a b : Rerun) (q : Checkpoint),
      SMap.find? (s.core c).rolled x = some q ∧ a.count = b.count ∧ a.error = false ∧ a.addresses = true ∧
      a.loads = q.ctx.loadLog.length ∧ b.error = false ∧ b.addresses = true ∧ b.loads = q.ctx.loadLog.length ∧
      decide (rerunSignature a = rerunSignature b) = agree :=
  ⟨⟨team, 0, 0, .log, .inl rfl, by decide, by decide, by decide⟩,
    ⟨team.updCore 0 (fun co => { co with ckpt := [(0, { ctx := placedCtx false, spad := Memory.empty })] }), 0, 0, .matrix, _, .inr rfl, by decide,
      by decide, rfl, fun o h => by cases h⟩, ⟨State.reset, 0, 0, by decide⟩,
    fun agree h => by
      let roll : State := team.updCore 0 (fun co => { co with rolled := [(0, { ctx := placedCtx false, spad := Memory.empty })] })
      rcases h with rfl | rfl
      · exact ⟨roll, 0, 0, rerunOf 7, rerunOf 7, _, rfl, rfl, rfl, rfl, rfl, rfl, rfl, rfl, by simp⟩
      · exact ⟨roll, 0, 0, rerunOf 7, rerunOf 8, _, rfl, rfl, rfl, rfl, rfl, rfl, rfl, rfl, by decide +kernel⟩⟩

/-- A ring of one entry of VF 383, posted, in the frame that `mapped` owns. -/
def served : State :=
  { mapped with mem := mapped.mem.write 0x100600D 1, mgmt := { mapped.mgmt with hostRunning := true }, svcRings := [(383, { base := 0x1006000, size := 1 })] }

/-- The ownership table behind the two entries of section 0. -/
def ringed : State :=
  withAtt (fun a => { a with frameOwnerBase := commandSlot State.reset 0 + eventSlot State.reset 0 + 64 })

theorem ringed_off : ringsOff ringed 0 := by
  have a : commandSlot ringed 0 = commandSlot State.reset 0 := rfl
  have b : eventSlot ringed 0 = eventSlot State.reset 0 := rfl
  have c : ringed.att.frameOwnerBase = commandSlot State.reset 0 + eventSlot State.reset 0 + 64 := rfl
  unfold ringsOff offTable
  rw [a, b, c]
  omega

theorem meets_RegisterAndErrorEvents_firmware :
    (∃ (s : State) (vf slot : Nat), (s.svcRing vf).size ≤ slot)
    ∧ (∃ (s : State) (vf slot : Nat), s.mgmt.hostRunning = true ∧ slot < (s.svcRing vf).size ∧
      s.rangeCheck 0 ((s.svcRing vf).at slot) 128 false = none ∧ (s.svcEntry vf slot).state ≠ 1)
    ∧ (∃ (s : State) (vf slot : Nat), s.mgmt.hostRunning = true ∧ slot < (s.svcRing vf).size ∧
      s.rangeCheck 0 ((s.svcRing vf).at slot) 128 false = none ∧ (s.svcEntry vf slot).state = 1 ∧ s.calls = [] ∧
      offTable s ((s.svcRing vf).at slot) 128 ∧
      ∀ x, (s.svcRing vf).at slot ≤ x → x < (s.svcRing vf).at slot + 128 → s.physCheck 0 x true = .ok)
    ∧ ∃ (s : State) (sec a : Nat) (v : Dword), a < 4096 ∧ v.getLsbD 0 = false ∧ (SMap.get {} s.aspaces a).valid = false ∧ ringsOff s sec := by
  refine ⟨⟨State.reset, 383, 0, by decide⟩, ⟨{ served with mem := mapped.mem }, 383, 0, by decide, by decide,
      by decide +kernel, by decide +kernel⟩, ⟨served, 383, 0, by decide, by decide, by decide +kernel, by decide +kernel, by decide, by unfold offTable; decide, fun x h1 h2 => ?_⟩,
    ⟨ringed, 0, 4095, 2, by decide, by decide, by decide, ringed_off⟩⟩
  have e : x / 65536 = 256 := by
    have : (served.svcRing 383).at 0 = 0x1006000 := by decide
    omega
  have t : served.inOwnerTable x = false := by
    simp only [State.inOwnerTable, show served.att.frameOwnerBase = 0 from rfl, Bool.and_eq_false_iff, decide_eq_false_iff_not]
    omega
  unfold State.physCheck State.owns
  rw [e, t]
  rfl

/-- An ownership table behind the two entries of section 0 that gives frame 256 to partition 1 and no frame to partition 0, and
an address space of partition 1 whose root table stands in it. -/
def behind : Nat := 2 ^ 40 + commandSlot State.reset 0 + eventSlot State.reset 0 + 64
def foreign : State :=
  { withMgmt (fun m => { m with funcReady := 0xFFFFFFFFFFFFFFFF }) with
    mem := Memory.empty.write (behind + 256) 0x81, aspaces := [(0, { root := 0x1000000, part := 1, valid := true })]
    att := { State.reset.att with frameOwnerBase := behind, parts := [(1, { keyValid := true })] } }

theorem foreign_read (a : Nat) : foreign.mem.read a = if behind + 256 = a then 0x81 else 0 := by
  show (Memory.empty.write (behind + 256) 0x81).read a = _
  by_cases h : behind + 256 = a
  · rw [if_pos h, h]; exact Memory.read_write _ _ _ _ |>.trans (if_pos rfl)
  · rw [if_neg h]; exact Memory.read_write _ _ _ _ |>.trans (if_neg h)

theorem foreign_refused (pa : Nat) (w : Bool) (h : pa < behind) : foreign.physCheck 0 pa w = .refused := by
  have b : foreign.inOwnerTable pa = false := by
    simp only [State.inOwnerTable, show foreign.att.frameOwnerBase = behind from rfl, Bool.and_eq_false_iff, decide_eq_false_iff_not]
    omega
  have e : foreign.frameOwner (pa / 65536) ≠ some 0 := by
    unfold State.frameOwner
    rw [foreign_read]
    split <;> simp
  simp [State.physCheck, State.owns, b, e]

theorem foreign_taken : let s := foreign.fwTake 0 0 4
    s.mem = foreign.mem ∧ s.att = foreign.att ∧ s.poison = [] ∧ s.mgmt.funcReady = 0xFFFFFFFFFFFFFFFF := by
  have low : Config.fwCommandRing 0 + 64 * ((foreign.sect 0).fwTaken % Config.fwRingSize 0) < behind := by
    rw [show Config.fwCommandRing 0 + 64 * ((foreign.sect 0).fwTaken % Config.fwRingSize 0) = commandSlot State.reset 0 from rfl, behind]
    omega
  have r := foreign_refused _ true low
  unfold State.fwTake State.checkedWrite
  simp only []
  rw [r]
  simp only [State.logPhys]
  split <;> exact ⟨rfl, rfl, rfl, rfl⟩

theorem foreign_open (w : Bool) : (foreign.fwTake 0 0 4).physCheck 1 0x1000000 w = .ok := by
  have h := foreign_taken
  generalize foreign.fwTake 0 0 4 = s at h ⊢
  obtain ⟨a, b, c, d⟩ := h
  have e : s.frameOwner 256 = some 1 := by
    unfold State.frameOwner
    rw [a, b, show foreign.att.frameOwnerBase = behind from rfl, foreign_read, if_pos rfl]
    rfl
  have t : s.inOwnerTable 0x1000000 = false := by
    simp only [State.inOwnerTable, b, show foreign.att.frameOwnerBase = behind from rfl, Bool.and_eq_false_iff, decide_eq_false_iff_not, behind]
    omega
  simp [State.physCheck, State.owns, State.stackReady, t, e, c, d, Config.frames]

theorem foreign_entry : (foreign.fwTake 0 0 4).entryAt 1 0 4 4 0x1000000 =
    .ok (0x1000000, leNat ((foreign.fwTake 0 0 4).mem.readBytes 0x1000000 8), 4) := by
  have z : entryOf 0 4 0x1000000 = 0x1000000 := by decide
  rw [State.entryAt, z]
  simp only [State.stopEntry, foreign_open, bne_self_eq_false, Bool.false_eq_true, if_false, Nat.le_refl, true_or, if_true]

theorem meets_RegisterAndErrorEvents_unmap : ∃ (s : State) (sec a va l ea e : Nat) (tag : Word), (SMap.get {} s.aspaces a).valid = true ∧
    (s.fwTake sec tag 4).entryAt (SMap.get {} s.aspaces a).part va l 4 (SMap.get {} s.aspaces a).root = .ok (ea, e, l) ∧
    (s.fwTake sec tag 4).physCheck (SMap.get {} s.aspaces a).part ea true = .ok ∧ offTable s ea 8 ∧ ringsOff s sec := by
  have space : SMap.get {} foreign.aspaces 0 = { root := 0x1000000, part := 1, valid := true } := rfl
  refine ⟨foreign, 0, 0, 0, 4, 0x1000000, leNat ((foreign.fwTake 0 0 4).mem.readBytes 0x1000000 8), 0, ?_, ?_, ?_, ?_, ?_⟩
  · rw [space]
  · rw [space]; exact foreign_entry
  · rw [space]; exact foreign_open true
  · unfold offTable
    rw [show foreign.att.frameOwnerBase = behind from rfl, behind]
    omega
  · have a : commandSlot foreign 0 = commandSlot State.reset 0 := rfl
    have b : eventSlot foreign 0 = eventSlot State.reset 0 := rfl
    unfold ringsOff offTable
    rw [a, b, show foreign.att.frameOwnerBase = behind from rfl, behind]
    omega

/-! ### Mipex, code objects and signatures -/

/-- The words of a VLIW stream as bytes: the parcel with bits 31 to 16 first (11 R221). -/
def unitsOf (ws : List Nat) : List Byte :=
  ws.flatMap (fun w => [w / 65536, w / 16777216, w, w / 256].map (BitVec.ofNat 8))

/-- The Mipex block of the example behind 19 R395, with an empty bundle at L. -/
def mipexExample : List Byte :=
  bytesOf [0x83000000, 0x33101080, 0x01104041, 0x81000000, 0x31144040, 0x88000000, 0x18000002, 0x20, 0x80000000]

/-- 19 R380, R381 (the example behind R395): four bundles at 0x00, 0x0C, 0x14 and 0x20, allowed in a one-cluster kernel. -/
theorem test_mipex_stream :
    (parseMipex 9 0 mipexExample).map (fun bs => (bs.map MipexBundle.addr, bs.all (fun b => b.allowed bs 1 64)))
      = some ([0x00, 0x0C, 0x14, 0x20], true) := by decide +kernel

/-- 19 R383 (the example behind R395): the native words that the manual lists, three empty bundles before the `fadd`, two
delay bundles, and L at 0x34. -/
theorem test_mipex_translation :
    (parseMipex 9 0 mipexExample).map (fun bs => (translateMipex bs [0] [] 0).code)
      = some (unitsOf [0x80401000, 0x33101080, 0x01104041, 0x80000000, 0x80000000, 0x80000000, 0x80001000, 0x31144040,
          0x88000000, 0x18000002, 0x34, 0x80000000, 0x80000000, 0x80000000]) := by decide +kernel

/-- 19 R381: a `bra` in slot x, and a bundle whose header has a reserved bit, are refused. -/
theorem test_mipex_refused :
    parseMipex 3 0 (bytesOf [0x81000000, 0x18000002, 0]) = none ∧ parseMipex 1 0 (bytesOf [0x80000001]) = none := by
  decide +kernel

/-- An ELF64 file of a machine, with its null section alone (19 R392). -/
def objectOf (machine : Nat) : List Byte :=
  bytesOf [0x464C457F, 0x00010102, 0, 0, machine * 65536 + 2, 1, 0, 0, 0, 0, 64, 0, 0, 64, 0x00400000, 1] ++ List.replicate 64 0

/-- 19 R392: e_machine is 0xAF59; any other (here 62) is refused. -/
theorem test_object_machine :
    ((readCodeFile (objectOf 0xAF59)).isSome, (readCodeFile (objectOf 62)).isSome) = (true, false) := by decide +kernel

/-- 10 R214: the CRC-64 with the ECMA-182 polynomial and initial value zero of the nine digits 1 to 9, as its catalogues list
it. -/
theorem test_signature_crc : crc64 [0x31, 0x32, 0x33, 0x34, 0x35, 0x36, 0x37, 0x38, 0x39] = 0x6C40DF5F0B497347 := by
  decide +kernel

end Sys2Proof.Tests
end

/-! PROOF. `perm`, `shfl` and `bcast` (15 R304 to R307). First what a ready instruction's frame is, then the
reads and writes of a lane instruction in the terms of the statements, then the sources of a gather. -/

namespace Sys2Proof.Proofs

open Sys2Proof.Machine Sys2Proof.Claims

/-! ### The frame of a ready instruction -/

@[simp] theorem opEnv_o (s : State) (n : Info) : (s.opEnv n).o = opd n := by
  unfold State.opEnv
  split <;> rfl

theorem opEnv_of_simt {s : State} {n : Info} (h : s.cc.vliw = false) :
    (s.opEnv n).simt = true ∧ ∃ k mask, (s.opEnv n).lanes = passLanes k mask (s.opEnv n).group (opd n) := by
  unfold State.opEnv
  simp only [h, Bool.false_eq_true, if_false]
  exact ⟨rfl, _, _, rfl⟩

theorem opEnv_of_vliw {s : State} {n : Info} (h : s.cc.vliw = true) :
    (s.opEnv n).simt = false ∧ (s.opEnv n).slot = s.cur.slot ∧ ∃ k, (s.opEnv n).lanes = slotLanes k s.cur.slot (opd n) := by
  unfold State.opEnv
  simp only [h, if_true]
  exact ⟨rfl, rfl, _, rfl⟩

/-- What an op without an encoding cause meets: its slot takes its class, and its codes are accepted (11 R230, R231). -/
theorem encodingCause_eq_none {n : Info} {p : Place} (h : encodingCause n p = none) :
    (p.simt = false → slotAccepts p.slot (classOf (opd n).major) = true)
      ∧ codesAccepted n (opd n) (shape (opd n) p.simt) = true := by
  unfold encodingCause at h
  simp only [ite_eq_iff, reduceCtorEq, and_false, false_or] at h
  obtain ⟨-, -, slot, -, -, -, -, codes, -⟩ := h
  exact ⟨fun hp => by simpa [hp] using slot, by simpa using codes⟩

theorem encodingCause_of_vliwReady {s : State} {n : Info} (r : VliwReady s n) :
    encodingCause n (s.cc.vliwPlace s.cur.slot) = none := by
  have h := r.encoded
  unfold Ctx.opCause at h
  cases he : encodingCause n (s.cc.vliwPlace s.cur.slot) with
  | none => rfl
  | some d => simp [he] at h

theorem codesAccepted_of_ready {s : State} {n : Info} (r : Ready s n) :
    ∃ simt, codesAccepted n (opd n) (shape (opd n) simt) = true := by
  rcases r with r | r
  · exact ⟨_, (encodingCause_eq_none r.encoded).2⟩
  · exact ⟨_, (encodingCause_eq_none (encodingCause_of_vliwReady r)).2⟩

/-- A lane of a pass, or of a cluster's op, has its place in its span as LANEID (15 R289). -/
theorem laneId_of_ready {s : State} {n : Info} (r : Ready s n) (hc : classOf (opd n).major = .c) {l : Nat}
    (hl : l ∈ (s.opEnv n).lanes) : (s.opEnv n).laneId l = l - spanBase (s.opEnv n) := by
  rcases r with r | r
  · obtain ⟨simt, k, mask, lanes⟩ := opEnv_of_simt (n := n) r.simt
    simp only [lanes, passLanes, laneList, List.mem_filter, List.mem_map, List.mem_range] at hl
    obtain ⟨⟨m, ⟨hm, -⟩, rfl⟩, -⟩ := hl
    simp only [Env.laneId, spanBase, simt, if_true]
    omega
  · obtain ⟨simt, slot, k, lanes⟩ := opEnv_of_vliw (n := n) r.vliw
    have h8 : s.cur.slot < 8 := by
      have h := (encodingCause_eq_none (encodingCause_of_vliwReady r)).1 rfl
      rw [hc] at h
      exact of_decide_eq_true h
    simp only [lanes, slotLanes, h8, if_true, List.mem_filter, List.mem_map, List.mem_range] at hl
    obtain ⟨⟨m, hm, rfl⟩, -⟩ := hl
    simp only [Env.laneId, spanBase, simt, slot, Bool.false_eq_true, if_false]
    omega

/-! ### The operands of an op, by its fields -/

section
variable (n : Info)

@[simp] theorem opd_major : (opd n).major = n.major.toNat := by unfold opd; dsimp only; split <;> rfl
@[simp] theorem opd_form : (opd n).form = n.form.toNat := by unfold opd; dsimp only; split <;> rfl
@[simp] theorem opd_n : (opd n).n = n.f.n := by unfold opd; dsimp only; split <;> rfl
@[simp] theorem opd_g : (opd n).g = n.f.g.toNat := by unfold opd; dsimp only; split <;> rfl
@[simp] theorem opd_d : (opd n).d = n.f.d.toNat := by unfold opd; dsimp only; split <;> rfl
@[simp] theorem opd_a : (opd n).a = n.f.a.toNat := by unfold opd; dsimp only; split <;> rfl
@[simp] theorem opd_b : (opd n).b = n.f.b.toNat := by unfold opd; dsimp only; split <;> rfl
@[simp] theorem opd_sub : (opd n).sub = n.sub := by
  unfold opd Info.sub
  dsimp only
  split <;> simp only [*]

end

theorem form_eq_three_iff (n : Info) : (opd n).form = 3 ↔ (n.form == 3) = true := by
  rw [opd_form, beq_iff_eq]
  exact BitVec.toNat_inj (y := 3#2)

theorem readA_eq {e : Env} {n : Info} (ho : e.o = opd n) (l : Nat) : e.readA l = lv e.k (n.form == 3) n.f.a l := by
  simp only [Env.readA, lv, ho, form_eq_three_iff, opd_a, Bool.and_eq_true, decide_eq_true_eq]

theorem readB_eq {e : Env} {n : Info} (ho : e.o = opd n) (l : Nat) : e.readB l = lv e.k (n.form == 3) n.f.b l := by
  simp only [Env.readB, lv, ho, form_eq_three_iff, opd_b, Bool.and_eq_true, decide_eq_true_eq]

/-! ### Results of a lane instruction -/

/-- The results of a lane instruction whose unit has a port (09 R187; 15 R290). -/
theorem laneResult_eq {e : Env} {p : Nat} (hp : portOf e.o.major = some p) (regs : Nat → List Write) (val : Nat → Word)
    (s : State) : e.laneResult regs val s = (s, .go (fun s => s.deliver (latencyOf e.o) (laneWs e p regs val))) := by
  unfold Env.laneResult Env.portWrites laneWs Env.clusterLanes
  simp only [hp, List.map_map, List.flatMap_def]
  rfl

/-- Only the active lanes count in the results. -/
theorem laneWs_congr {e : Env} {p : Nat} {regs regs' : Nat → List Write} {val val' : Nat → Word}
    (hr : ∀ l ∈ e.lanes, regs l = regs' l) (hv : ∀ l ∈ e.lanes, val l = val' l) :
    laneWs e p regs val = laneWs e p regs' val' := by
  have hport : ∀ l, (if e.lanes.contains l = true then val l else 0) = if e.lanes.contains l = true then val' l else 0 := by
    intro l
    split
    next h => exact hv l (List.contains_iff_mem.1 h)
    next => rfl
  unfold laneWs
  simp only [hport, List.flatMap_congr hr]

/-- An integer TYPE takes a register pair where it has 64 bits. -/
theorem pairs_eq_two_iff {o : Opd} {ty : BitVec 4} (h : o.ty = ty.toNat) (hi : ty.toNat < 8) :
    o.pairs = 2 ↔ tyBits ty = 64 := by
  unfold Opd.pairs Opd.wide
  rw [h]
  clear h
  revert ty
  decide

theorem readV64_eq_append (k : Ctx) (r l : Nat) : k.readV64 r l = (k.readV (r + 1) l ++ k.readV r l).toNat := by
  rw [BitVec.toNat_append, ← Nat.shiftLeft_add_eq_or_of_lt (k.readV r l).isLt, Nat.shiftLeft_eq]
  unfold Ctx.readV64
  omega

/-- A lane's register or pair is read as the TYPE of the op takes one or two. -/
theorem lw_eq {o : Opd} {ty : BitVec 4} (h : o.ty = ty.toNat) (hi : ty.toNat < 8) (k : Ctx) (r : BitVec 6) (l : Nat) :
    lw k ty r l = if o.pairs = 2 then k.readV64 r.toNat l else (k.readV r.toNat l).toNat := by
  simp only [lw, pairs_eq_two_iff h hi, readV64_eq_append]

theorem laneWrites_eq_lnum {o : Opd} {ty : BitVec 4} (h : o.ty = ty.toNat) (hi : ty.toNat < 8) (r : BitVec 6) (l x : Nat) :
    laneWrites r.toNat l o.pairs x = lnum ty r l x := by
  simp only [laneWrites, lnum, pairs_eq_two_iff h hi, loWord, hiWord]

/-! ### The sources of a gather -/

/-- The source lane of a lane as the model's plan of `perm` names it (15 R305). -/
def permSource (e : Env) (l : Nat) : Option Nat :=
  let i := (e.readB l).toNat
  if e.simt then (if i < e.k.laneCount ∧ e.teamLive i then some i else none) else e.spanLive i

/-- The source lane of a lane as the model's plan of `shfl` names it, by its mode (15 R306). -/
def shflSource (e : Env) (l : Nat) : Option Nat :=
  let n := e.laneId l
  let b := e.laneCountB l
  match e.o.sub with
  | 0 => e.spanLive b
  | 1 => if b ≤ n then e.spanLive (n - b) else none
  | 2 => e.spanLive (n + b)
  | _ => e.spanLive (Nat.xor n b)

/-- The source lane of every lane as the model's plan of `bcast` names it (15 R307). -/
def bcastSource (e : Env) : Option Nat := e.spanLive (e.laneCountB e.lowest)

/-- The source lane of a gather by its major. -/
def gatherSource (e : Env) (l : Nat) : Option Nat :=
  if e.o.major = 0x48 then permSource e l else if e.o.major = 0x49 then shflSource e l else bcastSource e

/-- The model's gather, with what a lane takes as one value. -/
theorem laneGather_eq (src : Nat → Option Nat) (e : Env) (s : State) :
    laneGather src e s = laneOp (fun l => (src l).elim (e.fill l) (e.wideA · e.o.pairs)) e s := by
  unfold laneGather
  congr 1
  funext l
  cases src l <;> rfl

/-- The majors of `perm`, `shfl` and `bcast`. -/
def GatherMajor (m : Nat) : Prop := m = 0x48 ∨ m = 0x49 ∨ m = 0x4D

/-- The plan of each of the three majors is the gather from its sources. -/
theorem planOp_gather {e : Env} (h : GatherMajor e.o.major) (s : State) :
    planOp e s = laneGather (gatherSource e) e s := by
  rcases h with h | h | h <;>
    simp only [planOp, planLane, h, Nat.reduceLeDiff, if_true, if_false, OfNat.ofNat_ne_zero] <;>
    unfold gatherSource <;> simp only [h] <;> rfl

theorem classOf_gather {m : Nat} (h : GatherMajor m) : classOf m = .c := by
  rcases h with rfl | rfl | rfl <;> rfl

theorem portOf_gather {m : Nat} (h : GatherMajor m) : portOf m = some 2 := by
  rcases h with rfl | rfl | rfl <;> rfl

theorem latencyOf_gather {o : Opd} (h : GatherMajor o.major) : latencyOf o = 6 := by
  unfold latencyOf
  rcases h with h | h | h <;> rw [h] <;> rfl

theorem exactlyOnce_gather {e : Env} (h : GatherMajor e.o.major) : e.exactlyOnce = false := by
  unfold Env.exactlyOnce
  rcases h with h | h | h <;> rw [h] <;> rfl

theorem shape_types_gather {o : Opd} (h : GatherMajor o.major) (simt : Bool) : (shape o simt).types = [5, 7] := by
  unfold shape third
  rcases h with h | h | h <;> simp only [h] <;> split <;> rfl

/-- A lane of the span is a live source alike in the model and in the statement (15 R304). -/
theorem spanLive_eq_liveLane (e : Env) (j : Nat) : e.spanLive j = liveLane e j := by
  have hlen : e.spanSize = spanLen e := by
    unfold Env.spanSize spanLen Ctx.groupLanes
    cases e.simt <;> cases e.k.mode <;> rfl
  unfold Env.spanLive liveLane
  rw [hlen, show e.spanBase = spanBase e from rfl]
  simp only [Bool.and_eq_true, decide_eq_true_eq]

theorem permSource_eq {e : Env} {n : Info} (ho : e.o = opd n) (l : Nat) :
    permSource e l = (let i := (lv e.k (n.form == 3) n.f.b l).toNat
      if e.simt then liveTeamLane e n.f i else liveLane e i) := by
  simp only [permSource, liveTeamLane, Env.teamLive, spanLive_eq_liveLane, readB_eq ho, ho, opd_g, opd_n, Bool.and_eq_true,
    decide_eq_true_eq, and_assoc]

theorem shflSource_eq {e : Env} {l : Nat} (hid : e.laneId l = l - spanBase e) :
    shflSource e l = shflLane e e.o.sub (e.laneCountB l) l := by
  simp only [shflSource, shflLane, spanLive_eq_liveLane, hid]
  rfl

theorem bcastSource_eq (e : Env) : bcastSource e = liveLane e (e.laneCountB (e.lanes.headD 0)) :=
  spanLive_eq_liveLane e _

/-! ### The operands of a gather -/

/-- The lane number that B gives: the imm6 in form 01, else a register or port (15 R306). -/
def statedB (e : Env) (n : Info) (l : Nat) : Nat :=
  if n.form = 1 then n.f.b.toNat else (lv e.k (n.form == 3) n.f.b l).toNat

/-- The source lane of a lane in the terms of the statement, by the encoding (15 R305 to R307). -/
def statedSource (e : Env) (n : Info) (l : Nat) : Option Nat :=
  if n.major = 0x48 then (let i := (lv e.k (n.form == 3) n.f.b l).toNat
    if e.simt then liveTeamLane e n.f i else liveLane e i)
  else if n.major = 0x49 then shflLane e n.sub (statedB e n l) l
  else liveLane e (statedB e n (e.lanes.headD 0))

/-- The encoding of a gather: its major, its fields, the extended word of form 10, and the ports of form 11. -/
structure IsGather (n : Info) (f : OpF) (x : Option ExtX) (port : Bool) : Prop where
  major : [0x48#7, 0x49#7, 0x4D#7].contains n.major = true
  fields : n.f = f
  ext : n.ext = x.elim .none .x
  extended : x.isSome = (n.form == 2)
  ports : port = (n.form == 3)

/-- What `gatherOf` says of an instruction is its encoding and the source that follows from it. -/
theorem isGather_of_gatherOf {e : Env} {i : Instr} {n : Info} {f : OpF} {x : Option ExtX} {port : Bool} {l : Nat}
    {j : Option Nat} (hi : info i = some n) (h : gatherOf e i l = some (f, x, port, j)) :
    IsGather n f x port ∧ statedSource e n l = j := by
  cases i with
  | perm f | permExt f x | permPort f | shfl f | shflImm f | shflExt f x | shflPort f | bcast f | bcastImm f | bcastExt f x
  | bcastPort f =>
    cases hi
    cases h
    exact ⟨⟨rfl, rfl, rfl, rfl, rfl⟩, rfl⟩
  | _ => nomatch h

section
variable {e : Env} {n : Info} {f : OpF} {x : Option ExtX} {port : Bool}

theorem laneCountB_eq (ho : e.o = opd n) (l : Nat) : e.laneCountB l = statedB e n l := by
  have hb : (BitVec.ofNat 32 n.f.b.toNat).toNat = n.f.b.toNat := by
    have := n.f.b.isLt
    rw [BitVec.toNat_ofNat]
    omega
  have hf : n.form.toNat = 1 ↔ n.form = 1 := BitVec.toNat_inj (y := 1#2)
  simp only [Env.laneCountB, statedB, Opd.imm6u, readB_eq ho, ho, opd_form, opd_b, hb, hf]

theorem gatherSource_eq (ho : e.o = opd n) {l : Nat} (hid : e.laneId l = l - spanBase e) :
    gatherSource e l = statedSource e n l := by
  have h48 : n.major.toNat = 0x48 ↔ n.major = 0x48 := BitVec.toNat_inj (y := 0x48#7)
  have h49 : n.major.toNat = 0x49 ↔ n.major = 0x49 := BitVec.toNat_inj (y := 0x49#7)
  simp only [gatherSource, statedSource, permSource_eq ho, shflSource_eq hid, bcastSource_eq, laneCountB_eq ho, ho,
    opd_major, opd_sub, h48, h49]

/-- Form 11 has no extended word. -/
theorem IsGather.oneWord (h : IsGather n f x port) (hp : port = true) : x = none := by
  have h3 : n.form = 3 := by simpa [hp] using h.ports
  simpa [h3] using h.extended

theorem IsGather.gatherMajor (h : IsGather n f x port) : GatherMajor (opd n).major := by
  have hm : n.major = 0x48 ∨ n.major = 0x49 ∨ n.major = 0x4D := by simpa using h.major
  rw [opd_major]
  rcases hm with hm | hm | hm <;> rw [hm]
  · exact .inl rfl
  · exact .inr (.inl rfl)
  · exact .inr (.inr rfl)

theorem defaultType_gather {m : Nat} (h : GatherMajor m) (sel : Nat) : defaultType m sel = 5 := by
  rcases h with rfl | rfl | rfl <;> rfl

theorem IsGather.ty (h : IsGather n f x port) : (opd n).ty = (gatherType x).toNat := by
  have hm := h.gatherMajor
  rw [opd_major] at hm
  have hx := h.ext
  cases x <;> simp only [opd, hx, Option.elim, gatherType, defaultType_gather hm]
  rfl

theorem IsGather.c (h : IsGather n f x port) : (opd n).c = (x.elim f.d ExtX.c).toNat := by
  have hx := h.ext
  cases x <;> simp only [opd, hx, Option.elim, h.fields]

/-- A gather with an accepted TYPE, n32 or n64, is of an integer TYPE (13 R264). -/
theorem IsGather.type_lt (h : IsGather n f x port) {simt : Bool}
    (hc : codesAccepted n (opd n) (shape (opd n) simt) = true) : (gatherType x).toNat < 8 := by
  cases x with
  | none => decide
  | some y =>
    have hm := h.gatherMajor
    have hty := h.ty
    simp only [codesAccepted, h.ext, Option.elim, shape_types_gather hm, Bool.and_eq_true] at hc
    obtain ⟨⟨⟨types, -⟩, -⟩, -⟩ := hc
    simp only [List.contains_cons, List.contains_nil, Bool.or_eq_true, beq_iff_eq, reduceCtorEq, false_or, Bool.false_eq_true,
      or_false] at types
    unfold GatherMajor at hm
    omega

theorem wideA_eq (ho : e.o = opd n) (h : IsGather n f x port) (hi : (gatherType x).toNat < 8) (j : Nat) :
    e.wideA j e.o.pairs = if port then (lv e.k true f.a j).toNat else lw e.k (gatherType x) f.a j := by
  have ha : e.readA j = lv e.k port f.a j := by rw [readA_eq ho, h.fields, ← h.ports]
  have hd : e.o.a = f.a.toNat := by rw [ho, opd_a, h.fields]
  unfold Env.wideA
  cases hp : port with
  | false => simp only [ha, hp, hd, lw_eq (ho ▸ h.ty) hi, lv, Bool.false_and, Bool.false_eq_true, if_false]
  | true =>
    have hp1 : e.o.pairs = 1 := by
      have hx : x = none := h.oneWord hp
      have hty : e.o.ty = 5 := by rw [ho, h.ty, hx]; rfl
      simp [Opd.pairs, Opd.wide, hty]
    simp [ha, hp, hp1]

theorem fill_eq (ho : e.o = opd n) (h : IsGather n f x port) (hi : (gatherType x).toNat < 8) (l : Nat) :
    e.fill l = lw e.k (gatherType x) (x.elim f.d ExtX.c) l := by
  have hc : e.o.c = (x.elim f.d ExtX.c).toNat := ho ▸ h.c
  rw [lw_eq (ho ▸ h.ty) hi, Env.fill, Env.wideC, hc]

/-- What a lane takes in the model's gather is the statement's value. -/
theorem gathered_eq (ho : e.o = opd n) (h : IsGather n f x port) (hi : (gatherType x).toNat < 8) (src : Option Nat) (l : Nat) :
    src.elim (e.fill l) (e.wideA · e.o.pairs) = gathered e f x port src l := by
  cases src with
  | some j => exact wideA_eq ho h hi j
  | none => rw [Option.elim, fill_eq ho h hi]; cases x <;> rfl

/-- The plan of a gather delivers the statement's results, where its active lanes have their place in the span as LANEID. -/
theorem planOp_isGather (ho : e.o = opd n) (h : IsGather n f x port) (hi : (gatherType x).toNat < 8)
    (hid : ∀ l ∈ e.lanes, e.laneId l = l - spanBase e) (s : State) :
    let v := fun l => gathered e f x port (statedSource e n l) l
    planOp e s = (s, .go (fun s => s.deliver 6
      (laneWs e 2 (fun l => lnum (gatherType x) f.d l (v l)) (fun l => BitVec.ofNat 32 (v l))))) := by
  intro v
  have hm : GatherMajor e.o.major := ho ▸ h.gatherMajor
  have hv : ∀ l ∈ e.lanes, (gatherSource e l).elim (e.fill l) (e.wideA · e.o.pairs) = v l := fun l hl => by
    rw [gathered_eq ho h hi, gatherSource_eq ho (hid l hl)]
  have hd : e.o.d = f.d.toNat := by rw [ho, opd_d, h.fields]
  rw [planOp_gather hm, laneGather_eq, laneOp, laneResult_eq (portOf_gather hm), latencyOf_gather hm]
  congr 3
  funext t
  congr 1
  refine laneWs_congr (fun l hl => ?_) (fun l hl => ?_)
  · rw [hv l hl, hd, laneWrites_eq_lnum (ho ▸ h.ty) hi]
  · rw [hv l hl]
    rfl

end

/-- Settles O7: the model's sources are the statement's, lane by lane, and what is read and written follows from the TYPE. -/
theorem laneGathers : Obligations.LaneGathers := by
  intro s i n f x port src _ hi hg r room e v
  have h : IsGather n f x port := (isGather_of_gatherOf hi (hg 0)).1
  have hsrc : statedSource e n = src := funext fun l => (isGather_of_gatherOf hi (hg l)).2
  have ho : e.o = opd n := opEnv_o s n
  have hm : GatherMajor (opd n).major := h.gatherMajor
  obtain ⟨simt, codes⟩ := codesAccepted_of_ready r
  have plan := planOp_isGather ho h (h.type_lt codes) (fun l hl => laneId_of_ready r (classOf_gather hm) hl) (s.opState n)
  rw [hsrc] at plan
  rw [exec_of_info hi]
  exact r.writes room (exactlyOnce_gather (ho ▸ hm)) plan

end Sys2Proof.Proofs

/-! PROOF. `qstat` (18 R368). First the entries of a queue as the statement counts them, in the commands that are held
and in the queue itself, then what `qstat` reads in the state it takes effect in, which differs
from the state it finds in its flow alone. -/

namespace Sys2Proof.Proofs

open Sys2Proof.Machine Sys2Proof.Claims

/-! ### The entries of a queue -/

/-- Where the keys of a map rise, the lists of a key are its one list. -/
theorem flatMap_filter_eq_get {α : Type} (m : SMap (List α)) (q : Nat) (h : m.Pairwise (fun a b => a.1 < b.1)) :
    (m.filter (fun p => p.1 == q)).flatMap Prod.snd = SMap.get [] m q := by
  induction m with
  | nil => rfl
  | cons p r ih =>
    obtain ⟨head, tail⟩ := List.pairwise_cons.1 h
    by_cases hp : p.1 = q
    · have rest : r.filter (fun p => p.1 == q) = [] := List.filter_eq_nil_iff.2 fun b hb => by
        have := head b hb
        simp only [beq_iff_eq]
        omega
      simp [SMap.get, SMap.find?, hp, rest]
    · simpa [SMap.get, SMap.find?, hp] using ih tail

/-- Is an entry one of a queue: a fence of a queue that its mask names, any other entry of its own queue (08 R171, R172)? -/
def entersQueue (q : Nat) (c : EngCmd) : Bool :=
  match c.op with
  | .fence m => m.getLsbD q
  | _ => c.queue == q

/-- An entry is in a queue as the model lists the queues that it enters. -/
theorem contains_queues_eq_entersQueue (c : EngCmd) {q : Nat} (hq : q < 4) : c.queues.contains q = entersQueue q c := by
  unfold EngCmd.queues entersQueue
  cases c.op with
  | fence m => simp [List.contains_eq_mem, hq]
  | _ => exact Bool.eq_iff_iff.2 (by simp [eq_comm (a := q)])

/-- The entries issued and not performed are those in the queue and those held for it (18 R368). -/
theorem queueLoad_eq (k : Ctx) {q : Nat} (hq : q < 4) (rising : k.eq.Pairwise (fun a b => a.1 < b.1)) :
    k.queueLoad q = ((k.eq.filter (fun p => p.1 == q)).flatMap Prod.snd).length + (k.held.filter (entersQueue q)).length := by
  unfold Ctx.queueLoad
  rw [flatMap_filter_eq_get k.eq q rising, funext fun c => contains_queues_eq_entersQueue c hq]

/-! ### The context that a ready instruction sees -/

/-- A ready instruction takes effect in the cursor's context. -/
theorem opEnv_context (s : State) (n : Info) : (s.opEnv n).core = s.cur.core ∧ (s.opEnv n).ctx = s.cur.ctx := by
  unfold State.opEnv State.opState
  split <;> exact ⟨rfl, rfl⟩

/-- Before its effect a ready instruction has changed its flow alone. -/
theorem opState_context (s : State) (n : Info) :
    ∃ g, (s.opState n).ctx s.cur.core s.cur.ctx = s.cc.updFlow s.cur.flow g := by
  unfold State.opState
  split <;> exact ⟨_, by rw [State.updCf_eq, State.ctx_setCtx]⟩

/-! ### `qstat` -/

/-- The plan of `qstat` delivers the load of the queue and its stop, as a context gives them that differs in flows alone. -/
theorem planOp_qstat {e : Env} {s : State} {k : Ctx} {flow : Nat} {g : Flow → Flow} (hm : e.o.major = 0x71)
    (first : e.first = true) (hk : s.ctx e.core e.ctx = k.updFlow flow g) :
    let q := (e.k.readS e.o.a).toNat % 4
    planOp e s = (s, .go (fun s => s.deliver 1 [⟨.s e.o.d,
      loWord (min (k.queueLoad q) 65535 + if (SMap.find? k.eqStopped q).isSome then 65536 else 0)⟩])) := by
  have plan : planOp e s = planQstat e s := by
    simp only [planOp, planEngine, hm, first, Nat.reduceLeDiff, OfNat.ofNat_ne_zero, if_true, if_false, Bool.not_true,
      Bool.and_false, Bool.false_eq_true]
  rw [plan, planQstat, hk]
  rfl

/-- Settles O32: the queues and the held commands that `qstat` reads are those of the context that issues it, and the
model's count of the entries is the statement's. -/
theorem queueStatus : Obligations.QueueStatus := by
  intro s f n hi r first room q load rising
  have hf : n.f = f := by cases hi; rfl
  have hm : (s.opEnv n).o.major = 0x71 := by cases hi; rw [opEnv_o, opd_major]; rfl
  have once : (s.opEnv n).exactlyOnce = false := by unfold Env.exactlyOnce; rw [hm]; rfl
  obtain ⟨core, ctx⟩ := opEnv_context s n
  obtain ⟨g, hk⟩ := opState_context s n
  have plan := planOp_qstat hm first (by rw [core, ctx]; exact hk)
  dsimp only at plan
  rw [opEnv_o, opd_a, opd_d, hf, queueLoad_eq s.cc (Nat.mod_lt _ (by decide)) rising] at plan
  rw [exec_of_info hi]
  exact r.writes room once plan

end Sys2Proof.Proofs
